-- ==== Sys2Proof/Word.lean ====
section
/-!
DEFINITION. Word.lean: the words of the device. Registers are 32 bits (00_scope), a byte is 8 bits,
and every structure that the device defines is a little-endian list of bytes (R4).
-/
namespace Sys2Proof

/-- One byte of a frame, a flit, a memory line or a structure. -/
abbrev Byte := BitVec 8

/-- A string of bytes, the byte at the lowest address first (R4). -/
abbrev Bytes := List Byte

/-- A register word (00_scope, Registers). -/
abbrev Word := BitVec 32

end Sys2Proof
end

