-- ==== Sys2Proof/Config.lean ====
section
/-!
DEFINITION. Config.lean: what an implementation fixes and the spec leaves open. Each constant here has no body,
so nothing can be proved of its value (guide, free values; log entries 4 and 5).
-/
namespace Sys2Proof.Config

/-- The `n`-th open value of a run: whatever the device puts where the spec states no result.
The step reads it at the state's counter `free` and advances the counter (log entry 4). -/
opaque freeValue : Nat → Nat

/-- The secure hash SHA-384 (R461) of a byte string, 48 bytes (log entry 5). -/
opaque sha384 : Bytes → Bytes

/-- The outcome of an ECDSA P-384 check: public key, message, signature (R246, R461; log entry 5). -/
opaque ecdsaP384 : Bytes → Bytes → Bytes → Bool

/-- The Ed25519 signature of a message by the device's private key (R450; log entry 5). -/
opaque ed25519 : Bytes → Bytes

/-- AES-256-GCM opening: key, nonce, associated data, cipher text, tag; `none` when the tag fails
(R462; log entry 5). -/
opaque aesGcmOpen : Bytes → Bytes → Bytes → Bytes → Bytes → Option Bytes

/-- The pipe that the bit-stream names for the arrivals of a Trellis link (R378): no field of the DEVICE section gives it
(log entry 4). -/
opaque linkPipe : Nat → Fin 8

/-- The version that a PARAM flit of the Stem link carries (R62): the spec states no value (log entry 12). -/
opaque stemVersion : Nat

/-- The hops of a deepened slot (R376): the model image and the bit-stream fix them, and no field of either gives them. By the DEVICE section
and STRUCT_ID: the member that runs the next stage after so many passes, the hops of the slot in all, and the flits per µs that it reserves on
a Trellis link (log entry 99). -/
opaque hopNext (device : Bytes) (structId passes : Nat) : Option (Fin 8)
opaque hopCount (device : Bytes) (structId : Nat) : Nat
opaque hopFlits (device : Bytes) (structId link : Nat) : Nat

/-- The pipe whose tensor records a host job of a slot uses (R159, R356): the spec does not name it (log entry 4). -/
opaque jobPipe : Nat → Fin 8

/-- The earliest arrival of a served Stem request at FLW, in CLK_PIPE cycles from its entry into stage 2 (R98, R254): the
spec does not state it (log entry 4). -/
opaque flwArrival : Nat

/-- The RESOURCE code of the report entry for a shortfall of a section (R83, R136): 0 TCAM entries, 1 exact-match entries, 2 bytes of window
cells; the table of R253 has none for them (log entry 148). -/
opaque sectionResource : Nat → Nat

/-- The array geometry of a die or stack (R329, R330): the row that holds the block at an offset of a unit, and the column position, with its
subarray, of a bit of the block: by unit, offset, stored word and inner syndrome. The spec gives neither (log entry 153). -/
opaque memRow (unit off : Nat) : Nat
opaque memColumn (unit off word syndrome : Nat) : Nat

/-- The implementation section of a freeze dump (section TYPE 3, R496): its layout is not given
(log entry 4). -/
opaque dumpImpl : Nat → Bytes

end Sys2Proof.Config
end

