-- ==== Sys2Proof/Syntax.lean ====
section
/-!
DEFINITION. Syntax.lean: the commands and events that the block takes, one constructor per row of the table of
operations and events, with the operands that each needs. What the device reads from outside (a frame, a flit, host
memory, flash, a partner's message, a pin) is an operand of the command that reads it (log entry 3).
-/
namespace Sys2Proof

/-- A function: 0 the PF, 1 to 63 the VFs, 64 the management bridge and the cores' own accesses (R11, R499). -/
abbrev Fn := Fin 65
/-- An Ethernet port or SerDes lane. -/
abbrev Port := Fin 32
abbrev Lane := Fin 32
/-- A model slot. -/
abbrev Slot := Fin 256
/-- A logical sprig core. -/
abbrev CoreNo := Fin 64
/-- A DMA channel. -/
abbrev Chn := Fin 4096
/-- A gate, by aperture index (R420); a power domain (R423). -/
abbrev Gate := Fin 24
abbrev Dom := Fin 14

/-- A link that trains through the states of R62: the Stem link, a Trellis link, a Clasp link. -/
inductive LinkId where
  | stem
  | trl (k : Fin 4)
  | clp (k : Fin 2)
  deriving DecidableEq, Repr

/-- What a peer's PARAM flit holds (R62, R371): Trellis and Clasp: PART, group number, device ID, strap; Stem: window in units
of 10 ns in `group`, credit count in `id`, whether the version agrees in `strap`, number of lanes. -/
structure PeerParam where
  part : Nat
  group : Nat
  id : Nat
  strap : Bool
  lanes : Nat
  deriving DecidableEq, Repr

/-- Where a label comes from (R261): a tenant's label ring, or a Trellis member. -/
inductive LabelSrc where
  | ring (tenant : Nat)
  | member
  deriving DecidableEq, Repr

/-- What the firmware of a sprig core does beside the words of the control page that have commands of their own (R227, R229, R232,
R234): a load of `n` bytes, or a store, at an address of the core's map that the command gives; a read of `mtime`; a write of the timer
compare value; the machine timer interrupt; a task that firmware posts. -/
inductive CoreOp where
  | load (n : Nat)
  | store (bytes : Bytes)
  | mtime
  | timer (cmp : Nat)
  | irq
  | post (cls tenant slot epoch arg0 arg1 : Nat)
  deriving DecidableEq, Repr

/-- The content of a mirror delta (R389): entry index, the 128 bytes of the entry or its bytes 40 to 127, the side record,
change time; or a scale change of a tensor. -/
inductive Delta where
  | entry (idx : Nat) (bytes side : Bytes) (t : Nat)
  | state (idx : Nat) (bytes side : Bytes) (t : Nat)
  | scale (pipe slot tensor : Nat) (value : Int) (t : Nat)
  deriving DecidableEq, Repr

/-- What a JOIN compares (R392), and whether this device is the survivor. -/
structure JoinInfo where
  part : Nat
  mode : Nat
  bucketLog2 : Nat
  seed : Nat
  digest : Bytes
  ownMask : Nat
  draining : Bool
  epoch : Nat
  survivor : Bool
  deriving DecidableEq, Repr

/-- Straps latched at the release of SYS_RST_N (R473). -/
structure Straps where
  trlId : Nat
  trlMaster : Bool
  pairRole : Bool
  smbAddr : Nat
  bootHost : Bool
  deriving DecidableEq, Repr

/-- What may fail while a pass, a run or a job is computed: the unit of a SCHEDULE entry, by the entry's number (R177, R223); a lane of the
pipe's turn unit (R223); a tensor's record, which an error cannot be corrected in (R166). -/
inductive PassFault where
  | unit (k : Nat)
  | lane (l : Nat)
  | record (t : Nat)
  deriving DecidableEq, Repr

/-- The word of a write of an RWS register, and whether the write comes in the copy cycle of its boundary and is stalled (R285). -/
structure RwsData where
  word : Word
  stall : Bool
  deriving DecidableEq, Repr

/-- What the MAC reports of a frame: whether its FCS is right (R42), how many of its FEC codewords were corrected, and how many were
uncorrectable (R38). -/
structure FrameEnd where
  fcsOk : Bool
  corrected : Nat
  uncorrectable : Nat
  deriving DecidableEq, Repr

/-- A repair copy: of a column or a row, and whether an HBM stack had a spare row left (R329 to R331). -/
structure RepairCopy where
  col : Bool
  found : Bool
  deriving DecidableEq, Repr

/-- The arrival of a HANDOVER message (R378): whether no reserved ingress cycle of the pipe is free (R379), and the message. -/
structure HopArrival where
  full : Bool
  msg : Bytes
  deriving DecidableEq, Repr

/-- A sample of the rails (R437): the energy of each in that µs, and how many Stem and Ethernet lanes were idle in it (event 23 of R438). -/
structure RailEnergy where
  rails : List Nat
  idle : Nat
  deriving DecidableEq, Repr

/-- The commands. -/
inductive Instr where
  /-- REGISTER_WRITE (R5): A register write to a register that has no row of its own takes effect under the access
  code of its field. -/
  | registerWrite (fn : Fn) (addr : Nat) (data : Word)
  /-- RWS_WRITE (R286): A write to an RWS register lands whole in its shadow and sets the channel's _ARMED bit, or
  does not land when every RWS field keeps its value. -/
  | rwsWrite (fn : Fn) (addr : Nat) (data : RwsData)
  /-- RC_READ (R5): A read of an RC register returns its value and clears it in the same access. -/
  | rcRead (fn : Fn) (addr : Nat)
  /-- COUNTER_LOW_READ (R10): A read of a 64-bit counter's low half returns it and latches the high half for the
  reading function, clearing all 64 bits of an RC counter. -/
  | counterLowRead (fn : Fn) (addr : Nat)
  /-- COUNTER_HIGH_READ (R10): A read of a 64-bit counter's high half returns the value latched at the same
  function's last low-half read, or zero. -/
  | counterHighRead (fn : Fn) (addr : Nat)
  /-- GATED_BLOCK_ACCESS (R11): A register access to a block whose gate is not ON completes with a bus error and is
  logged in TOP_BUSERR_LOG. -/
  | gatedBlockAccess (fn : Fn) (addr : Nat) (wr : Option Word)
  /-- FRAME_RECEIVE (R41): A frame arrives at a port's MAC; it is time-stamped at its SFD, takes packet-buffer
  cells, or is discarded as a runt, oversize or PAUSE frame. -/
  | frameReceive (port : Port) (frame : Bytes) (mac : FrameEnd)
  /-- PFC_FRAME_RECEIVE (R309): A received PFC frame with a good FCS pauses, restarts or ends the pause of the
  egress queues of that port and priority. -/
  | pfcFrameReceive (port : Port) (enable : Nat) (quanta : List Nat) (fcsOk : Bool)
  /-- PFC_PAUSE_EXPIRE (R309): The pause time set by a PFC frame runs out and the paused queues become eligible
  again. -/
  | pfcPauseExpire (port : Port) (prio : Nat)
  /-- PFC_XOFF_REPEAT (R45): Every 10 µs while the pause condition holds, each pausing port repeats its XOFF. -/
  | pfcXoffRepeat
  /-- AUTO_NEGOTIATION (R39): Clause 73 auto-negotiation and link training end, bringing the port up or leaving it
  down with AN_FAIL set. -/
  | autoNegotiation (port : Port) (ok : Bool)
  /-- RECAL (R40): A write of 1 to PRT_LANE_CTL_k.RECAL starts a full recalibration of the lane in service. -/
  | recal (lane : Lane)
  /-- RECAL_DONE (R40): A lane's recalibration ends within 10 ms and RECAL_BUSY clears. -/
  | recalDone (lane : Lane) (ok : Bool)
  /-- LANE_FAIL (R40): A SerDes lane fails, takes its port down, sets LANE_FAIL and reports a LANE fault. -/
  | laneFail (lane : Lane)
  /-- PARSE_START (R74): A frame or Stem request enters stage 2 of its first pass once min(L, 512) bytes have
  arrived, takes a context and its epoch, and is parsed. -/
  | parseStart (unit : Nat)
  /-- FLOW_LOOKUP (R97): At its release time FLW serves a first-pass lookup in bank order: hit, learn, contest
  transition or unlearned miss. -/
  | flowLookup (unit : Nat)
  /-- WINDOW_ACCESS (R127): At a first pass's window time FEA applies its WIN reads and updates in bank order, and
  clears the KEY = 0 cells of a newly learned entry. -/
  | windowAccess (unit : Nat)
  /-- TURN_START (R211): At a packet's turn read time plus D the turn unit captures the old state and starts a
  granted or missed recurrent turn on a lane. -/
  | turnStart (unit : Nat) (fault : Option PassFault)
  /-- TURN_WRITE_LAND (R106): A granted turn's state write lands at BUSY + D, or is discarded if the entry was
  deleted since the grant. -/
  | turnWriteLand (unit : Nat)
  /-- INFERENCE_STAGE (R21): The scheduled inference of a pass runs on its engine and tile slots, with QNT
  conversions, adaptive scale changes and result delivery to VRD. -/
  | inferenceStage (unit : Nat) (fault : Option PassFault)
  /-- FCS_CHECK (R42): The MAC reports a frame's end and FCS result, which VRD uses for deferred checks and for
  dropping a failed frame. -/
  | fcsCheck (unit : Nat) (ok : Bool)
  /-- VERDICT_FORM (R292): At the VRD stage of a pass VRD forms the verdict record or sends the unit to another
  pass, then acts on the last pass's record. -/
  | verdictForm (unit : Nat) (full : Bool)
  /-- RECIRC_ENTRY (R18): A recirculating unit re-enters its pipe at stage 3 on a reserved ingress cycle for its
  next pass. -/
  | recircEntry (unit : Nat)
  /-- EGRESS_SELECT (R307): A port that can start a frame picks a queue through the four scheduler levels and sends
  its head packet whole. -/
  | egressSelect (port : Port)
  /-- SHAPING_INTERVAL_END (R301): At each multiple of 1,000 ns the policer, queue and node shadows are handed over
  and policer tokens clamped or filled. -/
  | shapingIntervalEnd
  /-- QUEUE_DEPTH_SAMPLE (R310): At each multiple of PERIOD µs every sampled queue adds its depth to DEPTH_SUM and 1
  to DEPTH_N. -/
  | queueDepthSample
  /-- QUEUE_SNAPSHOT (R311): A write to TMG_QS_SEL takes an atomic snapshot of the selected queue's record. -/
  | queueSnapshot (fn : Fn) (data : Word)
  /-- QUEUE_SNAPSHOT_CLEAR (R311): A write to TMG_QS_SEL with CLEAR takes the snapshot and zeroes the queue's record
  in the same cycle. -/
  | queueSnapshotClear (fn : Fn) (data : Word)
  /-- STEM_FLIT_RECEIVE (R49): A Stem flit slot yields a flit, which is checked, counted by SEQ and, for REQ flits,
  added to the open request. The operand is what the lanes carried in the slot, lane 0 first (R47). -/
  | stemFlitReceive (lanes : Option (List Nat))
  /-- STEM_REQUEST_DISPATCH (R54): A well-formed request leaves the STM FIFO for the next LOOKASIDE pipe at its
  first free ingress cycle, returning a credit, or is answered by STM with no pipe. -/
  | stemRequestDispatch
  /-- STEM_RESPONSE_SEND (R55): At the response position one window after a request's last flit, its RSP flit
  carries the verdict, or the default with LATE. -/
  | stemResponseSend
  /-- STEM_ASYNC_SEND (R58): A computed verdict for a LATE request is sent in an ASYNC flit in the next free slot
  and its context is released. -/
  | stemAsyncSend
  /-- STEM_ASYNC_TIMEOUT (R58): An asynchronous update not sent within TIMEOUT µs of its window is discarded and its
  context released. -/
  | stemAsyncTimeout
  /-- STEM_WINDOW_WRITE (R65): A write of STM_WIN_CFG.WINDOW lands in the shadow or is refused with WIN_REJ. -/
  | stemWindowWrite (fn : Fn) (data : Word)
  /-- STEM_WINDOW_HANDOVER (R64): At the first flit slot with no response position reserved the new window takes
  effect and a NOTICE is sent. -/
  | stemWindowHandover
  /-- LINK_ENABLE (R62): A link's ENABLE is written 1 with signal detected, and the link enters PHY_TRAIN. -/
  | linkEnable (link : LinkId)
  /-- LINK_DISABLE (R62): A link's ENABLE is written 0; the link goes to DOWN and its outstanding work is discarded.
  -/
  | linkDisable (link : LinkId)
  /-- FEC_LOCK (R62): FEC locks on all lanes or on one 8-lane group and the link enters ALIGN. -/
  | fecLock (link : LinkId) (lanes : Nat)
  /-- LANE_ALIGN (R62): Lanes are deskewed and the flit boundary found, and the link enters PARAM. -/
  | laneAlign (link : LinkId)
  /-- PARAM_EXCHANGE (R62): PARAM flits agree and the link becomes ACTIVE, or disagree and it returns to DOWN with
  PARAM_FAIL or ID_CLASH. -/
  | paramExchange (link : LinkId) (peer : PeerParam)
  /-- TRAINING_TIMEOUT (R62): A training state exceeds 10 ms and the link returns to DOWN with TRAIN_TIMEOUT. -/
  | trainingTimeout (link : LinkId)
  /-- LOSS_OF_LOCK (R62): An active lane loses lock, or the CRC threshold is reached, and the link enters RETRAIN.
  -/
  | lossOfLock (link : LinkId)
  /-- RETRAIN (R62): A write of 1 to a link's RETRAIN takes the link from ACTIVE to RETRAIN. -/
  | retrain (link : LinkId)
  /-- RETRAIN_CLEARED (R63): A retraining link's outstanding work has cleared and it enters PHY_TRAIN. -/
  | retrainCleared (link : LinkId)
  /-- AGING_SCAN_VISIT (R103): The aging scanner visits a bucket or overflow group, deletes entries past their
  timeout and clears RECENT. -/
  | agingScanVisit
  /-- CMD_READ (R111): FLW command READ copies an entry into FLW_CMD_DATA as one snapshot. -/
  | cmdRead (core : Bool) (data : Word)
  /-- CMD_INSERT (R111): FLW command INSERT places and sets an entry as a learn with software fields. -/
  | cmdInsert (core : Bool) (data : Word)
  /-- CMD_DELETE (R111): FLW command DELETE frees an entry and logs DELETE. -/
  | cmdDelete (core : Bool) (data : Word)
  /-- CMD_CLEAR_CONTEST (R111): FLW command CLEAR_CONTEST returns an entry in CONTEST, PINNED or CPU to NONE. -/
  | cmdClearContest (core : Bool) (data : Word)
  /-- CMD_ZERO_STATE (R111): FLW command ZERO_STATE zeroes an entry's recurrent state and ownership and discards a
  pending write. -/
  | cmdZeroState (core : Bool) (data : Word)
  /-- CMD_CLEAR_BUCKET (R111): FLW command CLEAR_BUCKET frees all four ways of a bucket and clears UE_HOLD. -/
  | cmdClearBucket (core : Bool) (data : Word)
  /-- SHADOW_WALK_VISIT (R114): The shadow walker compares a bucket's or group's digest with the host shadow,
  skipping stale ones and logging mismatches. -/
  | shadowWalkVisit (host : Option Bytes)
  /-- SHADOW_SNAP (R115): A write of 1 to FLW_SHADOW_CTL.SNAP writes the device digests and current SEQ into the
  shadow. -/
  | shadowSnap
  /-- TB_STEP_WRITE (R140): A write to CLK_TB_STEP_HI arms a positive step or adds a negative step to the remaining
  slew. -/
  | tbStepWrite (hi : Word)
  /-- TB_STEP_APPLY (R140): An armed forward step is added to the time base at the next super-cycle boundary. -/
  | tbStepApply
  /-- TB_SLEW_WRITE (R140): A write to CLK_TB_SLEW adds its signed value to the remaining slew. -/
  | tbSlewWrite (ns : Word)
  /-- PPS_EDGE (R141): A rising edge on the PPS GPIO captures the time base and sets PPS_VALID. -/
  | ppsEdge (gpio : Nat)
  /-- QNT_HOLD (R163): A write to QNT_HOLD holds or releases adaptation of one tensor of a slot, or is refused. -/
  | qntHold (fn : Fn) (data : Word)
  /-- QNT_SNAPSHOT (R167): A write to QNT_SEL takes an atomic snapshot of the selected tensor record. -/
  | qntSnapshot (fn : Fn) (data : Word)
  /-- QNT_SNAPSHOT_CLEAR (R167): A write to QNT_SEL with CLEAR takes the snapshot and zeroes the record's counts in
  the same cycle. -/
  | qntSnapshotClear (fn : Fn) (data : Word)
  /-- LABEL_INTAKE (R262): A label arrives from a label ring or a Trellis member and is accepted into the label
  queue or rejected. -/
  | labelIntake (src : LabelSrc) (raw : Bytes)
  /-- LABEL_APPLY (R190): A queued label is matched to its leaf-path or head record and its gradient and Hessian
  sums are added to the active bank. -/
  | labelApply
  /-- LEAF_PATH_EXPIRE (R188): An outstanding leaf-path or head record reaches its horizon and expires. -/
  | leafPathExpire
  /-- ESP_REFIT_SWAP (R191): SWAP in ESP_REFIT_CTL exchanges a slot's accumulator banks between labels. -/
  | espRefitSwap (fn : Fn) (slot : Slot)
  /-- ESP_REFIT_CLEAR (R191): CLEAR in ESP_REFIT_CTL zeroes a slot's frozen bank. -/
  | espRefitClear (fn : Fn) (slot : Slot)
  /-- ESP_REFIT_DONE (R191): A SWAP or CLEAR of espalier banks completes and BUSY clears. -/
  | espRefitDone
  /-- HRF_SWAP (R221): SWAP in MXT_HRF_CTL exchanges a slot's head-refit banks. -/
  | hrfSwap (fn : Fn) (slot : Slot)
  /-- HRF_CLEAR (R221): CLEAR in MXT_HRF_CTL zeroes a slot's frozen head-refit bank. -/
  | hrfClear (fn : Fn) (slot : Slot)
  /-- HRF_DONE (R221): A SWAP or CLEAR of head-refit banks completes and BUSY clears. -/
  | hrfDone
  /-- FLOW_RUN_START (R257): A queued flow-model run leaves the run queue and takes a context, or is discarded for
  lack of one. -/
  | flowRunStart
  /-- FLOW_RUN_COMPLETE (R259): A flow-model run completes and writes the entry's verdict cache in bank order, or
  the write is discarded. -/
  | flowRunComplete (fault : Option PassFault)
  /-- SLOT_ASSIGN (R249): The PF writes OWNER and ASSIGNED of an EMPTY slot, subject to the tenant's SLOT_MAX. -/
  | slotAssign (slot : Slot) (data : Word)
  /-- REFIT_INTERVAL (R263): At each INTERVAL of a slot's refit policy the device posts a refit task and swaps
  banks, or retries a pending commit. -/
  | refitInterval (slot : Slot)
  /-- REFIT_COMMIT (R263): COMMIT in CFG_REFIT_CTL queues a commit graft for a HELD shadow. -/
  | refitCommit (fn : Fn) (slot : Slot)
  /-- REFIT_DISCARD (R263): DISCARD in CFG_REFIT_CTL drops a HELD or READY shadow and returns the policy to IDLE. -/
  | refitDiscard (fn : Fn) (slot : Slot)
  /-- TASK_DISPATCH (R228): The dispatcher gives a queued task to an idle eligible core, in post order for an
  ordered class. -/
  | taskDispatch (cls : Nat) (core : CoreNo)
  /-- PF_TASK_POST (R227): The PF's write of SPR_TASK_POST_7 posts a task, or is refused as full or as a bad class.
  -/
  | pfTaskPost (data : Word)
  /-- TASK_POP (R235): A core's load of TASK_POP claims the next task given to it, or returns its claimed task
  again. -/
  | taskPop (core : CoreNo)
  /-- TASK_DONE (R235): A core's store to TASK_DONE ends its claimed task with a status. -/
  | taskDone (core : CoreNo) (status : Nat) (score : Nat) (win : Nat)
  /-- TASK_WATCHDOG (R236): A task claimed for longer than SPR_WDOG.LIMIT ends with TIMEOUT and its core is reset to
  its entry point. -/
  | taskWatchdog (core : CoreNo)
  /-- MBOX_IN (R234): A core's load of MBOX_IN takes the PF's message and frees the slot. -/
  | mboxIn (core : CoreNo)
  /-- MBOX_OUT (R234): A core's store to MBOX_OUT sends a message to the PF and may raise its interrupt, or sets
  OVF. -/
  | mboxOut (core : CoreNo) (msg : Nat)
  /-- DOORBELL_DMA_CHANNEL (R234): A core's DOORBELL store with target 0 rings a DMA channel. -/
  | doorbellDmaChannel (core : CoreNo) (ch : Chn) (tail : Nat)
  /-- DOORBELL_REFIT_READY (R263): A core's DOORBELL store with target 1 reports a refit shadow ready with CHANGED
  to the slot's refit policy. -/
  | doorbellRefitReady (core : CoreNo) (slot : Slot) (changed : Nat)
  /-- REGISTER_WINDOW_ACCESS (R232): A core's access to the register window reaches an allowed aperture, or raises
  an access fault. The row also carries the other accesses of a core to its address map, and its timer and its posts, which name no
  address. -/
  | registerWindowAccess (core : CoreNo) (addr : Nat) (op : CoreOp)
  /-- H2C_DELIVER (R234): The PF's write of a mailbox HI word delivers a message to a core, or is ignored while
  full. -/
  | h2cDeliver (core : CoreNo) (hi : Word)
  /-- C2H_FREE (R234): The PF's read of a C2H mailbox HI word frees the slot. -/
  | c2hFree (core : CoreNo)
  /-- CORE_DRAIN (R239): DRAIN written 1 stops a running core taking new tasks. -/
  | coreDrain (core : CoreNo)
  /-- CORE_START (R239): START written 1 resets a DRAINED core with an image to its entry point and puts it in RUN.
  -/
  | coreStart (core : CoreNo)
  /-- CORE_FAULT (R240): A core suffers an uncorrectable error or lockup, enters FAULT and is reported to FLT. -/
  | coreFault (core : CoreNo)
  /-- FW_LOAD (R238): GO in SPR_FW_CTL starts a firmware load into the named DRAINED cores. -/
  | fwLoad
  /-- FW_LOAD_DONE (R238): A firmware load ends with a status code, copying the image into the cores when it passed.
  -/
  | fwLoadDone
  /-- EXCEPTION_RECORD (R358): An EXCEPTION task writes an exception record into the tenant's oldest posted EXCEPT
  buffer, or counts EXC_NOBUF. -/
  | exceptionRecord (core : CoreNo)
  /-- GRAFT_SUBMIT (R269): A write of GO to GRF_SUBMIT queues the port's graft, or is ignored. -/
  | graftSubmit (fn : Fn) (data : Word)
  /-- GRAFT_STAGE_START (R269): GRF takes the next queued graft and begins staging its items in list order. -/
  | graftStageStart (list : Bytes)
  /-- GRAFT_STAGE_DONE (R270): Staging of a graft ends, reaching READY or failing with a status and report. -/
  | graftStageDone
  /-- GRAFT_COMMIT (R273): A READY graft commits at a boundary, beginning a new epoch and making the old one
  DRAINING. -/
  | graftCommit
  /-- EPOCH_RETIRE (R276): A draining epoch's pin count reaches zero; it retires and its resources are freed. -/
  | epochRetire (x : Nat)
  /-- EPOCH_EXPIRE (R278): A draining epoch's drain timer ends with pins held; its units end with the expiry verdict
  and it retires. -/
  | epochExpire (x : Nat)
  /-- GROUP_PREPARE (R283): A participant receives a group graft's list and payloads, stages them and replies READY
  or its code. -/
  | groupPrepare (tag : Nat) (list : Bytes) (payloads : List Bytes)
  /-- GROUP_REPLY (R283): The coordinator receives a participant's prepare reply and, when all are READY, sends
  COMMIT with a commit time. -/
  | groupReply (member : Nat) (status : Nat)
  /-- GROUP_PREPARE_TIMEOUT (R283): PREP_TMO passes without every reply and the coordinator sends ABORT, giving
  PARTNER_ABORT. -/
  | groupPrepareTimeout
  /-- GROUP_COMMIT (R283): A participant receives COMMIT and commits at its first boundary at or after the commit
  time. -/
  | groupCommit (tc : Nat)
  /-- GROUP_ABORT (R283): A participant receives ABORT and releases its staging. -/
  | groupAbort
  /-- GROUP_COMMIT_TIMEOUT (R284): A READY participant gets neither COMMIT nor ABORT within COMMIT_TMO, releases its
  staging and sets SPLIT. -/
  | groupCommitTimeout
  /-- GROUP_ACK_TIMEOUT (R284): The coordinator lacks a participant's commit acknowledgement by the commit time plus
  COMMIT_TMO and sets SPLIT. -/
  | groupAckTimeout
  /-- BAR2_READ (R318): A PF BAR2 read returns device memory, a poisoned TLP, or a completer abort for an unmapped
  or unavailable address. -/
  | bar2Read (off : Nat) (len : Nat)
  /-- BAR2_WRITE (R318): A PF BAR2 write updates device memory, or is discarded and logged. -/
  | bar2Write (off : Nat) (bytes : Bytes)
  /-- SCRUB_VISIT (R328): A scrubber reads the next block of its die or stack under the correction rules. -/
  | scrubVisit (unit : Nat)
  /-- REPAIR_COPY_DONE (R329): A repair copy finishes and the spare replaces the row or column. -/
  | repairCopyDone (unit : Nat) (copy : RepairCopy)
  /-- UNIT_LOST (R332): A die or stack fails to respond for 1 µs or yields too many uncorrectable codewords and is
  declared lost. -/
  | unitLost (unit : Nat)
  /-- SRAM_INIT (R334): The SRAM dies have been zeroed with valid codes after the first MEM gate ON and SRAM_INIT
  sets. -/
  | sramInit
  /-- HBM_INIT (R334): The HBM stacks have been trained and zeroed and HBM_INIT sets, or a failing stack is lost. -/
  | hbmInit (failed : Nat)
  /-- ERROR_INJECT_ARM (R337): ARM in MEM_INJ_CTL arms a bit-flip injection into the next write to the target block.
  -/
  | errorInjectArm (data : Word)
  /-- CHANNEL_ENABLE (R351): ENABLE written 1 takes an IDLE DMA channel to RUN with HEAD = TAIL = 0. -/
  | channelEnable (ch : Chn)
  /-- CHANNEL_DISABLE (R351): ENABLE written 0 takes a DMA channel to IDLE, abandoning in-flight descriptors. -/
  | channelDisable (ch : Chn)
  /-- CHANNEL_RESUME (R351): RESUME written 1 returns a HALTED or PAUSED channel to RUN. -/
  | channelResume (ch : Chn)
  /-- CHANNEL_RESET (R351): RESET written 1 takes a channel to IDLE at once, abandoning in-flight descriptors. -/
  | channelReset (ch : Chn)
  /-- TAIL_DOORBELL (R347): A write to DMA_CH_TAIL hands the slots up to the new TAIL to the device. -/
  | tailDoorbell (fn : Fn) (ch : Chn) (tail : Nat)
  /-- DESCRIPTOR_FETCH (R346): The engine fetches a descriptor from the ring, or halts the channel when the fetch
  fails after retries. -/
  | descriptorFetch (ch : Chn) (host : Option Bytes)
  /-- NOP (R352): A NOP descriptor moves no data and completes OK. -/
  | nop (ch : Chn)
  /-- COPY (R352): A COPY descriptor moves LEN bytes from SRC to DST. -/
  | copy (ch : Chn) (src : Option Bytes) (preempt : Nat)
  /-- GATHER (R353): A GATHER descriptor copies indexed elements from the source array to DST. -/
  | gather (ch : Chn) (src : Option Bytes) (aux : Option Bytes) (preempt : Nat)
  /-- PACK (R354): A PACK descriptor converts source elements into a packed destination of narrower or wider width.
  -/
  | pack (ch : Chn) (src : Option Bytes) (preempt : Nat)
  /-- TRANSPOSE (R355): A TRANSPOSE descriptor turns feature records into replay blocks once a block buffer is free.
  -/
  | transpose (ch : Chn) (src : Option Bytes) (preempt : Nat)
  /-- JOB (R356): A JOB descriptor runs one inference on a supplied feature record and writes its result. -/
  | job (ch : Chn) (src : Option Bytes) (fault : Option PassFault)
  /-- REPLAY (R357): A REPLAY descriptor scores replay blocks against a slot's ensemble. -/
  | replay (ch : Chn) (src : Option Bytes)
  /-- LABEL (R357): A LABEL descriptor delivers its array of labels to label intake. -/
  | label (ch : Chn) (src : Option Bytes)
  /-- EXCEPT (R357): An EXCEPT descriptor posts an empty buffer to the tenant's exception ring. -/
  | except (ch : Chn)
  /-- DESCRIPTOR_COMPLETE (R349): A descriptor completes with a status written in ring order, advancing HEAD,
  possibly halting the channel or raising its vector. -/
  | descriptorComplete (ch : Chn)
  /-- BUS_RETRY (R359): After DELAY µs a failed host read is retried, or gives BUS_ERR when retries are spent. -/
  | busRetry (ch : Chn) (ok : Bool)
  /-- FLR (R343): A function-level reset stops the function's requests, returns its channels to IDLE and resets its
  registers and graft port. -/
  | flr (fn : Fn)
  /-- LINK_FLIT_RECEIVE (R369): A Trellis or Clasp link receives a flit, accepts it in sequence, or discards it and
  answers with a NAK that triggers replay. -/
  | linkFlitReceive (link : LinkId) (lanes : Option (List Nat))
  /-- HELLO_SEND (R373): Every 1 µs a member sends a HELLO on each ACTIVE Trellis link. -/
  | helloSend
  /-- HELLO_RECEIVE (R373): A HELLO arrives; the sender is marked live, the HELLO forwarded, and isolation or rejoin
  decided. -/
  | helloReceive (link : LinkId) (id : Nat) (eligible : Bool) (epoch : Nat) (live : Nat)
  /-- MEMBER_TIMEOUT (R373): No HELLO from a member for 5 µs makes it not live and invalidates its steering entries.
  -/
  | memberTimeout (id : Nat)
  /-- MASTER_SETTLE (R374): The computed master has stood unchanged for 10 µs and MASTER_VALID becomes 1, releasing
  held claims. -/
  | masterSettle
  /-- TIME_EXCHANGE (R375): Every 100 µs a non-master member sends a TIME request to the master. -/
  | timeExchange
  /-- TIME_REPLY (R375): A TIME reply arrives and the member computes its time-base offset to the master. -/
  | timeReply (t2 : Nat) (t3 : Nat)
  /-- HANDOVER_RECEIVE (R378): A HANDOVER message is admitted into a pipe as a DEEPEN or STEER pass, or answered
  with a default RESULT. -/
  | handoverReceive (link : LinkId) (handle : Nat) (peer : Nat) (hop : HopArrival)
  /-- RESULT_RECEIVE (R379): A RESULT message returns margins or a verdict for a handed-over unit, or is discarded
  as stale. -/
  | resultReceive (handle : Nat) (msg : Bytes)
  /-- STEER_CLAIM_RECEIVE (R381): The master applies a steering claim, recording the owner and sending a set
  message, or replying with the recorded owner. -/
  | steerClaimReceive (peer : Nat) (entry : Nat)
  /-- STEER_SET_RECEIVE (R381): A member applies a steering set or owner reply and clears PROVISIONAL. -/
  | steerSetReceive (entry : Nat) (owner : Nat)
  /-- STEER_ENTRY_SNAPSHOT (R382): A write to TRL_STEER_SEL takes a snapshot of a steering entry. -/
  | steerEntrySnapshot (data : Word)
  /-- FLOOD_RECEIVE (R383): A FLOOD message is looked up in bank order, refreshing a hit entry's LAST_SEEN, PKTS and
  BYTES. -/
  | floodReceive (peer : Nat) (msg : Bytes)
  /-- LABEL_FORWARD_RECEIVE (R384): A forwarded LABEL message is applied to the member's own records. -/
  | labelForwardReceive (raw : Bytes)
  /-- HEARTBEAT_SEND (R388): Every 1 µs a device sends a HEARTBEAT on both Clasp links. -/
  | heartbeatSend
  /-- HEARTBEAT_RECEIVE (R388): A HEARTBEAT arrives, and one reporting HOLD, HANDOVER, SKELETON or FAILED marks the
  partner lost at once. -/
  | heartbeatReceive (role : Nat) (fltState : Nat) (epoch : Nat)
  /-- PARTNER_TIMEOUT (R388): No HEARTBEAT for 5 µs marks the partner lost and starts takeover when AUTO = 1. -/
  | partnerTimeout
  /-- TAKEOVER (R391): A write of CLP_CTL.TAKEOVER after PARTNER_LOST starts a takeover. -/
  | takeover
  /-- TAKEOVER_DONE (R391): The survivor has applied received deltas and settled grafts, becomes ACTIVE and ALONE
  and owns every flow group. -/
  | takeoverDone
  /-- MIRROR_DELTA_SEND (R389): A device sends an ENTRY or STATE delta for a change to an entry it owns. -/
  | mirrorDeltaSend
  /-- MIRROR_DELTA_APPLY (R389): A received delta is applied as a command in bank order at the same entry index. -/
  | mirrorDeltaApply (delta : Delta)
  /-- CHAIN_HEAD_RECEIVE (R455): A MIRROR message carrying a partner's Signet chain head is kept as the latest head.
  -/
  | chainHeadReceive (boot : Nat) (resets : Nat) (interval : Nat) (tenant : Nat) (chain : Nat) (count : Nat) (val : Bytes)
  /-- JOIN (R392): JOIN written on the survivor pairs the devices or fails with JOIN_FAIL. -/
  | join (partner : JoinInfo)
  /-- JOIN_BOUNDARY (R392): At the boundary after JOIN the joining device takes the survivor's epoch, clears its
  flow table, and both enter SYNC. -/
  | joinBoundary
  /-- SYNC_SWEEP_VISIT (R392): The survivor sends the valid entries of a bucket or group as ENTRY deltas, ending in
  PAIRED after the last. -/
  | syncSweepVisit
  /-- FAULT_DETECT (R397): A detector reports a fault to FLT, which logs it and remaps, removes, degrades, holds or
  fails. -/
  | faultDetect (cls : Nat) (unit : Nat)
  /-- FLT_INJECT (R397): GO in FLT_INJ injects a fault of the named class and unit. -/
  | fltInject (data : Word)
  /-- REMAP_COPY_DONE (R403): FLT's remap graft has staged the new map and reload copies and is ready to commit. -/
  | remapCopyDone
  /-- HOLD_EXIT (R404): Within 1 µs of entering HOLD for a cause other than THERMAL, FLT moves to HANDOVER, SKELETON
  or FAILED. -/
  | holdExit
  /-- RELEASE (R404): FLT_CTL.RELEASE ends a thermal HOLD once the trip is no longer reported. -/
  | release
  /-- DVFS_TARGET_WRITE (R417): A write of CLK_DVFS_CTL_d.TARGET requests an operating point, or is refused below
  FLOOR. -/
  | dvfsTargetWrite (dom : Nat) (data : Word)
  /-- DVFS_STEP_DONE (R417): A one-point DVFS step completes and the sequencer starts the next toward TARGET. -/
  | dvfsStepDone (dom : Nat)
  /-- GATE_REQUEST (R420): A write of TOP_GATE_EN requests a block's gate ON or OFF. -/
  | gateRequest (upper : Bool) (data : Word)
  /-- GATE_ON_DONE (R420): A pending gate's domain is ON, clocks start at a boundary and the block reset elapses,
  and the gate reads ON. -/
  | gateOnDone (gate : Gate)
  /-- GATE_OFF_DONE (R420): A pending gate's ports and own conditions are idle and its clocks stop at the next
  boundary. -/
  | gateOffDone (gate : Gate)
  /-- GATE_FORCED_OFF (R420): 1,024 CLK_CTL cycles pass in PENDING_OFF and the gate goes OFF, failing outstanding
  accesses. -/
  | gateForcedOff (gate : Gate)
  /-- DOMAIN_REQUEST (R424): A write of PWR_DOM_REQ requests a domain power-down or power-up, or is refused. -/
  | domainRequest (data : Word)
  /-- DOMAIN_OFF_DONE (R424): Every gate and channel of a pending domain is off or paused, and its power switches
  open. -/
  | domainOffDone (dom : Dom)
  /-- DOMAIN_ON_DONE (R425): A domain's power-up time elapses and it reads ON with its blocks' registers at reset
  values. -/
  | domainOnDone (dom : Dom)
  /-- SOURCE_SELECT (R428): A write of CLK_SRC_CTL.SEL switches the root source at the next boundary, or is refused
  or ignored. -/
  | sourceSelect (data : Word)
  /-- PLL_LOCK (R428): The root PLL reports lock after a source switch and CLK_SW_STAT reads DONE. -/
  | pllLock
  /-- FALLBACK_READY (R429): The fallback oscillator has started and FB_READY sets. -/
  | fallbackReady
  /-- REF_READY (R429): The reference has run for 10 ms without a trip and REF_READY sets. -/
  | refReady
  /-- MONITOR_TRIP (R430): The current source shows a 200 ns edge gap or the PLL loses lock, and a clock hold
  starts. -/
  | monitorTrip (pll : Bool)
  /-- SOURCE_COMPARE (R430): At the end of a 100 µs window the monitor compares the sources and sets DISAGREE beyond
  TOL. -/
  | sourceCompare (far : Nat)
  /-- HOLD_RESTART (R431): The new source is ready and locked within 2 ms of a trip, and the stopped domains restart
  at a boundary. -/
  | holdRestart
  /-- HOLD_FATAL (R431): A clock hold's 2 ms wait expires, FATAL sets and FLT receives a CLOCK fault. -/
  | holdFatal
  /-- SD_REF_LOST (R433): The SerDes reference is lost; every lane loses lock and SD_REF_LOST sets. -/
  | sdRefLost
  /-- THERMAL_SAMPLE (R434): Every 10 µs the sensors are sampled, setting WARN, tripping thermally or ending a trip.
  -/
  | thermalSample (temps : List Nat)
  /-- RAIL_SAMPLE (R437): Once per µs each rail's voltage and current are sampled and its energy accumulated. -/
  | railSample (energy : RailEnergy)
  /-- SIGNET_INTERVAL_END (R446): An interval ends; Signet reconciles energy, sets K and σ, advances chains and
  forms a batch. -/
  | signetIntervalEnd
  /-- BATCH_WRITE (R452): A signed batch is written into the ledger ring within 200 µs of its interval end, or lost.
  -/
  | batchWrite
  /-- CAL_LOAD (R440): CAL_LOAD in SGN_CTL starts reading and checking the calibration table at SGN_CAL_ADDR. -/
  | calLoad
  /-- CAL_LOAD_DONE (R440): A calibration table check ends with a status, and a passing table waits for the next
  interval boundary. -/
  | calLoadDone
  /-- SYS_RST_ASSERT (R473): SYS_RST_N falls or a rail falls while it is high, resetting every block but the AON
  domain. -/
  | sysRstAssert (rail : Bool)
  /-- SYS_RST_RELEASE (R473): SYS_RST_N rises; straps are latched, the clock source chosen, domains powered up and
  the base load begins. -/
  | sysRstRelease (straps : Straps)
  /-- AON_RESET (R516): VDD_AON rises or falls below 0.72 V for 1 µs and the AON domain resets as at power-up. -/
  | aonReset
  /-- PERST_ASSERT (R474): PERST_N low resets HIF, the PCIe link and every function's configuration space, acting as
  an FLR of every function. -/
  | perstAssert
  /-- CRS_END (R474): 20 ms after PERST_N and SYS_RST_N release HIF stops answering configuration requests with CRS;
  the host sets its configuration space (R340, R342). -/
  | crsEnd
  /-- CFG_LOAD (R475): LOAD in CFG_LOAD_CTL starts a base-image load from the named source, or is ignored outside
  PRELOAD. -/
  | cfgLoad (data : Word)
  /-- IMAGE_CHECK_DONE (R463): A base image has been read and checked; it is installed, or the load tries image B or
  returns to PRELOAD. -/
  | imageCheckDone (img : Option Bytes)
  /-- EPOCH_ZERO (R477): At the boundary after installation epoch 0 becomes current, STATE reads READY and the
  MODELS graft is queued. -/
  | epochZero
  /-- WRITE_ROOT (R479): Provisioning WRITE_ROOT programs a root slot hash, or is refused. -/
  | writeRoot (slot : Nat)
  /-- REVOKE_ROOT (R479): Provisioning REVOKE_ROOT revokes a root slot, or is refused. -/
  | revokeRoot (slot : Nat)
  /-- WRITE_IMG_KEY (R479): Provisioning WRITE_IMG_KEY programs the image key, or is refused. -/
  | writeImgKey
  /-- RAISE_SVN (R479): Provisioning RAISE_SVN raises the fused security version, or is refused. -/
  | raiseSvn (val : Nat)
  /-- FUSE_PROGRAM_DONE (R479): Fuse programming ends and SEC_PROV_STAT reports its result. -/
  | fuseProgramDone (ok : Bool)
  /-- WATCHDOG_FIRE (R485): A Loupe watchdog's condition holds for LIMIT µs; HANG sets and a hang snapshot starts,
  or the firing is counted as lost. -/
  | watchdogFire (idx : Nat)
  /-- SNAPSHOT_DONE (R487): A hang snapshot has been written or skipped, HANG_N is asserted and a freeze may follow.
  -/
  | snapshotDone
  /-- COUNTER_SAMPLE (R484): At each multiple of PERIOD µs the listed counters are sampled and the record written
  within the observation budget. -/
  | counterSample
  /-- FREEZE_PIN (R489): A falling edge on FREEZE_N triggers a freeze. -/
  | freezePin
  /-- FREEZE (R489): FREEZE written in LPE_FREEZE triggers a freeze. -/
  | freeze
  /-- FREEZE_CUT (R490): At the boundary after a freeze trigger every functional clock stops and STATE becomes
  FROZEN. -/
  | freezeCut
  /-- DUMP_READY (R496): The dump has been assembled after entry to FROZEN and DUMP_READY sets. -/
  | dumpReady
  /-- MEM_OPEN (R494): MEM_OPEN written 1 restarts the fabric and MEM clocks of a frozen device for BAR2 access. -/
  | memOpen
  /-- RESUME (R493): RESUME written 1 with FREEZE_N high moves the freeze to RESUMING, or sets REJ. -/
  | resume (pinHigh : Bool)
  /-- RESUME_BOUNDARY (R495): At the boundary after RESUME the domains restart, interrupted work ends and pending
  timers apply. -/
  | resumeBoundary
  /-- DUMP_READ (R497): A read of LPE_DUMP_DATA returns the next 4 dump bytes and advances the shared pointer. -/
  | dumpRead (fn : Fn)
  /-- DUMP_START (R497): START in LPE_DUMP_CTL sets the dump read pointer to 0. -/
  | dumpStart
  /-- IDCODE (R498): JTAG instruction IDCODE captures TOP_ID. -/
  | idcode
  /-- SAMPLE_PRELOAD (R498): JTAG instruction SAMPLE/PRELOAD captures and loads the boundary register. -/
  | samplePreload (pins : Nat) (dr : Nat)
  /-- EXTEST (R498): JTAG instruction EXTEST drives the balls from the boundary register while SYS_RST_N is low. -/
  | extest (pins : Nat)
  /-- LPE_STAT (R498): JTAG instruction LPE_STAT captures LPE_FREEZE_STAT. -/
  | lpeStat
  /-- LPE_FREEZE (R498): JTAG instruction LPE_FREEZE acts at Update-DR as a write of LPE_FREEZE. -/
  | lpeFreeze (bits : Nat)
  /-- LPE_REG (R499): JTAG instruction LPE_REG starts a register access as function 64 and captures its result. -/
  | lpeReg (dr : Nat)
  /-- LPE_DUMP (R498): JTAG instruction LPE_DUMP reads LPE_DUMP_DATA at each Capture-DR. -/
  | lpeDump
  /-- BYPASS (R498): JTAG instruction BYPASS, or any other or locked value, selects the 1-bit bypass register. -/
  | bypass (ir : Nat)
  /-- BLOCK_WRITE_ADDR (R500): SMBus command Block Write ADDR sets the BAR0 offset for later accesses. -/
  | blockWriteAddr (addr : Word)
  /-- BLOCK_WRITE_DATA (R500): SMBus command Block Write DATA writes 4 bytes to ADDR as function 64. -/
  | blockWriteData (data : Word)
  /-- BLOCK_READ_DATA (R500): SMBus command Block Read DATA reads 4 bytes from ADDR as function 64. -/
  | blockReadData
  /-- READ_BYTE_STATUS (R500): SMBus command Read Byte STATUS returns the status of the latest access. -/
  | readByteStatus
  /-- SIGNAL_DETECT (R62): Signal becomes detected on the lanes of a link whose ENABLE is already 1, and the link
  leaves DOWN for PHY_TRAIN. -/
  | signalDetect (link : LinkId) (lanes : Nat)
  /-- PORT_LINK_UP (R39): An Ethernet port on a C2C type, or with AN_EN clear, comes up with FEC aligned and LINK_UP
  set. -/
  | portLinkUp (port : Port)
  /-- TIME_REQUEST_RECEIVE (R375): The master receives a member's TIME request, stamps its receipt t2 and sends a
  reply stamped t3. -/
  | timeRequestReceive (peer : Nat) (t1 : Nat)
  /-- COMMIT_ACK_RECEIVE (R284): The coordinator receives a participant's commit acknowledgement and, when every
  participant has committed, the group graft reads DONE or DRAINING. -/
  | commitAckReceive (member : Nat)
  /-- PERST_RELEASE (R474): PERST_N rises; HIF leaves reset and answers configuration requests with Configuration
  Request Retry Status. -/
  | perstRelease
  deriving DecidableEq, Repr

end Sys2Proof
end

