-- ==== Sys2Proof/Machine/State.lean ====
section
/-!
DEFINITION. State.lean: everything the spec gives the device, as plain data, and the machine right after reset.
-/
namespace Sys2Proof.Machine

/-- Sparse plain data by a numeric key: keys strictly rising (the form is kept by `Ops.put`). -/
abbrev Map (α : Type) := List (Nat × α)

/-- The access codes of R5. -/
inductive Acc where
  | ro | rw | wo | w1c | rc | rws
  deriving DecidableEq, Repr

/-- What values a field takes from a write (R9 and the ranges of the register tables). A refused value leaves
the field unchanged. -/
inductive Rng where
  /-- Every value. -/
  | any
  /-- `lo` to `hi`. -/
  | range (lo hi : Nat)
  /-- 0, or `lo` to `hi`. -/
  | zeroOr (lo hi : Nat)
  /-- Two's complement, `lo` to `hi`. -/
  | signed (lo hi : Int)
  /-- Every value but 0. -/
  | nonzero
  /-- Every value; the low `k` bits are ignored (an aligned address). -/
  | low (k : Nat)
  /-- A malformed-action code of R87. -/
  | malAct
  /-- A channel owner of `DMA_CH_OWNER_c`: 0 to 64, or 127. -/
  | owner
  deriving DecidableEq, Repr

/-- One field of the register file: its key (byte address times 32 plus its lowest bit), its width, its reset value. -/
structure Fld where
  key : Nat
  w   : Nat
  rst : Nat
  deriving DecidableEq, Repr

/-- The field at bit `lo` of the register at `addr`. -/
def Fld.at (addr lo w rst : Nat) : Fld := ⟨addr * 32 + lo, w, rst⟩

/-- One row of a register table (Bits, Access, Reset, and what a write may place). -/
structure RFld where
  lo  : Nat
  w   : Nat
  acc : Acc
  rst : Nat
  ok  : Rng
  deriving DecidableEq, Repr

/-- One register (or register array): its name, the address of element 0, its strides and counts, its fields. -/
structure Row where
  name : String
  base : Nat
  dims : List (Nat × Nat)
  flds : List RFld
  deriving DecidableEq, Repr

/-- The four states of a gate (R420) and of a power domain (R425), with their encodings 0 to 3. -/
inductive GateSt where
  | off | on | pendOff | pendOn
  deriving DecidableEq, Repr

/-- The link states of `STM_STAT.STATE` (R62), used by the Trellis and Clasp links too (R371). -/
inductive LinkSt where
  | down | phyTrain | align | param | active | retrain
  deriving DecidableEq, Repr

/-- A parse-graph node (R70). -/
structure PNode where
  hdrId : Nat
  fixedLen : Nat
  hlenOff : Nat
  hlenWidth : Nat
  hlenScale : Nat
  hlenAdd : Nat
  totOff : Nat
  totWidth : Nat
  totKind : Bool
  selOff : Nat
  selWidth : Nat
  edgeBase : Nat
  edgeCount : Nat
  defaultNext : Nat
  defaultEnd : Bool
  strict : Bool
  exact : Bool
  allOnesBad : Bool
  csum : Bool
  lt8023 : Bool
  verEn : Bool
  verValue : Nat
  repeatMax : Nat
  optEn : Bool
  optStart : Nat
  optIncl : Bool
  optSingle : Nat
  extractBase : Nat
  extractCount : Nat
  deriving DecidableEq, Repr, Inhabited

/-- An edge entry (R71). -/
structure PEdge where
  value : Nat
  mask : Nat
  next : Nat
  valid : Bool
  deriving DecidableEq, Repr, Inhabited

/-- An extraction entry (R72). -/
structure PExt where
  bitOff : Nat
  width : Nat
  dest : Nat
  firstOnly : Bool
  deriving DecidableEq, Repr, Inhabited

/-- A CLS key profile (R81): sources of key words 1-18, of the exact-match key, and the look-up enable. -/
structure KeyProf where
  src : List Nat
  em : List Nat
  emEn : Bool
  deriving DecidableEq, Repr, Inhabited

/-- A flow-key profile (R93). -/
structure FlowProf where
  src : List Nat
  learn : Bool
  deriving DecidableEq, Repr, Inhabited

/-- What a PARSE block installs in a pipe (R68 to R72, R81, R93). -/
structure Graph where
  nodes : List PNode
  edges : List PEdge
  exts : List PExt
  kmap : List Nat
  kprofs : List KeyProf
  fprofs : List FlowProf
  /-- Start node for Stem blocks of KIND 0 and KIND 1. -/
  startHdr : Nat
  startKey : Nat
  deriving DecidableEq, Repr, Inhabited

/-- A check that waits for the end of the frame (R79): fails when `L` is below the number (classes 2 and 14),
or when the number is below `L` (class 4 with B = L). -/
inductive Defer where
  | below (cls d : Nat)
  | short (d : Nat)
  deriving DecidableEq, Repr

/-- The parse record of a unit (R72 to R80). -/
structure ParseRec where
  /-- Field buffer, valid words only. -/
  fb : Map Nat
  /-- Header stack in order: HDR_ID, offset, length. -/
  stack : List (Nat × Nat × Nat)
  trunc : Bool
  cls : Option Nat
  defer : List Defer
  deriving DecidableEq, Repr, Inhabited

/-- A rule of the TCAM or the exact-match table: what it matches, its 128-bit result (R84), its epoch mask (R83). -/
structure RuleEnt where
  value : Nat
  mask : Nat
  pipe : Nat
  res : Nat
  epochs : Nat
  deriving DecidableEq, Repr, Inhabited

/-- A flow entry (R94), but for its zero bytes. `valid` is FLAGS[0]. -/
structure FlowEnt where
  key : Bytes
  lastSeen : Nat
  learnEpoch : Nat
  tenant : Nat
  src : Nat
  altSrc : Nat
  valid : Bool
  recent : Bool
  stateOwned : Bool
  sw : Bool
  noAge : Bool
  ueHold : Bool
  cstate : Nat
  moves : Nat
  srcT : Nat
  contestT : Nat
  stateSlot : Nat
  state : Bytes
  deriving DecidableEq, Repr, Inhabited

/-- A side record (R95): the verdict cache as its 64-bit word, PKTS and BYTES. -/
structure SideRec where
  cache : Nat
  pkts : Nat
  bytes : Nat
  deriving DecidableEq, Repr, Inhabited

/-- A granted recurrent write that has not landed (R106, R108): the unit, its landing time, and the generation of
the entry that granted it. -/
structure PendWr where
  unit : Nat
  land : Nat
  gen : Nat
  /-- The state that the turn computed, once it has been computed (R214). -/
  val : Option Bytes
  deriving DecidableEq, Repr, Inhabited

/-- The flow tracker beside its registers (chapter 4). -/
structure Flw where
  ents : Map FlowEnt
  sides : Map SideRec
  /-- Buckets held by UE_HOLD (R112). -/
  ueHold : List Nat
  /-- BUSY per entry index with a write pending (R106). -/
  busy : Map Nat
  /-- Pending writes per entry index, oldest first. -/
  pend : Map (List PendWr)
  /-- Number of times that an entry index was freed: tells a write granted before a deletion (R108). -/
  gen : Map Nat
  /-- Lookups that have arrived at FLW so far (R97). -/
  arrivals : Nat
  /-- SEQ of the latest log record; the first record carries 1 (R109). -/
  logSeq : Nat
  /-- SEQ[31:0] of the last record that changed a bucket or a group (R114). -/
  lastChange : Map Nat
  /-- Scanner and walker positions: bucket, or 2^n + group (R103, R114). -/
  scanPos : Nat
  walkPos : Nat
  deriving DecidableEq, Repr

/-- A window descriptor (R125). -/
structure WinDesc where
  base : Nat
  cells : Nat
  kind : Nat
  agg : Nat
  b : Nat
  hl : Nat
  w : Nat
  key : Nat
  tenant : Nat
  deriving DecidableEq, Repr, Inhabited

/-- A feature program: its PRE words and its POST words (R119, R121). -/
structure FeaProg where
  pre : List Nat
  post : List Nat
  deriving DecidableEq, Repr, Inhabited

/-- A flow item (R123): a value, invalid, or the default that the instruction carries. -/
inductive FlowItem where
  | val (v : Nat)
  | inval
  | dflt
  deriving DecidableEq, Repr

/-- What a program reads beside the features: frame bytes and length, field buffer, metadata items (R122), flow items
(R123; none = the packet has no entry), results of the first pass's WIN reads (R137). -/
structure FeaEnv where
  fr : Bytes
  fb : Map Nat
  metas : List (Option Nat)
  flow : Option (List FlowItem)
  winRes : List (Option Nat)
  deriving DecidableEq, Repr

/-- A window access that a WIN instruction asks for at its PRE station (R126, R127). -/
structure WinReq where
  rd : Bool
  up : Bool
  part : Bool
  desc : Nat
  keyf : Option Nat
  valf : Option Nat
  dst : Nat
  deriving DecidableEq, Repr


/-- The exact value of a source or a result (R151, R152): a NaN, an infinity, or (-1)^neg * m * 2^e. -/
inductive Num where
  | nan
  | inf (neg : Bool)
  | fin (neg : Bool) (m : Nat) (e : Int)
  deriving DecidableEq, Repr

/-- A tensor descriptor (R158) by its fields. -/
structure TensorDesc where
  fmt : Nat
  src : Nat
  s0 : Int
  adapt : Bool
  state : Bool
  miss : Bool
  intvLog2 : Nat
  head : Nat
  slew : Nat
  satTol : Nat
  sample : Nat
  mseEn : Bool
  deriving DecidableEq, Repr, Inhabited

/-- A tensor record (R159, R161, R164, R165): scale state, the running interval, cumulative statistics. -/
structure TensorRec where
  desc : TensorDesc
  scale : Int
  held : Bool
  /-- Conversions, saturations and amax of the current interval; amax none = no non-zero finite source. -/
  count : Nat
  isat : Nat
  amax : Option Int
  sat : Nat
  nanZero : Nat
  flush : Nat
  range : Nat
  sse : Nat
  mseCnt : Nat
  /-- Conversions since the record's creation (R165). -/
  total : Nat
  deriving DecidableEq, Repr, Inhabited

/-- A converted vector: the exact values of its elements as m * 2^e (code times 2^scale), its codes, its scale, its poison
(R156). -/
structure TVec where
  vals : List (Int × Int)
  codes : List Nat
  scale : Int
  poison : Bool
  deriving DecidableEq, Repr, Inhabited


/-- One tree of an ensemble (R175): its node words in local order, its class and depths. -/
structure Tree where
  nodes : List Nat
  /-- Index of its node 0 in the image's node array. -/
  start : Nat
  cls : Nat
  depth : Nat
  resNodes : Nat
  paged : Nat
  deriving DecidableEq, Repr, Inhabited

/-- An ensemble (R178). -/
structure Ensemble where
  k : Nat
  link : Nat
  leafExp : Int
  record : Bool
  refitEn : Bool
  flow : Bool
  resultTensor : Nat
  loss : Nat
  minLeafN : Nat
  structId : Nat
  base : List Int
  eta : Nat
  lambda : Nat
  maxStep : Nat
  feats : List Nat
  trees : List Tree
  /-- Node words in the image's node array. -/
  total : Nat
  deriving DecidableEq, Repr, Inhabited

/-- A leaf-path record that is outstanding (R187, R188). -/
structure LeafRec where
  evT : Nat
  flow : Nat
  tag : Nat
  src : Nat
  slot : Nat
  epoch : Nat
  tenant : Nat
  pass : Nat
  structId : Nat
  margins : List Int
  leaves : List Nat
  /-- Its bytes in the leaf-path store, and whether its one label has come (R189). -/
  addr : Nat
  size : Nat
  used : Bool
  deriving DecidableEq, Repr, Inhabited

/-- A head record (R220): the penultimate activations of a head layer. -/
structure HeadRec where
  evT : Nat
  flow : Nat
  tag : Nat
  src : Nat
  slot : Nat
  epoch : Nat
  tenant : Nat
  pass : Nat
  structId : Nat
  /-- Bytes 24 onward. -/
  body : Bytes
  addr : Nat
  size : Nat
  used : Bool
  deriving DecidableEq, Repr, Inhabited

/-- A label in the label queue (R189, R261): tenant, whether a Trellis member forwarded it, its 32 bytes, intake time. -/
structure Label where
  tenant : Nat
  fwd : Bool
  raw : Bytes
  t : Nat
  deriving DecidableEq, Repr, Inhabited

/-- The two accumulator banks of a slot's ensemble or head layer (R191, R221), as bytes of the REFIT region: bank 0 at
`base`, bank 1 at `base + size`; which is the active one. -/
structure Bank where
  base : Nat
  size : Nat
  active : Bool
  deriving DecidableEq, Repr, Inhabited

/-- A layer of a neural model (R198) with its weights as codes, one list of inputs per output. -/
structure Layer where
  type : Nat
  path : Nat
  wfmt : Nat
  act : Nat
  inA : Nat
  inB : Nat
  out : Nat
  final : Bool
  headRefit : Bool
  group : Nat
  kA : Nat
  kB : Nat
  n : Nat
  wexp : Int
  bexp : Int
  tileMask : Nat
  weightOff : Nat
  /-- Weight codes: output by output. -/
  w : List (List Nat)
  /-- Bias codes: s32, or F32 on PATH 3; none = no bias. -/
  bias : Option (List Nat)
  /-- Codebooks (16 FP16 codes per output) of CB4. -/
  books : List (List Nat)
  /-- E8M0 scales in block order. -/
  scales : List Nat
  featA : List Nat
  featB : List Nat
  loss : Nat
  maxStep : Nat
  eta : Nat
  minN : Nat
  deriving DecidableEq, Repr, Inhabited

/-- A turn descriptor (R208) with its parameters. -/
structure TurnDesc where
  form : Nat
  stateTensor : Nat
  viewTensor : Nat
  uexp : Int
  params : List Nat
  tu : Nat
  slack : Nat
  deriving DecidableEq, Repr, Inhabited

/-- A task (R229): bytes 0 to 4, ARG0, ARG1 and SEQ. `post` tells a task posted by a refit policy (its slot's). -/
structure Task where
  cls : Nat
  src : Nat
  tenant : Nat
  slot : Nat
  epoch : Nat
  arg0 : Nat
  arg1 : Nat
  seq : Nat
  deriving DecidableEq, Repr, Inhabited

/-- A trap that a sprig core takes: an access fault at an address of its map (R232), the machine timer interrupt (R234). -/
inductive CoreTrap where
  | access (addr : Nat) (store : Bool)
  | timer
  deriving DecidableEq, Repr

/-- A sprig core beside its registers (R232 to R239): whether it holds an image, its entry point and classes, the task
given and not yet popped, the task claimed with its claim time, messages in both mailboxes, local SRAM (from address 0, zero
beyond the list), the program counter value that a reset of the core sets (R236, R239), the compare value of its timer and the
latest trap raised in it. -/
structure Core where
  image : Bool
  entry : Nat
  classes : Nat
  given : Option Task
  claimed : Option (Task × Nat)
  h2c : Option Nat
  c2h : Option Nat
  sram : Bytes
  pc : Nat
  timer : Option Nat
  trap : Option CoreTrap
  deriving DecidableEq, Repr, Inhabited

/-- The sprig cores and their dispatcher (chapter 9). -/
structure Spr where
  cores : Map Core
  queues : Map (List Task)
  /-- SEQ of the latest task of each class (R229). -/
  seq : Map Nat
  /-- The image retained for spares (R238): the whole signed image. -/
  image : Option Bytes
  /-- A load in progress: the image address and the cores named. -/
  load : Option (Nat × Nat)
  /-- The second FLW command port (R233): CMD, CMD_STAT, KEY and DATA words, by register address. -/
  port : Map Nat
  deriving DecidableEq, Repr

/-- A SCHEDULE entry (R247). -/
structure SchedEnt where
  kind : Nat
  pass : Nat
  pipe : Nat
  dbl : Bool
  unit : Nat
  load : Nat
  off : Nat
  amount : Nat
  deriving DecidableEq, Repr, Inhabited

/-- What a pass runs (R245): the ensemble, the turn, the layers `first` to `last` (255 = none). -/
structure PassSec where
  ens : Bool
  turn : Bool
  first : Nat
  last : Nat
  deriving DecidableEq, Repr, Inhabited

/-- The SLOT section (R245). -/
structure SlotSec where
  defAct : Nat
  defCompat : Bool
  defClass : Nat
  defColour : Nat
  defQueue : Nat
  defScore : Nat
  scoreSrc : Nat
  passes : List PassSec
  deriving DecidableEq, Repr, Inhabited

/-- The FLOW section of a flow image (R256). -/
structure FlowSec where
  trig : Nat
  n : Nat
  classMask : Nat
  scoreMin : Nat
  cache : List Nat
  deriving DecidableEq, Repr, Inhabited

/-- A model as its image gives it (R243 to R247). -/
structure Model where
  flowKind : Bool
  passes : Nat
  modelId : Nat
  version : Nat
  structId : Nat
  flowProfile : Nat
  slotSec : SlotSec
  sched : List SchedEnt
  progFirst : FeaProg
  progLater : FeaProg
  tensors : List TensorDesc
  ens : Option Ensemble
  layers : List Layer
  turn : Option TurnDesc
  flow : Option FlowSec
  /-- Host slot of a flow model (R256). -/
  host : Nat
  /-- DIGEST of the image (R478) and a load number that tells one load from another. -/
  digest : Bytes
  loadNo : Nat
  /-- Placement in use: false A, true B, of the ensemble and of the head layer (R193, R219). -/
  placeEns : Bool
  placeHead : Bool
  /-- What the placement not in use holds, once a commit has written the other one. -/
  ensAlt : Option Ensemble
  headAlt : Option Layer
  /-- Its placements have reload copies in the MODEL region (R399). -/
  reload : Bool
  /-- A group graft has loaded it: its slot may be deepened by hops (R376). -/
  group : Bool
  /-- By pipe, a number that tells one activation there from another: each takes tensor records of its own (R159). -/
  acts : List Nat
  deriving DecidableEq, Repr, Inhabited

/-- A queued flow-model run (R257), and a run that has left the queue. -/
structure FlowRun where
  slot : Nat
  entry : Nat
  gen : Nat
  epoch : Nat
  pipe : Nat
  tenant : Nat
  feats : Map Nat
  evT : Nat
  /-- As in a unit of work (R442). -/
  energy : Nat
  ctxT : Nat
  /-- The unit that triggered it, and whether its first-pass features are in `feats` (R257). -/
  unit : Nat
  ready : Bool
  /-- SEQ of the LINK task that holds the margins (R230). -/
  link : Option Nat
  deriving DecidableEq, Repr, Inhabited

/-- A slot's refit policy beside its registers (R263, R264). -/
structure RefitPol where
  /-- Start of the interval count: the write that set ENABLE. -/
  since : Nat
  /-- ENABLE = 0 was written outside IDLE: it takes effect at IDLE. -/
  stopping : Bool
  /-- The completed shadow: leaf values or weight codes and biases, with the placement it started from. -/
  shadowEns : Option Ensemble
  shadowHead : Option Layer
  /-- A commit graft is queued. -/
  queued : Bool
  deriving DecidableEq, Repr, Inhabited

/-- What one epoch uses (R273): graphs and profiles per pipe, miss records per pipe (R82), window descriptors, models and
active pipes per slot, and the register fields that belong to the epoch: verdict maps and slot options (R294) and the start
nodes (R68), by field key. -/
structure EpochCfg where
  graphs : List Graph
  miss : List Nat
  descs : Map WinDesc
  models : Map Model
  active : Map Nat
  regs : Map Nat
  deriving DecidableEq, Repr, Inhabited

/-- A live epoch (R275). -/
structure Epoch where
  num : Nat
  cfg : EpochCfg
  /-- DRAINING: end of the drain timer (R276, R277); none = CURRENT. -/
  drain : Option Nat
  deriving DecidableEq, Repr, Inhabited

/-- A graft item after its payload has been copied out (R266, R268): what it does in the new epoch. -/
inductive GItem where
  | load (slot pipes : Nat) (m : Model)
  | activate (slot pipes : Nat)
  | unload (slot : Nat)
  | refit (slot arg : Nat)
  /-- A checked bit-stream section with the DIGEST of the partial image that carried it (R478). -/
  | sect (type : Nat) (body digest : Bytes)
  | regs (pairs : List (Nat × Nat))
  deriving DecidableEq, Repr

/-- A graft in a port's hands (R269 to R274). `port`: 0 to 63 the functions, 64 the refit policies, 65 CFG's own, 66 a
participant's copy of a group graft, 99 a port that has been reset since (R288). -/
structure Graft where
  port : Nat
  tag : Nat
  wait : Bool
  group : Bool
  items : List GItem
  /-- What staging has found: the code, the failing item and the admission report (R270, R271). -/
  fail : Option (Nat × Nat × Bytes)
  ready : Bool
  /-- Slot of a policy's commit graft. -/
  slot : Nat
  /-- Once committed: the address of its report, the epoch that it began, the epoch that it replaced, the boundary's time,
  whether its CODE has left PENDING (R271, R283). -/
  rptAddr : Nat
  num : Nat
  old : Nat
  boundary : Nat
  told : Bool
  /-- The time at which the epoch that it replaced retired; 0 until then (R276). -/
  retired : Nat
  deriving DecidableEq, Repr, Inhabited

/-- The graft engine beside its registers (chapter 11). Queue of GO writes (a port, or 128 + slot for a refit policy), the
graft in staging or READY, committed grafts whose replaced epoch has not retired, and the group commit. -/
structure Grf where
  queue : List Nat
  cur : Option Graft
  done : List Graft
  /-- Group commit, coordinator: the participants that PREPARE went to, replies so far (participant, status) and their deadline; chosen
  commit time (R283, R284). -/
  mates : List Nat
  replies : Map Nat
  prepDl : Option Nat
  commitAt : Option Nat
  /-- Participants whose commit acknowledgement is missing, and the deadline. -/
  acks : List Nat
  ackDl : Option Nat
  /-- Participant: deadline of COMMIT or ABORT after its READY (R284). -/
  partDl : Option Nat
  loads : Nat
  deriving DecidableEq, Repr

/-- The fields of a verdict record (R290). FLAGS bit k is record bit 5 + k. -/
structure Verdict where
  action : Nat
  compat : Bool
  flags : Nat
  cls : Nat
  colour : Nat
  queue : Nat
  mirror : Nat
  score : Nat
  slot : Nat
  epoch : Nat
  energy : Nat
  tag : Nat
  deriving DecidableEq, Repr, Inhabited

/-- A policer's running state (R299). -/
structure PolState where
  tc : Nat
  tp : Nat
  last : Nat
  /-- It has been filled at its first hand-over with non-zero bursts (R301). -/
  filled : Bool
  deriving DecidableEq, Repr, Inhabited

/-- A packet held in a queue: its unit, length, cells, colour, the time that R17 and R18 fix for its egress, and the bytes
to send. -/
structure QPkt where
  unit : Nat
  len : Nat
  cells : Nat
  colour : Nat
  due : Nat
  bytes : Bytes
  deriving DecidableEq, Repr, Inhabited

/-- A queue's running state (R303 to R310): packets, oldest first; shaper tokens; DRR deficit; the sampled record. -/
structure QState where
  pkts : List QPkt
  tokens : Int
  tokT : Nat
  deficit : Nat
  maxd : Nat
  depthSum : Nat
  depthN : Nat
  sojMax : Nat
  sojSum : Nat
  sojN : Nat
  enqPkts : Nat
  enqBytes : Nat
  dropPkts : Nat
  deriving DecidableEq, Repr, Inhabited

/-- A scheduler node's running state (R307, R308). -/
structure NState where
  tokens : Int
  tokT : Nat
  deficit : Nat
  deriving DecidableEq, Repr, Inhabited

/-- The traffic manager beside its registers (chapter 12). -/
structure Tmg where
  pols : Map PolState
  queues : Map QState
  nodes : Map NState
  /-- PFC pauses received: port * 8 + priority to the end of the pause (R309). -/
  paused : Map Nat
  /-- Cells in use (R302). -/
  used : Nat
  /-- Cells of the packet-buffer region of the partition (R302). -/
  cells : Nat
  /-- PFC XOFF sent and in force: for contexts (R45) and for cells (R302). -/
  xoffCtx : Bool
  xoffCell : Bool
  /-- Queue whose child won the latest turn, by parent node key (R307). -/
  lastTurn : Map Nat
  deriving DecidableEq, Repr

/-- What the codes hold against the data of a block of 128 bytes (R323 to R327): flipped stored bits (word, bit), and lines
whose codeword is uncorrectable. -/
structure BlkErr where
  flips : List (Nat × Nat)
  ue : List Nat
  deriving DecidableEq, Repr, Inhabited

/-- A repair under way (R329, R330): the unit, 0 to 3 a die and 4 to 7 a stack; whether it is of a column; the row or column. -/
structure Repair where
  unit : Nat
  col : Bool
  idx : Nat
  deriving DecidableEq, Repr

/-- A region of a layout (R319): ID, size in 64 KiB units, base. -/
structure Region where
  id : Nat
  size : Nat
  base : Nat
  deriving DecidableEq, Repr, Inhabited

/-- A layout (R319). -/
structure Layout where
  lost : Nat
  bucketLog2 : Nat
  regions : List Region
  deriving DecidableEq, Repr, Inhabited

/-- Bulk memory beside its registers (chapter 13). `cells` holds device memory by address in canonical form: rising
addresses, no zero byte listed (an unlisted byte reads as zero, as SRAM_INIT and HBM_INIT leave it, R334). -/
structure Mem where
  cells : List Host.Cell
  blk : Map BlkErr
  /-- Codewords found uncorrectable, by unit: line number and latest time in ns (R332). -/
  ueTimes : Map (Map Nat)
  /-- Inner corrections of the sweep under way (R329): by unit, the number in a row; the rows met at a column position. -/
  rowCorr : Map (Map Nat)
  colCorr : Map (Map (List Nat))
  /-- Repairs under way, oldest first (R329, R330). -/
  repairs : List Repair
  /-- Next block of each scrubber: dies 0 to 3, stacks 4 to 7 (R328). -/
  scrub : Map Nat
  /-- The layouts of the PARTITION section in force. -/
  layouts : List Layout
  deriving DecidableEq, Repr

/-- A descriptor in flight (R346 to R349): ring index, its 64 bytes, fetch time, the status once it has run, bytes written,
reads that have failed so far and whether a retry is due, the context of a job, the verdict that it has formed, what its work
has cost, a buffer that waits for its exception record (R357), and for a replay through LINK tasks the output so far with
the record of each task that has not ended, by SEQ (R230). -/
structure Desc where
  idx : Nat
  raw : Bytes
  t : Nat
  status : Option Nat
  done : Nat
  /-- The channel has started it: SCHED was handed over (R363). -/
  started : Bool
  tries : Nat
  waiting : Bool
  ctx : Option Nat
  verd : Option Verdict
  energy : Nat
  posted : Bool
  links : Map Nat
  outb : Bytes
  deriving DecidableEq, Repr, Inhabited

/-- A DMA channel beside its registers (R344 to R363). -/
structure Chan where
  /-- Descriptors in flight, oldest first. -/
  flight : List Desc
  /-- A descriptor completed with a status other than OK since the latest barrier or since RUN (R360). -/
  bad : Bool
  /-- A pause waits for the current descriptor (R361). -/
  pausing : Bool
  /-- Next slot to fetch, failed reads of that slot so far, and whether a retry is due (R346, R359). -/
  fetch : Nat
  tries : Nat
  waiting : Bool
  deriving DecidableEq, Repr, Inhabited

/-- What the PCIe link trains to, and what the host then sets in configuration space (R340, R342): the code of RATE, the lanes, NumVFs,
the functions whose MSI-X it enables. -/
structure HostCfg where
  rate : Nat
  width : Nat
  numVfs : Nat
  msix : List Nat
  deriving DecidableEq, Repr

/-- The PCIe interface beside its registers (R340 to R343, R474). -/
structure Hif where
  /-- The outside's part, as a strap is: the configuration that the host sets once Retry Status has ended. -/
  host : HostCfg
  /-- NumVFs as configuration space holds it (R340). -/
  numVfs : Nat
  /-- Functions with MSI-X enabled, and the table words: entry (fn * 2048 + vec) * 4 + word (R342). -/
  msixEn : List Nat
  msixTab : Map Nat
  /-- Pending bits: fn * 2048 + vec. -/
  msixPend : List Nat
  /-- In reset by PERST_N; answering with CRS until this time (R474). -/
  perst : Bool
  crs : Option Nat
  deriving DecidableEq, Repr

/-- A flit that waits to be sent on a Trellis or Clasp link: TYPE, header without SEQ and ACK, payload, and whether it takes a slot
that a schedule reserves (R370, R376). -/
structure OutFlit where
  ty : Nat
  hdr : Nat
  pay : Bytes
  res : Bool
  deriving DecidableEq, Repr, Inhabited

/-- The receive and send state of a Trellis or Clasp link (R367 to R371). -/
structure Link where
  expSeq : Nat
  txSeq : Nat
  /-- Counted flits sent and not yet acknowledged, oldest first: SEQ and bytes (R369). -/
  held : List (Nat × Bytes)
  /-- Flits waiting for the send window, in order of arrival. -/
  wait : List OutFlit
  crc : Nat
  crcIv : Nat
  since : Nat
  signal : Nat
  locked : Nat
  deriving DecidableEq, Repr, Inhabited

/-- What a member's latest HELLO told (R373): its time, eligibility, CURRENT epoch. -/
structure Member where
  seen : Nat
  eligible : Bool
  epoch : Nat
  mask : Nat
  isolated : Bool
  deriving DecidableEq, Repr, Inhabited

/-- The Trellis side beside its registers (R372 to R385). -/
structure Trl where
  links : Map Link
  members : Map Member
  /-- The latest computed master and the time since which it has stood (R374). -/
  cand : Option Nat
  candT : Nat
  /-- Steering entries: OWNER, VALID, PROVISIONAL as in TRL_STEER_DATA (R380). -/
  steer : Map Nat
  /-- Claims held until MASTER_VALID (R381). -/
  claims : List Nat
  /-- Send time t1 of the TIME exchange in progress (R375). -/
  t1 : Option Nat
  /-- Units handed over, waiting for a RESULT: HANDLE to unit (R378, R379). -/
  away : Map Nat
  deriving DecidableEq, Repr

/-- A change that waits to be mirrored (R389): entry index, the entry and side bytes of an ENTRY delta (none: a STATE delta, which takes the values
at sending), its change time. -/
structure Dirty where
  idx : Nat
  data : Option Bytes
  t : Nat
  deriving DecidableEq, Repr, Inhabited

/-- A kept head of a partner's chain (R455). -/
structure ChainHead where
  boot : Nat
  resets : Nat
  interval : Nat
  count : Nat
  val : Bytes
  deriving DecidableEq, Repr, Inhabited

/-- The Clasp side beside its registers (R386 to R392). -/
structure Clp where
  links : Map Link
  /-- Time of the latest HEARTBEAT, once one has arrived. -/
  hb : Option Nat
  dirty : List Dirty
  /-- The device joins at the next boundary with this CURRENT epoch (R392): whether it is the survivor. -/
  join : Option (Bool × Nat)
  sync : Nat
  /-- Kept heads of the partner's chains (R455): tenant * 512 + chain slot. -/
  heads : Map ChainHead
  /-- The survivor's next batch carries partner records. -/
  partnerRec : Bool
  ownMask : Nat
  deriving DecidableEq, Repr

/-- A graft of FLT's own (R281, R403): the pool (none for a layout), the failed logical and physical unit, the spare taken,
the layout's LOST, the detection time, and whether its copies are staged. -/
structure FltGraft where
  pool : Option Nat
  logical : Nat
  phys : Nat
  spare : Option Nat
  lost : Option Nat
  t : Nat
  ready : Bool
  cls : Nat
  deriving DecidableEq, Repr, Inhabited

/-- A fault as it is reported (R397): class, physical unit as in R408. -/
structure FaultRep where
  cls : Nat
  unit : Nat
  injected : Bool
  deriving DecidableEq, Repr, Inhabited

/-- The fault manager beside its registers (chapter 16). -/
structure Flt where
  /-- Failed physical units: pool * 128 + number. -/
  failed : List Nat
  /-- Logical units removed: pool * 128 + number. -/
  removed : List Nat
  /-- Logical to physical where they differ: pool * 128 + logical. -/
  phys : Map Nat
  grafts : List FltGraft
  /-- Affected slots with the pipes in which they use the removed unit (R401). -/
  affected : Map Nat
  /-- Logical units (pool * 128 + number) that an epoch still names although a graft has replaced or removed them, with that
  epoch: units pinned to it get defaults until it retires (R403). -/
  stale : List (Nat × Nat)
  /-- STATE before a thermal HOLD, the entry time of HOLD (R404). -/
  before : Nat
  holdT : Nat
  /-- Faults detected during a freeze (R490). -/
  frozen : List FaultRep
  deriving DecidableEq, Repr

/-- Clocks, gates and domains beside their registers (chapter 17). -/
structure Clk where
  /-- Gate of each block by aperture index (R420); a block of R419 stays `on`. -/
  gate     : Vector GateSt 24
  /-- For a pending gate-off with a running count: the time at which 1,024 CLK_CTL cycles have elapsed (R420). -/
  gateDl   : Map Nat
  /-- Power domains 0 to 13 (R423 to R425). -/
  dom      : Vector GateSt 14
  /-- Opposite requests waiting for the pending one (R425): domain, requested bit. -/
  domNext  : Map Bool
  /-- Pending domain requests made together (R427): domain, number of their write. -/
  domBatch : Map Nat
  /-- Writes of PWR_DOM_REQ so far: numbers the requests made together. -/
  domWrites : Nat
  /-- The point that the DVFS step in progress leads to (R417), by domain. -/
  dvfsNext : Map Nat
  /-- Super-cycle count since SYS_RST_N (R413). -/
  boundary : Nat
  /-- The source of the root PLL: false reference, true fallback (R428). -/
  onFb     : Bool
  /-- The deadline of a clock hold: 2 ms after the trip (R431). -/
  holdDl   : Option Nat
  /-- The source that the hold switches to; none = no hold. -/
  holdTo   : Option Bool
  /-- Latest readings of the sixteen sensors at or above the trip level (R434). -/
  thermHi  : List Nat
  /-- Requests that wait for the end of a freeze (R435): the register writes, oldest first. -/
  frozenRq : List (Nat × Nat)
  deriving DecidableEq, Repr

/-- The time base (R138 to R142). -/
structure TimeBase where
  /-- The time in units of 2^-32 ns. -/
  t        : Nat
  /-- Remaining slew in units of 2^-32 ns (R140). -/
  slew     : Int
  /-- A step that awaits its super-cycle boundary, in ns. -/
  step     : Option Int
  /-- CLK_TIME cycles since the release of SYS_RST_N (R413, R138). -/
  cycles   : Nat
  deriving DecidableEq, Repr

/-- A calibration table (R440). -/
structure Cal where
  version : Nat
  coef : List Nat
  domA : List Nat
  domB : List Int
  vscale : List Nat
  deriving DecidableEq, Repr, Inhabited

/-- A chain of requests with what the open interval adds to it (R447, R451). -/
structure Chain where
  seq : Nat
  val : Bytes
  fields : List Nat
  logLost : Nat
  runs : Nat
  flowEnergy : Nat
  hopEnergy : Nat
  deriving DecidableEq, Repr, Inhabited

/-- Signet beside its registers (chapter 18). Sums are in U = 2^-16 pJ. -/
structure Sgn where
  session : Bool
  boot : Nat
  resets : Nat
  /-- BOOT has been raised since this VDD_AON power-up (R453). -/
  booted : Bool
  bootSat : Bool
  bseq : Nat
  start : Nat
  sigma : Nat
  d : Nat
  occ : Nat
  attr : Nat
  /-- Sum of V x I x 1 us of each rail in the open interval, in units of 2^-16 pJ. -/
  rails : List Nat
  /-- On-time of each power domain in the open interval, ns, and the time at which it was last brought up to date. -/
  domOn : List Nat
  domT : Nat
  temp : Nat
  chains : Map Chain
  cal : Cal
  calPend : Option Cal
  calSwap : Bool
  /-- FLAGS of the open interval and merged intervals: STEP, FROZEN, FALLBACK, HOLD (R450, R454). -/
  fallback : Bool
  hold : Bool
  /-- A batch that waits to be written (R452). -/
  batches : List Bytes
  deriving DecidableEq, Repr

/-- The security root's fuses (chapters 18, 19). -/
structure Sec where
  roots : List Bytes
  programmed : Nat
  revoked : Nat
  imgKey : Option Bytes
  svn : Nat
  pub : Bytes
  cert : Bytes
  /-- An accepted provisioning operation that has not ended: OP, SLOT, VALUE, DATA (R479). -/
  prov : Option (Nat × Nat × Nat × Bytes)
  deriving DecidableEq, Repr

/-- A verifying key of the KEYS section (R462). -/
structure VerKey where
  purpose : Nat
  tenant : Nat
  key : Bytes
  deriving DecidableEq, Repr, Inhabited

/-- The configuration engine beside its registers (chapter 19). -/
structure Cfg where
  keys : List VerKey
  /-- The DEVICE section in force (256 bytes). -/
  device : Bytes
  /-- Chain values T of DEVICE, PARTITION, PARSE, RULES, WINDOWS, KEYS (R478). -/
  chains : List Bytes
  /-- The source of the load in progress: 1 flash A, 2 flash B, 3 CFG_LOAD_CTL, and the MODELS section still to submit. -/
  loading : Option Nat
  models : Option Bytes
  /-- What epoch 0 will use, between the installation and its boundary (R477). -/
  base : Option EpochCfg
  deriving DecidableEq, Repr


/-- What kind of work a unit is (R26). -/
inductive UnitKind where
  | inline (port : Nat)
  | stem (tag chan : Nat) (kind : Bool)
  | job (ch : Nat)
  /-- Handed over by member `peer` (R378): the link and HANDLE to answer on, and whether its KIND is STEER. -/
  | handover (peer link handle : Nat) (steer : Bool)
  deriving DecidableEq, Repr

/-- How far a unit of work has come through its pass. -/
inductive Stage where
  | arrived | parsed | looked | featured | turning | inferred | waiting | done
  deriving DecidableEq, Repr

/-- The result of a pass at VRD (R292): the winning class and score, a NaN score, or none at its slot. -/
inductive PassRes where
  | none
  | nan
  | score (cls score : Nat)
  deriving DecidableEq, Repr

/-- One unit of work in flight (R13 to R27): a packet, a Stem request, a host job or a unit handed over. -/
structure UnitRec where
  kind : UnitKind
  stage : Stage
  pipe : Nat
  bytes : Bytes
  /-- L (or LEN); SRC as in R94; key word 0 bits [5:0] (R81). -/
  len : Nat
  src : Nat
  chan : Nat
  evT : Nat
  /-- The FCS result, once the MAC has reported the end of the frame (R42, R79), and whether a codeword of it was uncorrectable (R38). -/
  fcs : Option Bool
  fecBad : Bool
  hasCtx : Bool
  cells : Nat
  epoch : Nat
  expired : Bool
  /-- Skeleton service (R405). -/
  skel : Bool
  pass : Nat
  tenant : Nat
  slot0 : Nat
  slot : Nat
  prevSlot : Nat
  parse : ParseRec
  /-- Results of the governing rules, first pass first (R84). -/
  rules : List Nat
  /-- Malformed code of R87 read at the first pass's CLS stage; none = no class. -/
  malCode : Option Nat
  /-- Flow entry index with the generation it was read at, the items of R123, and what the lookup gave. -/
  entry : Option (Nat × Nat)
  flow : Option (List FlowItem)
  learned : Bool
  cpuState : Bool
  cache : Nat
  /-- At its arrival at FLW (R97, R98): its number and time, its release time, and whether that had passed. -/
  arrival : Nat
  arrT : Nat
  release : Nat
  orderLate : Bool
  /-- The turn of R106: read time and whether it was granted; an old state of zeros (R107, R215). -/
  turn : Option (Nat × Bool)
  zeroState : Bool
  /-- The state that the layers of this pass read, and its poison in the pass that computed it (R214, R215). -/
  state : Bytes
  poisonState : Bool
  /-- The state that the context carries to later passes (R107); the entry whose state at the release time is still to come, in
  a packet that makes no update (R106). -/
  carry : Bytes
  readOf : Option Nat
  /-- The old state of a turn still to start, kept as the entry's state changes after the read time or the entry goes (R106, R115). -/
  copy : Option Bytes
  winRes : List (Option Nat)
  feats : Map Nat
  /-- Features of the first pass, which a trigger queues (R257). -/
  feats0 : Map Nat
  /-- Vectors of SRC 3 made so far, partial margins carried from another member (R378). -/
  vecs : Map TVec
  carried : List Int
  /-- Its next stage has been handed to another member (R378), and the hops of its slots so far (R376). -/
  hopped : Bool
  hops : Nat
  res : PassRes
  /-- Margins and leaves for the leaf-path record (R187), head record body (R220). -/
  leafOut : Option (List Int × List Nat)
  headOut : Option Bytes
  flags : Nat
  verdict : Option Verdict
  /-- The default verdict of its slot, kept when its epoch expires (R279). -/
  dflt : Option Verdict
  /-- Stem: a LATE response has been sent (R58). -/
  late : Bool
  /-- Sum of the coefficients of the events that it has caused, in U (R442), and the time at which it took its context. -/
  energy : Nat
  ctxT : Nat
  /-- A fault or a remap took its result (R21). -/
  failed : Bool
  deriving DecidableEq, Repr

/-- What the device sends to the outside, newest first in `Dev.out` (the model's own record of its outputs). -/
inductive Out where
  /-- Value read by a function at an address, or a bus error (R11). -/
  | read (fn addr : Nat) (val : Option Nat)
  | busError (fn addr : Nat)
  | msix (fn vec : Nat)
  | hostWrite (addr : Nat) (bytes : Bytes)
  | hostRead (addr len : Nat)
  | frame (port : Nat) (bytes : Bytes) (fcsOk : Bool)
  | pfc (port prios quanta : Nat)
  /-- A flit as its lanes carry it, lane 0 first (R47). -/
  | stemFlit (slot : Nat) (lanes : List Nat)
  | trlFlit (link : Nat) (lanes : List Nat)
  | clpFlit (link : Nat) (lanes : List Nat)
  | smbus (bytes : Bytes)
  /-- What EXTEST drives on the VDDIO balls (R498). -/
  | balls (cells : Nat)
  | jtag (bits : Nat) (len : Nat)
  | poisoned (addr : Nat)
  /-- What a load of a sprig core returns. -/
  | core (core addr val : Nat)
  /-- What a sprig core reads as `mtime` (R234). -/
  | mtime (core val : Nat)
  deriving DecidableEq, Repr

/-- Loupe beside its registers (chapter 20). -/
structure Lpe where
  /-- The observation bucket (R483): tokens in units of 0.1 byte, and the time they were brought up to date. -/
  tokens : Nat
  tokT : Nat
  sampleSeq : Nat
  snapSeq : Nat
  /-- A snapshot in progress: its trigger and start time (R486, R487). -/
  snap : Option (Nat × Nat)
  /-- The time base and boundary index of the latest cut (R490, R496). -/
  cutT : Nat
  cutB : Nat
  dump : Bytes
  dumpPtr : Nat
  deriving DecidableEq, Repr

/-- The management bridge (R498 to R500): SMBus ADDR and STATUS, the JTAG instruction, the result of LPE_REG, the boundary
register; levels of the pins that the device samples. -/
structure Bridge where
  smbAddr : Nat
  smbStat : Nat
  ir : Nat
  jtagData : Nat
  jtagStat : Nat
  boundary : Nat
  deriving DecidableEq, Repr

/-- Levels of input pins (R519). -/
structure Pins where
  sysRstN : Bool
  freezeN : Bool
  gpio : Nat
  /-- A rail fell while SYS_RST_N was high: the state is not specified until the next release (R515). -/
  railLost : Bool
  deriving DecidableEq, Repr

/-- The request that is open (R50). -/
structure OpenReq where
  tag : Nat
  len : Nat
  kind : Bool
  chan : Nat
  data : Bytes
  flits : Nat
  evT : Nat
  lastSlot : Nat
  deriving DecidableEq, Repr, Inhabited

/-- A reserved response position (R55): its flit slot, TAG, event time, and either a unit in flight or the record that STM
answers itself. `discard` = the result is dropped at the flit layer (R63). -/
structure StemRsp where
  due : Nat
  tag : Nat
  evT : Nat
  unit : Option Nat
  verdict : Verdict
  /-- What the flits of a request that STM answers itself have cost, in U (R52). -/
  energy : Nat
  discard : Bool
  deriving DecidableEq, Repr, Inhabited

/-- An asynchronous update that is to be sent (R58): the unit, its TAG, its time limit, and whether the link has left ACTIVE since, so that
the flit layer discards it (R63). -/
structure AsyncUpd where
  unit : Nat
  tag : Nat
  limit : Nat
  off : Bool
  deriving DecidableEq, Repr, Inhabited

/-- The Stem port beside its registers (R46 to R65). -/
structure Stm where
  /-- Flit slots since ACTIVE; one per flit received (R46). -/
  slot : Nat
  expSeq : Option Nat
  txSeq : Nat
  /-- Flit slots whose outgoing flit has been sent (R46): the next slot that may carry one. -/
  sent : Nat
  cred : Nat
  credRet : Nat
  fifo : List Nat
  rot : Nat
  opened : Option OpenReq
  /-- The remains of a damaged request are being dropped, and its TAG once a flit of it has arrived (R60). -/
  dropping : Bool
  dropTag : Option Nat
  naks : List Bytes
  /-- Updates in the order of their LATE responses. -/
  async : List AsyncUpd
  rsps : List StemRsp
  /-- Lanes with signal, lanes with FEC lock (bit masks of 16). -/
  signal : Nat
  locked : Nat
  /-- CRC errors of the current 1 ms interval and the interval's number (R61). -/
  crc : Nat
  crcIv : Nat
  /-- Entry time of the training state (R62). -/
  since : Nat
  deriving DecidableEq, Repr

/-- The port complex beside its registers (R14, R39, R40). -/
structure Prt where
  /-- Lanes whose adaptation has failed (R40). -/
  failed : List Nat
  /-- Pipe of each port from the bit-stream (R14): none = held down. -/
  pipeOf : Map Nat
  deriving DecidableEq, Repr

/-- The device: every piece of state that the spec names. -/
structure Dev where
  /-- Register fields by key; an unlisted field holds its reset value (chapters' register tables). -/
  regs : Map Nat
  /-- Shadow values of RWS fields, by the same keys (R285). -/
  shadow : Map Nat
  /-- 64-bit counters by the BAR0 address of their low half; unlisted = 0. -/
  ctrs : Map Nat
  /-- Latched high halves (R10): function * 2^25 + address of the low half. -/
  latch : Map Nat
  tb : TimeBase
  clk : Clk
  pins : Pins
  straps : Straps
  units : Map UnitRec
  nextUnit : Nat
  /-- Rule TCAM by index, exact-match table by entry number (R82, R83). -/
  tcam : Map RuleEnt
  em : Map RuleEnt
  flw : Flw
  /-- Tensor records: (load number * 8 + pipe) * 256 + tensor (R159). -/
  qnt : Map TensorRec
  leafRecs : List LeafRec
  headRecs : List HeadRec
  labels : List Label
  /-- Accumulator banks: slot * 2 + (1 for the head layer). -/
  banks : Map Bank
  refit : Map RefitPol
  runQueue : List FlowRun
  /-- Runs that hold a context. -/
  runs : List FlowRun
  /-- Live epochs, CURRENT first (R275). -/
  epochs : List Epoch
  grf : Grf
  tmg : Tmg
  stm : Stm
  prt : Prt
  spr : Spr
  mem : Mem
  chans : Map Chan
  hif : Hif
  trl : Trl
  clp : Clp
  flt : Flt
  sgn : Sgn
  sec : Sec
  cfg : Cfg
  lpe : Lpe
  bridge : Bridge
  /-- How many open values the run has taken (the model's own field; log entry 4). -/
  free : Nat
  /-- What the device has sent to the outside, newest first (the model's own record). -/
  out : List Out
  deriving DecidableEq, Repr

/-- The state of a run: the device, and the commands that wait, first in first out. -/
structure State where
  dev : Dev
  pending : List Instr
  deriving DecidableEq, Repr

/-- Why the machine stops. -/
inductive Fault where
  /-- Raised by every command but the edges of `SYS_RST_N`, `PERST_N` and VDD_AON after a rail has fallen while `SYS_RST_N` was high: R515 says
  that the state is not specified until the next release. Safe: nothing is claimed of such a device. -/
  | railUnspecified
  deriving DecidableEq, Repr

/-- Why a command has no meaning. -/
inductive Refusal where
  /-- Raised by an arm of `exec` that is not written yet. Safe: nothing is claimed of the command. -/
  | notModelled (mnemonic : String)
  deriving DecidableEq, Repr

/-- A signet chain value and every 32-byte field before the first session. -/
def zero32 : Bytes := List.replicate 32 0

/-- The device right after reset: power-up values, `SYS_RST_N` released, every strap low but BOOT_MODE, no base image (log entry 1). -/
def Dev.reset : Dev where
  regs := []
  shadow := []
  ctrs := []
  latch := []
  tb := { t := 0, slew := 0, step := none, cycles := 0 }
  clk :=
    { gate := Vector.ofFn fun i => if i.val ∈ [0, 1, 2, 3, 17, 20, 23] then GateSt.on else GateSt.off
      gateDl := []
      dom := Vector.replicate 14 GateSt.on
      domNext := []
      domBatch := []
      domWrites := 0
      dvfsNext := []
      boundary := 0
      onFb := false
      holdDl := none
      holdTo := none
      thermHi := []
      frozenRq := [] }
  pins := { sysRstN := true, freezeN := true, gpio := 0, railLost := false }
  straps := { trlId := 0, trlMaster := false, pairRole := false, smbAddr := 0, bootHost := true }
  units := []
  nextUnit := 1
  tcam := []
  em := []
  flw :=
    { ents := [], sides := [], ueHold := [], busy := [], pend := [], gen := [], arrivals := 0, logSeq := 0
      lastChange := [], scanPos := 0, walkPos := 0 }
  qnt := []
  leafRecs := []
  headRecs := []
  labels := []
  banks := []
  refit := []
  runQueue := []
  runs := []
  epochs := []
  grf :=
    { queue := [], cur := none, done := [], mates := [], replies := [], prepDl := none, commitAt := none, acks := []
      ackDl := none, partDl := none, loads := 0 }
  tmg :=
    { pols := [], queues := [], nodes := [], paused := [], used := 0, cells := 0, xoffCtx := false, xoffCell := false
      lastTurn := [] }
  stm :=
    { slot := 0, expSeq := none, txSeq := 0, sent := 0, cred := 0, credRet := 0, fifo := [], rot := 0, opened := none
      dropping := false, dropTag := none, naks := [], async := [], rsps := [], signal := 0, locked := 0, crc := 0
      crcIv := 0, since := 0 }
  prt := { failed := [], pipeOf := [] }
  spr := { cores := [], queues := [], seq := [], image := none, load := none, port := [] }
  mem := { cells := [], blk := [], ueTimes := [], rowCorr := [], colCorr := [], repairs := [], scrub := [], layouts := [] }
  chans := []
  hif := { host := ⟨6, 16, 63, List.range 64⟩, numVfs := 63, msixEn := List.range 64, msixTab := [], msixPend := [], perst := false, crs := none }
  trl :=
    { links := [], members := [], cand := none, candT := 0, steer := [], claims := [], t1 := none
      away := [] }
  clp :=
    { links := [], hb := none, dirty := [], join := none, sync := 0, heads := [], partnerRec := false
      ownMask := 0xFFFF }
  flt :=
    { failed := [], removed := [], phys := [], grafts := [], affected := [], stale := [], before := 0, holdT := 0, frozen := [] }
  sgn :=
    { session := false, boot := 0, resets := 0, booted := false, bootSat := false, bseq := 0, start := 0, sigma := 0
      d := 0, occ := 0, attr := 0, rails := [0, 0, 0, 0, 0, 0, 0]
      domOn := [0, 0, 0, 0, 0, 0, 0, 0, 0, 0, 0, 0, 0, 0], domT := 0, temp := 0, chains := []
      cal := { version := 0, coef := [], domA := [], domB := [], vscale := [] }
      calPend := none, calSwap := false, fallback := false, hold := false, batches := [] }
  sec :=
    { roots := [], programmed := 0, revoked := 0, imgKey := none, svn := 0, pub := zero32, cert := [], prov := none }
  cfg := { keys := [], device := [], chains := [], loading := none, models := none, base := none }
  lpe :=
    { tokens := 655360, tokT := 0, sampleSeq := 0, snapSeq := 0, snap := none, cutT := 0, cutB := 0, dump := []
      dumpPtr := 0 }
  bridge := { smbAddr := 0, smbStat := 0, ir := 0xFF, jtagData := 0, jtagStat := 0, boundary := 0 }
  free := 0
  out := []

/-- The machine right after reset: no command waits. -/
def State.reset : State := { dev := Dev.reset, pending := [] }

end Sys2Proof.Machine
end

