-- ==== Sys2Proof/Machine/Bits.lean ====
section
/-!
DEFINITION. Bits.lean: bit fields, little-endian byte strings (R4), two's complement, and the sparse maps of the
state. Every reader of a structure of the spec goes through these.
-/
namespace Sys2Proof.Machine.Ops

/-- Bits `[lo + w - 1 : lo]` of a number. -/
def bits (x lo w : Nat) : Nat := (x >>> lo) % 2 ^ w

/-- Bit `i` of a number. -/
def bit (x i : Nat) : Bool := x.testBit i

/-- A Boolean as one bit. -/
def b2n (b : Bool) : Nat := if b then 1 else 0

/-- `x` placed at bit `lo` in a field of `w` bits. -/
def put (x lo w : Nat) : Nat := (x % 2 ^ w) <<< lo

/-- A `w`-bit number read as two's complement. -/
def sgn (w x : Nat) : Int :=
  let y := x % 2 ^ w
  if y < 2 ^ (w - 1) then y else (y : Int) - 2 ^ w

/-- An integer as a `w`-bit two's complement number. -/
def uns (w : Nat) (x : Int) : Nat := (x % (2 ^ w : Int)).toNat

/-- The number that little-endian bytes spell (R4). -/
def leNat : Bytes → Nat
  | [] => 0
  | b :: bs => b.toNat + 256 * leNat bs

/-- `n` little-endian bytes of a number (R4). -/
def leBytes : Nat → Nat → Bytes
  | 0, _ => []
  | n + 1, x => BitVec.ofNat 8 x :: leBytes n (x / 256)

/-- The number that big-endian bytes spell (R69). -/
def beNat (bs : Bytes) : Nat := bs.foldl (fun a b => a * 256 + b.toNat) 0

/-- `n` big-endian bytes of a number. -/
def beBytes (n x : Nat) : Bytes := (leBytes n x).reverse

/-- `len` bytes at `off`; bytes past the end read as zero. -/
def slice (bs : Bytes) (off len : Nat) : Bytes :=
  let s := (bs.drop off).take len
  s ++ List.replicate (len - s.length) 0

/-- The little-endian number in `len` bytes at `off`. -/
def le (bs : Bytes) (off len : Nat) : Nat := leNat (slice bs off len)

/-- One byte as a number; zero past the end. -/
def byteAt (bs : Bytes) (i : Nat) : Nat := (bs.getD i 0).toNat

/-- `bs` with the bytes `v` written at `off`. -/
def splice (bs : Bytes) (off : Nat) (v : Bytes) : Bytes :=
  bs.take off ++ v ++ bs.drop (off + v.length)

/-- Zero bytes. -/
def zeros (n : Nat) : Bytes := List.replicate n 0

/-- A byte string padded with zeros, or cut, to `n` bytes. -/
def padTo (n : Nat) (bs : Bytes) : Bytes := slice bs 0 n

/-- Division rounded up. -/
def cdiv (a b : Nat) : Nat := (a + b - 1) / b

/-- The value at a key. -/
def find? (m : Map α) (k : Nat) : Option α :=
  match m with
  | [] => none
  | (i, v) :: r => if i = k then some v else find? r k

/-- The value at a key, or a default. -/
def getD (m : Map α) (k : Nat) (d : α) : α := (find? m k).getD d

/-- The map with `v` at key `k`, in rising order of keys. -/
def set (m : Map α) (k : Nat) (v : α) : Map α :=
  match m with
  | [] => [(k, v)]
  | (i, w) :: r =>
    if i = k then (k, v) :: r else if k < i then (k, v) :: (i, w) :: r else (i, w) :: set r k v

/-- The map without key `k`. -/
def del (m : Map α) (k : Nat) : Map α := m.filter fun p => p.1 != k

/-- The map with `v` at `k`, where `v = d` is what an unlisted key reads as and is not listed. -/
def setDef [DecidableEq α] (m : Map α) (k : Nat) (d v : α) : Map α :=
  if v = d then del m k else set m k v

/-- The keys of a map rise strictly. -/
def sorted : Map α → Bool
  | [] => true
  | (i, _) :: r => (match r with | [] => true | (j, _) :: _ => decide (i < j)) && sorted r

/-- Applies `f` to the value at `k`, where there is one. -/
def modify (m : Map α) (k : Nat) (f : α → α) : Map α :=
  match find? m k with
  | some v => set m k (f v)
  | none => m

/-- The index of the first element that satisfies `p`. -/
def firstIdx (p : α → Bool) : List α → Option Nat
  | [] => none
  | a :: r => if p a then some 0 else (firstIdx p r).map (· + 1)

/-- Elements 0 to `n - 1` by a function. -/
def tab (n : Nat) (f : Nat → α) : List α := (List.range n).map f

/-- The lowest number below `n` that satisfies `p`. -/
def lowest (n : Nat) (p : Nat → Bool) : Option Nat := (List.range n).find? p

/-- How many of the bits 0 to `w - 1` are set. -/
def popcount (w x : Nat) : Nat := ((List.range w).filter (fun i => x.testBit i)).length

end Sys2Proof.Machine.Ops
end

