-- ==== Sys2Proof/Machine/Ops.lean ====
section
/-!
DEFINITION. Ops.lean: the named operations over the device: register fields, shadows, counters, interrupts, the record of
outputs, open values, the time base, units of work. Every meaning goes through these.
-/
namespace Sys2Proof.Machine.Ops

/-- What only the edges of `SYS_RST_N` and VDD_AON change: the level of `SYS_RST_N`, a rail that has fallen, the straps (R473, R515);
`t` with those of `d`. -/
def sealed (d t : Dev) : Dev :=
  { t with straps := d.straps, pins := { t.pins with sysRstN := d.pins.sysRstN, railLost := d.pins.railLost } }

/-- The effect `f` on the device, unless a rail has fallen while `SYS_RST_N` was high (R515). -/
def runAon (s : State) (f : Dev → Dev) : Host.Outcome State Fault Refusal :=
  if s.dev.pins.railLost then .fault .railUnspecified else .next { s with dev := sealed s.dev (f s.dev) }

/-- The form of nearly every meaning: the effect `f`; a device that `SYS_RST_N` holds in reset does nothing (R473). Only the AON domain
and the TAP act then, in the form of `runAon`. -/
def run (s : State) (f : Dev → Dev) : Host.Outcome State Fault Refusal :=
  runAon s fun d => if d.pins.sysRstN then f d else d

/-- The value of a register field. -/
def rd (d : Dev) (f : Fld) : Nat := getD d.regs f.key f.rst

/-- A one-bit field. -/
def rdB (d : Dev) (f : Fld) : Bool := rd d f % 2 == 1

/-- The device with a register field set, cut to its width. -/
def wr (d : Dev) (f : Fld) (v : Nat) : Dev := { d with regs := setDef d.regs f.key f.rst (v % 2 ^ f.w) }

/-- Several fields. -/
def wrs (d : Dev) (l : List (Fld × Nat)) : Dev := l.foldl (fun d p => wr d p.1 p.2) d

/-- The two halves of a 64-bit value in an LO and a HI field. -/
def rd64 (d : Dev) (lo hi : Fld) : Nat := rd d lo + 2 ^ 32 * rd d hi
def wr64 (d : Dev) (lo hi : Fld) (v : Nat) : Dev := wr (wr d lo (v % 2 ^ 32)) hi (v / 2 ^ 32)

/-- The shadow value of an RWS field: the value written last (R5, R285). -/
def shd (d : Dev) (f : Fld) : Nat := getD d.shadow f.key (rd d f)

/-- A shadow value placed. -/
def wrShd (d : Dev) (f : Fld) (v : Nat) : Dev := { d with shadow := set d.shadow f.key (v % 2 ^ f.w) }

/-- The shadows of the fields become active at a hand-over (R285). -/
def handover (d : Dev) (fs : List Fld) : Dev :=
  fs.foldl (fun d f => match find? d.shadow f.key with
    | some v => { wr d f v with shadow := del d.shadow f.key }
    | none => d) d

/-- A 64-bit counter (R10). -/
def ctr (d : Dev) (a : Nat) : Nat := getD d.ctrs a 0
def setCtr (d : Dev) (a v : Nat) : Dev := { d with ctrs := setDef d.ctrs a 0 (v % 2 ^ 64) }
/-- Counts `n` events. -/
def count (d : Dev) (a n : Nat) : Dev := setCtr d a (ctr d a + n)
/-- Counts one event. -/
def tick (d : Dev) (a : Nat) : Dev := count d a 1
/-- Counts one event where `b` holds. -/
def tickIf (b : Bool) (d : Dev) (a : Nat) : Dev := if b then tick d a else d

/-- Records an output. -/
def emit (d : Dev) (o : Out) : Dev := { d with out := o :: d.out }

/-- A field of a register that each function (graft port, snapshot, bank status) has a copy of: function `p`'s copy
(R269, R504). -/
def portF (p : Nat) (f : Fld) : Fld := { f with key := f.key + p * 2 ^ 40 }

/-- The copy that a function reaches; the management bridge and the cores reach the PF's (R499). -/
def copyNo (fn : Nat) : Nat := if fn = 64 then 0 else fn

/-- A field of a register window onto one of many objects (a policer, a queue, a node): object `i`'s copy (R314). -/
def objF (i : Nat) (f : Fld) : Fld := { f with key := f.key + (i + 1) * 2 ^ 50 }

/-- The next open value of the run, and the device with the counter advanced (log entry 4). -/
def fresh (d : Dev) : Nat × Dev := (Config.freeValue d.free, { d with free := d.free + 1 })

/-- The time base in ns (R138). -/
def now (d : Dev) : Nat := d.tb.t / 2 ^ 32

/-- The time base in the 64 bits of a register pair or a record. -/
def now64 (d : Dev) : Nat := now d % 2 ^ 64

/-- Entries of a function's MSI-X table (R342). -/
def msixSize (fn : Nat) : Nat := if fn = 0 then 1040 else 16

/-- A word of an MSI-X table entry; an entry is masked out of reset (log entry 8). -/
def msixWord (d : Dev) (fn vec w : Nat) : Nat := getD d.hif.msixTab ((fn * 2048 + vec) * 4 + w) (if w = 3 then 1 else 0)

/-- Address of the counter `VEC_BAD` (R366). -/
def vecBad : Nat := 0x01101000

/-- An event fires vector `vec` of function `fn` (R342). -/
def msix (d : Dev) (fn vec : Nat) : Dev :=
  if vec ≥ msixSize fn ∨ fn ∉ d.hif.msixEn then tick d vecBad
  else if bit (msixWord d fn vec 3) 0 then
    { d with hif := { d.hif with msixPend := if fn * 2048 + vec ∈ d.hif.msixPend then d.hif.msixPend
        else (fn * 2048 + vec) :: d.hif.msixPend } }
  else emit d (.msix fn vec)

/-- The PF vector of a VECTOR field, raised where the EN field is set. -/
def irq (d : Dev) (en vec : Fld) : Dev := if rdB d en then msix d 0 (rd d vec) else d

/-- A unit of work in flight. -/
def unit? (d : Dev) (u : Nat) : Option UnitRec := find? d.units u
def setUnit (d : Dev) (u : Nat) (r : UnitRec) : Dev := { d with units := set d.units u r }
def delUnit (d : Dev) (u : Nat) : Dev := { d with units := del d.units u }
def modUnit (d : Dev) (u : Nat) (f : UnitRec → UnitRec) : Dev := { d with units := modify d.units u f }

/-- The effect `f` for the unit `u` where it is in flight; otherwise nothing. -/
def withUnit (d : Dev) (u : Nat) (f : UnitRec → Dev) : Dev :=
  match unit? d u with
  | some r => f r
  | none => d

/-- The state of a gate (R420). -/
def gate (d : Dev) (k : Nat) : GateSt := d.clk.gate.toList.getD k .off
def gateOn (d : Dev) (k : Nat) : Bool := gate d k == .on
/-- The state of a power domain (R423). -/
def dom (d : Dev) (k : Nat) : GateSt := d.clk.dom.toList.getD k .off
def domOn (d : Dev) (k : Nat) : Bool := dom d k == .on
/-- The domain has power: until its switches open, nothing in it has stopped (R424). -/
def powered (d : Dev) (k : Nat) : Bool := dom d k == .on || dom d k == .pendOff

/-- The encoding of a gate or domain state (R420, R425). -/
def gateCode : GateSt → Nat
  | .off => 0 | .on => 1 | .pendOff => 2 | .pendOn => 3

/-- Folds an effect over a list. -/
def each (l : List α) (d : Dev) (f : Dev → α → Dev) : Dev := l.foldl f d

/-- Groups of 64 bytes, rounded up. -/
def chunks64 (n : Nat) : Nat := cdiv n 64

end Sys2Proof.Machine.Ops
end

