-- ==== Sys2Proof/Machine/Registers.lean ====
section
/-!
DEFINITION. Registers.lean: the register map of PF BAR0 (21_register_index and the register tables of each
chapter): one field name per table row, one row per register, one name per 64-bit counter.
The offsets, widths, access codes, reset values and ranges are those of the tables.
-/
namespace Sys2Proof.Machine

def Reg.topIdStepMinor : Fld := .at (0x00000000) 0 4 1
def Reg.topIdStepMajor : Fld := .at (0x00000000) 4 4 0xb
def Reg.topIdVariant : Fld := .at (0x00000000) 8 8 0
def Reg.topIdPart : Fld := .at (0x00000000) 16 16 0x9648
def Reg.topGateEn0En : Fld := .at (0x00000100) 0 16 0xf
def Reg.topGateEn1En : Fld := .at (0x00000104) 0 8 0x92
def Reg.topBuserrLogAperture : Fld := .at (0x00000110) 0 5 0
def Reg.topBuserrLogFunc : Fld := .at (0x00000110) 5 7 0
def Reg.topBuserrLogWrite : Fld := .at (0x00000110) 12 1 0
def Reg.topBuserrLogCause : Fld := .at (0x00000110) 13 3 0
def Reg.topBuserrLogMore : Fld := .at (0x00000110) 16 1 0
def Reg.topBuserrLogValid : Fld := .at (0x00000110) 17 1 0
def Reg.topBuserrAddrLoAddr : Fld := .at (0x00000114) 0 32 0
def Reg.topBuserrAddrHiAddr : Fld := .at (0x00000118) 0 32 0
def Reg.clkRootStatLocked : Fld := .at (0x00100000) 0 1 0
def Reg.clkRootStatSrc : Fld := .at (0x00100000) 1 1 0
def Reg.clkRootStatHolding : Fld := .at (0x00100000) 2 1 0
def Reg.clkSrcCtlSel : Fld := .at (0x00100004) 0 1 0
def Reg.clkSrcCtlFbEn : Fld := .at (0x00100004) 1 1 1
def Reg.clkSrcStatRefReady : Fld := .at (0x00100008) 0 1 0
def Reg.clkSrcStatFbReady : Fld := .at (0x00100008) 1 1 0
def Reg.clkSrcStatDisagree : Fld := .at (0x00100008) 2 1 0
def Reg.clkSwStatResult : Fld := .at (0x0010000C) 0 2 0
def Reg.clkMonCfgTol : Fld := .at (0x00100010) 0 4 5
def Reg.clkMonStatTrip : Fld := .at (0x00100014) 0 1 0
def Reg.clkMonStatFatal : Fld := .at (0x00100014) 1 1 0
def Reg.clkMonStatLastCause : Fld := .at (0x00100014) 2 2 0
def Reg.clkMonStatSdRefLost : Fld := .at (0x00100014) 4 1 0
def Reg.clkIrqVector : Fld := .at (0x00100018) 0 11 0
def Reg.clkIrqEn : Fld := .at (0x00100018) 11 1 0
def Reg.clkDvfsCfgMode (n : Nat) : Fld := .at (0x00100100 + 16 * n) 0 1 0
def Reg.clkDvfsCfgFloor (n : Nat) : Fld := .at (0x00100100 + 16 * n) 1 3 7
def Reg.clkDvfsCtlTarget (n : Nat) : Fld := .at (0x00100104 + 16 * n) 0 3 7
def Reg.clkDvfsStatPoint (n : Nat) : Fld := .at (0x00100108 + 16 * n) 0 3 7
def Reg.clkDvfsStatBusy (n : Nat) : Fld := .at (0x00100108 + 16 * n) 3 1 0
def Reg.clkDvfsStatRefused (n : Nat) : Fld := .at (0x00100108 + 16 * n) 4 1 0
def Reg.pwrDomReqOn : Fld := .at (0x00100200) 0 14 0x3fff
def Reg.pwrDomStatState : Fld := .at (0x00100204) 0 28 0x5555555
def Reg.pwrDomRejDomain : Fld := .at (0x00100208) 0 4 0
def Reg.pwrDomRejReason : Fld := .at (0x00100208) 4 2 0
def Reg.pwrDomRejValid : Fld := .at (0x00100208) 6 1 0
def Reg.clkThermTemp (n : Nat) : Fld := .at (0x00100300 + 4 * n) 0 11 0
def Reg.clkThermCfgWarn : Fld := .at (0x00100340) 0 11 0x1a4
def Reg.clkThermStatTrip : Fld := .at (0x00100344) 0 1 0
def Reg.clkThermStatWarn : Fld := .at (0x00100344) 1 1 0
def Reg.clkThermStatMax : Fld := .at (0x00100344) 2 11 0
def Reg.clkThermStatHot : Fld := .at (0x00100344) 13 4 0
def Reg.clkTbNowLoNs : Fld := .at (0x00100800) 0 32 0
def Reg.clkTbNowHiNs : Fld := .at (0x00100804) 0 32 0
def Reg.clkTbAdjRate : Fld := .at (0x00100808) 0 32 0
def Reg.clkTbStepLoNs : Fld := .at (0x00100810) 0 32 0
def Reg.clkTbStepHiNs : Fld := .at (0x00100814) 0 32 0
def Reg.clkTbSlewNs : Fld := .at (0x00100818) 0 32 0
def Reg.clkTbStatFallback : Fld := .at (0x0010081C) 0 1 0
def Reg.clkTbStatUnsynced : Fld := .at (0x0010081C) 1 1 0
def Reg.clkTbStatSlewActive : Fld := .at (0x0010081C) 2 1 0
def Reg.clkTbStatStepPend : Fld := .at (0x0010081C) 3 1 0
def Reg.clkTbStatPpsValid : Fld := .at (0x0010081C) 4 1 0
def Reg.clkTbCtlPpsEn : Fld := .at (0x00100820) 0 1 0
def Reg.clkTbCtlPpsGpio : Fld := .at (0x00100820) 1 4 0
def Reg.clkTbPpsLoNs : Fld := .at (0x00100828) 0 32 0
def Reg.clkTbPpsHiNs : Fld := .at (0x0010082C) 0 32 0
def Reg.cfgBootStatState : Fld := .at (0x00200000) 0 2 0
def Reg.cfgBootStatBootMode : Fld := .at (0x00200000) 2 1 0
def Reg.cfgBootStatSource : Fld := .at (0x00200000) 3 2 0
def Reg.cfgBootStatCode : Fld := .at (0x00200000) 5 8 0
def Reg.cfgBootStatCodeA : Fld := .at (0x00200000) 13 8 0
def Reg.cfgBootStatModelsCode : Fld := .at (0x00200000) 21 8 0
def Reg.cfgBootStatRej : Fld := .at (0x00200000) 29 1 0
def Reg.cfgLoadAddrLoAddr : Fld := .at (0x00200004) 0 32 0
def Reg.cfgLoadAddrHiAddr : Fld := .at (0x00200008) 0 32 0
def Reg.cfgLoadCtlLoad : Fld := .at (0x0020000C) 0 1 0
def Reg.cfgLoadCtlSrc : Fld := .at (0x0020000C) 1 2 0
def Reg.cfgFailOffOffset : Fld := .at (0x00200010) 0 32 0
def Reg.cfgQspiCfgDiv : Fld := .at (0x00200014) 0 4 1
def Reg.cfgImgVerVersion : Fld := .at (0x00200018) 0 32 0
def Reg.cfgImgSvnSvn : Fld := .at (0x0020001C) 0 6 0
def Reg.cfgImgDigestBytes (n : Nat) : Fld := .at (0x00200020 + 4 * n) 0 32 0
def Reg.cfgDigestBytes (n : Nat) : Fld := .at (0x00200040 + 4 * n) 0 32 0
def Reg.cfgBootRptLoAddr : Fld := .at (0x00200060) 0 32 0
def Reg.cfgBootRptHiAddr : Fld := .at (0x00200064) 0 32 0
def Reg.cfgSlotOwner (n : Nat) : Fld := .at (0x00204000 + 4 * n) 0 6 0
def Reg.cfgSlotAssigned (n : Nat) : Fld := .at (0x00204000 + 4 * n) 6 1 0
def Reg.cfgSlotState (n : Nat) : Fld := .at (0x00204000 + 4 * n) 7 2 0
def Reg.cfgSlotKind (n : Nat) : Fld := .at (0x00204000 + 4 * n) 9 1 0
def Reg.cfgSlotPipes (n : Nat) : Fld := .at (0x00204000 + 4 * n) 10 8 0
def Reg.cfgSlotHost (n : Nat) : Fld := .at (0x00204000 + 4 * n) 18 8 0xff
def Reg.cfgSlotIdModelId (n : Nat) : Fld := .at (0x00204400 + 4 * n) 0 32 0
def Reg.cfgSlotVerVersion (n : Nat) : Fld := .at (0x00204800 + 4 * n) 0 32 0
def Reg.cfgTenantMdlSlotMax (n : Nat) : Fld := .at (0x00204C00 + 4 * n) 0 9 0x100
def Reg.cfgTenantMdlSigReq (n : Nat) : Fld := .at (0x00204C00 + 4 * n) 9 1 0
def Reg.cfgTenantMdlLabelEn (n : Nat) : Fld := .at (0x00204C00 + 4 * n) 10 1 0
def Reg.cfgTenantMdlSlots (n : Nat) : Fld := .at (0x00204C00 + 4 * n) 11 9 0
def Reg.cfgInfStart (n : Nat) : Fld := .at (0x00204D00 + 8 * n) 0 16 0
def Reg.cfgInfEnd (n : Nat) : Fld := .at (0x00204D00 + 8 * n) 16 16 0
def Reg.cfgInfLaterLen (n : Nat) : Fld := .at (0x00204D04 + 8 * n) 0 16 0
def Reg.cfgRefitPolEnable (n : Nat) : Fld := .at (0x00205000 + 8 * n) 0 1 0
def Reg.cfgRefitPolTarget (n : Nat) : Fld := .at (0x00205000 + 8 * n) 1 1 0
def Reg.cfgRefitPolInterval (n : Nat) : Fld := .at (0x00205000 + 8 * n) 2 16 0x3e8
def Reg.cfgRefitLimMinLabels (n : Nat) : Fld := .at (0x00205004 + 8 * n) 0 20 0x400
def Reg.cfgRefitLimMaxPct (n : Nat) : Fld := .at (0x00205004 + 8 * n) 20 7 0x64
def Reg.cfgRefitStatState (n : Nat) : Fld := .at (0x00205800 + 4 * n) 0 2 0
def Reg.cfgRefitStatLastCode (n : Nat) : Fld := .at (0x00205800 + 4 * n) 2 8 0
def Reg.cfgRefitStatChanged (n : Nat) : Fld := .at (0x00205800 + 4 * n) 10 20 0
def Reg.cfgRefitCtlSlot : Fld := .at (0x00205C00) 0 8 0
def Reg.cfgRefitCtlCommit : Fld := .at (0x00205C00) 8 1 0
def Reg.cfgRefitCtlDiscard : Fld := .at (0x00205C00) 9 1 0
def Reg.cfgFlowqStatDepth : Fld := .at (0x00205C10) 0 17 0
def Reg.grfEpochCurrent : Fld := .at (0x00300000) 0 8 0
def Reg.grfEpochLive : Fld := .at (0x00300000) 8 4 0
def Reg.grfEpochValid : Fld := .at (0x00300000) 12 1 0
def Reg.grfBoundaryLoNs : Fld := .at (0x00300004) 0 32 0
def Reg.grfBoundaryHiNs : Fld := .at (0x00300008) 0 32 0
def Reg.grfEpochPinPins (n : Nat) : Fld := .at (0x00300010 + 4 * n) 0 19 0
def Reg.grfEpochPinState (n : Nat) : Fld := .at (0x00300010 + 4 * n) 19 2 0
def Reg.grfDrainCfgLimit : Fld := .at (0x00300020) 0 14 0x64
def Reg.grfGroupCfg0PrepTmo : Fld := .at (0x00300024) 0 16 0x3e8
def Reg.grfGroupCfg0Lead : Fld := .at (0x00300024) 16 16 0x64
def Reg.grfGroupCfg1CommitTmo : Fld := .at (0x00300028) 0 16 0x3e8
def Reg.grfGroupStatCoord : Fld := .at (0x0030002C) 0 1 0
def Reg.grfGroupStatSplit : Fld := .at (0x0030002C) 1 1 0
def Reg.grfGroupStatMember : Fld := .at (0x0030002C) 2 3 0
def Reg.grfExpiryAct (n : Nat) : Fld := .at (0x00300100 + 4 * n) 0 2 0
def Reg.grfStageBaseLoAddr (n : Nat) : Fld := .at (0x00300200 + 16 * n) 0 32 0
def Reg.grfStageBaseHiAddr (n : Nat) : Fld := .at (0x00300204 + 16 * n) 0 32 0
def Reg.grfStageSizeSize (n : Nat) : Fld := .at (0x00300208 + 16 * n) 0 20 0
def Reg.grfListLoAddr : Fld := .at (0x00301000) 0 32 0
def Reg.grfListHiAddr : Fld := .at (0x00301004) 0 32 0
def Reg.grfReportLoAddr : Fld := .at (0x00301008) 0 32 0
def Reg.grfReportHiAddr : Fld := .at (0x0030100C) 0 32 0
def Reg.grfSubmitGo : Fld := .at (0x00301010) 0 1 0
def Reg.grfStatusCode : Fld := .at (0x00301014) 0 8 0
def Reg.grfStatusBusy : Fld := .at (0x00301014) 8 1 0
def Reg.grfStatusStage : Fld := .at (0x00301014) 9 3 0
def Reg.grfStatusEpoch : Fld := .at (0x00301014) 12 8 0
def Reg.grfStatusItem : Fld := .at (0x00301014) 20 8 0
def Reg.grfStatusNotLoaded : Fld := .at (0x00301014) 28 1 0
def Reg.grfPortIrqVector : Fld := .at (0x00301018) 0 11 0
def Reg.grfPortIrqEn : Fld := .at (0x00301018) 11 1 0
def Reg.prtModeMode : Fld := .at (0x00400000) 0 2 0
def Reg.prtPortCtlEnable (n : Nat) : Fld := .at (0x00400100 + 4 * n) 0 1 0
def Reg.prtPortCtlAnEn (n : Nat) : Fld := .at (0x00400100 + 4 * n) 1 1 1
def Reg.prtPortCtlLtEn (n : Nat) : Fld := .at (0x00400100 + 4 * n) 2 1 1
def Reg.prtPortCtlMtu (n : Nat) : Fld := .at (0x00400100 + 4 * n) 3 14 0x2400
def Reg.prtPortCtlPfcEn (n : Nat) : Fld := .at (0x00400100 + 4 * n) 17 8 0
def Reg.prtPortStatLinkUp (n : Nat) : Fld := .at (0x00400180 + 4 * n) 0 1 0
def Reg.prtPortStatAnFail (n : Nat) : Fld := .at (0x00400180 + 4 * n) 1 1 0
def Reg.prtPortStatLaneFail (n : Nat) : Fld := .at (0x00400180 + 4 * n) 2 1 0
def Reg.prtPortStatXoff (n : Nat) : Fld := .at (0x00400180 + 4 * n) 3 1 0
def Reg.prtLaneCtlRecal (n : Nat) : Fld := .at (0x00400200 + 4 * n) 0 1 0
def Reg.prtLaneCtlRecalBusy (n : Nat) : Fld := .at (0x00400200 + 4 * n) 1 1 0
def Reg.prtPfcCfg0XoffFree : Fld := .at (0x00400300) 0 18 0x1000
def Reg.prtPfcCfg1XonFree : Fld := .at (0x00400304) 0 18 0x2000
def Reg.stmCtlEnable : Fld := .at (0x00500000) 0 1 0
def Reg.stmCtlRetrain : Fld := .at (0x00500000) 1 1 0
def Reg.stmCtlAllow8lane : Fld := .at (0x00500000) 2 1 1
def Reg.stmStatState : Fld := .at (0x00500004) 0 3 0
def Reg.stmStatLanes8 : Fld := .at (0x00500004) 3 1 0
def Reg.stmStatWinRej : Fld := .at (0x00500004) 4 1 0
def Reg.stmStatParamFail : Fld := .at (0x00500004) 5 1 0
def Reg.stmStatTrainTimeout : Fld := .at (0x00500004) 6 1 0
def Reg.stmWinCfgWindow : Fld := .at (0x00500010) 0 7 0x30
def Reg.stmWinCfgWindowArmed : Fld := .at (0x00500010) 7 1 0
def Reg.stmWinMinMin : Fld := .at (0x00500014) 0 7 0x14
def Reg.stmCreditCfgInit : Fld := .at (0x00500018) 0 9 0x40
def Reg.stmPipesMask : Fld := .at (0x0050001C) 0 8 0
def Reg.stmAsyncEn0Tenant : Fld := .at (0x00500020) 0 32 0
def Reg.stmAsyncEn1Tenant : Fld := .at (0x00500024) 0 32 0
def Reg.stmAsyncCfgTimeout : Fld := .at (0x00500028) 0 16 0x64
def Reg.stmFallbackVerdict0Action : Fld := .at (0x00500030) 0 4 1
def Reg.stmFallbackVerdict0Class : Fld := .at (0x00500030) 4 8 0
def Reg.stmFallbackVerdict0Colour : Fld := .at (0x00500030) 12 2 0
def Reg.stmFallbackVerdict1Queue : Fld := .at (0x00500034) 0 20 0
def Reg.stmPhyLatRxNs : Fld := .at (0x00500038) 0 16 0
def Reg.stmPhyLatTxNs : Fld := .at (0x00500038) 16 16 0
def Reg.stmErrCfgRetrainThresh : Fld := .at (0x0050003C) 0 16 0x40
def Reg.prsStartPortNode (n : Nat) : Fld := .at (0x00600000 + 4 * n) 0 8 0
def Reg.prsStartStemHeaderNode : Fld := .at (0x00600080) 0 8 0
def Reg.prsStartStemKeyNode : Fld := .at (0x00600080) 8 8 0
def Reg.prsGraphStatBank : Fld := .at (0x00600084) 0 8 0
def Reg.prsGraphStatStaged : Fld := .at (0x00600084) 8 8 0
def Reg.prsStartStemPHeaderNode (n : Nat) : Fld := .at (0x006000C0 + 4 * n) 0 8 0
def Reg.prsStartStemPKeyNode (n : Nat) : Fld := .at (0x006000C0 + 4 * n) 8 8 0
def Reg.clsTcamFreeFree : Fld := .at (0x00600100) 0 19 0x10000
def Reg.clsEmFreeFree : Fld := .at (0x00600104) 0 19 0x40000
def Reg.clsRuleCntBaseLoAddr : Fld := .at (0x00600108) 0 32 0
def Reg.clsRuleCntBaseHiAddr : Fld := .at (0x0060010C) 0 32 0
def Reg.clsTruncMap0Tenant : Fld := .at (0x00600200) 0 32 0
def Reg.clsTruncMap1Tenant : Fld := .at (0x00600204) 0 32 0
def Reg.clsMalActAct0 (n : Nat) : Fld := .at (0x00600400 + 4 * n) 0 4 0
def Reg.clsMalActAct1 (n : Nat) : Fld := .at (0x00600400 + 4 * n) 4 4 0
def Reg.clsMalActAct2 (n : Nat) : Fld := .at (0x00600400 + 4 * n) 8 4 0
def Reg.clsMalActAct3 (n : Nat) : Fld := .at (0x00600400 + 4 * n) 12 4 0
def Reg.clsMalActAct4 (n : Nat) : Fld := .at (0x00600400 + 4 * n) 16 4 0
def Reg.clsMalActAct5 (n : Nat) : Fld := .at (0x00600400 + 4 * n) 20 4 0
def Reg.clsMalActAct6 (n : Nat) : Fld := .at (0x00600400 + 4 * n) 24 4 0
def Reg.clsMalActAct7 (n : Nat) : Fld := .at (0x00600400 + 4 * n) 28 4 0
def Reg.clsCompatDisp (n : Nat) : Fld := .at (0x00600800 + 4 * n) 0 2 0
def Reg.clsCompatRedDrop (n : Nat) : Fld := .at (0x00600800 + 4 * n) 2 1 1
def Reg.clsCompatDefQueue (n : Nat) : Fld := .at (0x00600800 + 4 * n) 3 20 0
def Reg.flwCfgBucketLog2 : Fld := .at (0x00700000) 0 5 0x17
def Reg.flwSeedLoSeed : Fld := .at (0x00700004) 0 32 0
def Reg.flwSeedHiSeed : Fld := .at (0x00700008) 0 32 0
def Reg.flwTimeOriginLoTime : Fld := .at (0x00700010) 0 32 0
def Reg.flwTimeOriginHiTime : Fld := .at (0x00700014) 0 32 0
def Reg.flwOrderCfgHorizon : Fld := .at (0x00700020) 0 10 0
def Reg.flwAgeCfgTimeout : Fld := .at (0x00700030) 0 28 0x1c9c380
def Reg.flwScanCfgEnable : Fld := .at (0x00700034) 0 1 0
def Reg.flwScanCfgRate : Fld := .at (0x00700034) 1 13 0x400
def Reg.flwContestCfgWindow : Fld := .at (0x00700038) 0 17 0x7d0
def Reg.flwShadowCtlEnable : Fld := .at (0x00700040) 0 1 0
def Reg.flwShadowCtlSnap : Fld := .at (0x00700040) 1 1 0
def Reg.flwShadowCtlRate : Fld := .at (0x00700040) 2 12 0x40
def Reg.flwShadowBaseLoAddr : Fld := .at (0x00700044) 0 32 0
def Reg.flwShadowBaseHiAddr : Fld := .at (0x00700048) 0 32 0
def Reg.flwShadowStatLast : Fld := .at (0x0070004C) 0 24 0
def Reg.flwShadowStatMismatch : Fld := .at (0x0070004C) 24 1 0
def Reg.flwLogCfgEntries : Fld := .at (0x00700050) 0 20 0x10000
def Reg.flwLogStatOverrun : Fld := .at (0x00700054) 0 1 0
def Reg.flwLogWrIndex : Fld := .at (0x00700058) 0 20 0
def Reg.flwLogRdIndex : Fld := .at (0x0070005C) 0 20 0
def Reg.flwTableBaseLoAddr : Fld := .at (0x00700060) 0 32 0
def Reg.flwTableBaseHiAddr : Fld := .at (0x00700064) 0 32 0
def Reg.flwSideBaseLoAddr : Fld := .at (0x00700068) 0 32 0
def Reg.flwSideBaseHiAddr : Fld := .at (0x0070006C) 0 32 0
def Reg.flwCmdOp : Fld := .at (0x00700100) 0 3 0
def Reg.flwCmdSrc : Fld := .at (0x00700100) 3 8 0
def Reg.flwCmdNoAge : Fld := .at (0x00700100) 11 1 0
def Reg.flwCmdStatBusy : Fld := .at (0x00700104) 0 1 0
def Reg.flwCmdStatResult : Fld := .at (0x00700104) 1 3 0
def Reg.flwCmdStatEntry : Fld := .at (0x00700104) 4 26 0
def Reg.flwCmdKeyWord (n : Nat) : Fld := .at (0x00700140 + 4 * n) 0 32 0
def Reg.flwCmdDataWord (n : Nat) : Fld := .at (0x00700180 + 4 * n) 0 32 0
def Reg.flwTurnTu (n : Nat) : Fld := .at (0x00700200 + 4 * n) 0 11 0
def Reg.flwTurnSlack (n : Nat) : Fld := .at (0x00700200 + 4 * n) 11 11 0
def Reg.flwAgeTmoTimeout (n : Nat) : Fld := .at (0x00700600 + 4 * n) 0 28 0
def Reg.flwTenantCfgMax (n : Nat) : Fld := .at (0x00700700 + 4 * n) 0 26 0
def Reg.flwTenantCfgFlap (n : Nat) : Fld := .at (0x00700700 + 4 * n) 26 2 0
def Reg.flwTenantCntCount (n : Nat) : Fld := .at (0x00700800 + 4 * n) 0 26 0
def Reg.feaPipeCfgPostLen (n : Nat) : Fld := .at (0x00800000 + 4 * n) 0 8 0
def Reg.feaPipeCfgPreLen (n : Nat) : Fld := .at (0x00800000 + 4 * n) 8 8 0x40
def Reg.feaPipeCfgWinCyc (n : Nat) : Fld := .at (0x00800000 + 4 * n) 16 8 0x18
def Reg.feaWinCfgOffset : Fld := .at (0x00800040) 0 10 0
def Reg.feaProgFreeFree (n : Nat) : Fld := .at (0x00800080 + 4 * n) 0 14 0x2000
def Reg.feaDescFreeFree : Fld := .at (0x008000C0) 0 9 0x100
def Reg.feaWinBaseLoAddr : Fld := .at (0x008000C8) 0 32 0
def Reg.feaWinBaseHiAddr : Fld := .at (0x008000CC) 0 32 0
def Reg.feaWinFreeFree : Fld := .at (0x008000D0) 0 24 0
def Reg.feaDescWord (n m : Nat) : Fld := .at (0x00804000 + 32 * n + 4 * m) 0 32 0
def Reg.qntSelPipe : Fld := .at (0x00900000) 0 3 0
def Reg.qntSelSlot : Fld := .at (0x00900000) 3 8 0
def Reg.qntSelTensor : Fld := .at (0x00900000) 11 8 0
def Reg.qntSelClear : Fld := .at (0x00900000) 19 1 0
def Reg.qntTsStatValid : Fld := .at (0x00900004) 0 1 0
def Reg.qntTsStatScale : Fld := .at (0x00900004) 1 6 0
def Reg.qntTsStatHeld : Fld := .at (0x00900004) 7 1 0
def Reg.qntTsStatAdapt : Fld := .at (0x00900004) 8 1 0
def Reg.qntTsStatFmt : Fld := .at (0x00900004) 9 4 0
def Reg.qntTsStatAmaxE : Fld := .at (0x00900004) 13 9 0
def Reg.qntTsStatAmaxZero : Fld := .at (0x00900004) 22 1 1
def Reg.qntTsIntvDone : Fld := .at (0x00900008) 0 21 0
def Reg.qntTsIsatSat : Fld := .at (0x0090000C) 0 21 0
def Reg.qntTsValWord (n : Nat) : Fld := .at (0x00900010 + 4 * n) 0 32 0
def Reg.qntHoldSlot : Fld := .at (0x00900080) 0 8 0
def Reg.qntHoldTensor : Fld := .at (0x00900080) 8 8 0
def Reg.qntHoldHold : Fld := .at (0x00900080) 16 1 0
def Reg.qntHoldStatRej : Fld := .at (0x00900084) 0 1 0
def Reg.qntTsFreeFree (n : Nat) : Fld := .at (0x00900100 + 4 * n) 0 11 0x400
def Reg.qntEvtStatScaleRange : Fld := .at (0x00900140) 0 1 0
def Reg.qntEvtStatPipe : Fld := .at (0x00900140) 1 3 0
def Reg.qntEvtStatSlot : Fld := .at (0x00900140) 4 8 0
def Reg.qntEvtStatTensor : Fld := .at (0x00900140) 12 8 0
def Reg.qntEvtStatHigh : Fld := .at (0x00900140) 20 1 0
def Reg.espMapSpare (n : Nat) : Fld := .at (0x00A00000 + 4 * n) 0 6 0x20
def Reg.espMapLastFail (n : Nat) : Fld := .at (0x00A00000 + 4 * n) 6 6 0x3f
def Reg.espNodeFreeFree (n : Nat) : Fld := .at (0x00A00040 + 4 * n) 0 18 0x2aaa0
def Reg.espPageFreeFree (n : Nat) : Fld := .at (0x00A00080 + 4 * n) 0 7 0x40
def Reg.espLpsCfgEnable : Fld := .at (0x00A00100) 0 1 0
def Reg.espLpsCfgHorizon : Fld := .at (0x00A00100) 1 16 0x3e8
def Reg.espLpsStatOutstanding : Fld := .at (0x00A00104) 0 22 0
def Reg.espLpsStatFull : Fld := .at (0x00A00104) 22 1 0
def Reg.espLpsBaseLoAddr : Fld := .at (0x00A00108) 0 32 0
def Reg.espLpsBaseHiAddr : Fld := .at (0x00A0010C) 0 32 0
def Reg.espLpsSizeSize : Fld := .at (0x00A00110) 0 24 0
def Reg.espRefitCtlSlot : Fld := .at (0x00A00200) 0 8 0
def Reg.espRefitCtlSwap : Fld := .at (0x00A00200) 8 1 0
def Reg.espRefitCtlClear : Fld := .at (0x00A00200) 9 1 0
def Reg.espRefitStatBusy : Fld := .at (0x00A00204) 0 1 0
def Reg.espRefitStatRej : Fld := .at (0x00A00204) 1 1 0
def Reg.espRefitStatBank : Fld := .at (0x00A00204) 2 1 0
def Reg.espRefitAccLoAddr : Fld := .at (0x00A00208) 0 32 0
def Reg.espRefitAccHiAddr : Fld := .at (0x00A0020C) 0 32 0
def Reg.mxtMapSpare0 : Fld := .at (0x00B00000) 0 6 0x20
def Reg.mxtMapSpare1 : Fld := .at (0x00B00000) 6 6 0x21
def Reg.mxtMapLastFail : Fld := .at (0x00B00000) 12 6 0x3f
def Reg.mxtWtFreeFree (n : Nat) : Fld := .at (0x00B00040 + 4 * n) 0 17 0x10000
def Reg.mxtStepFreeFree (n : Nat) : Fld := .at (0x00B000C0 + 4 * n) 0 16 0
def Reg.mxtTurnCfgOffset : Fld := .at (0x00B00140) 0 10 0
def Reg.mxtTurnCfgLanes : Fld := .at (0x00B00140) 10 4 4
def Reg.mxtTurnCfgLat : Fld := .at (0x00B00140) 14 4 0xa
def Reg.mxtTurnFreeFree (n : Nat) : Fld := .at (0x00B00180 + 4 * n) 0 11 0x400
def Reg.mxtHrfCtlSlot : Fld := .at (0x00B00200) 0 8 0
def Reg.mxtHrfCtlSwap : Fld := .at (0x00B00200) 8 1 0
def Reg.mxtHrfCtlClear : Fld := .at (0x00B00200) 9 1 0
def Reg.mxtHrfStatBusy : Fld := .at (0x00B00204) 0 1 0
def Reg.mxtHrfStatRej : Fld := .at (0x00B00204) 1 1 0
def Reg.mxtHrfStatBank : Fld := .at (0x00B00204) 2 1 0
def Reg.mxtHrfAccLoAddr : Fld := .at (0x00B00208) 0 32 0
def Reg.mxtHrfAccHiAddr : Fld := .at (0x00B0020C) 0 32 0
def Reg.sprSpareFree : Fld := .at (0x00C00100) 0 3 4
def Reg.sprSpareLastFail : Fld := .at (0x00C00100) 3 7 0x7f
def Reg.sprClassMaskCores (n : Nat) : Fld := .at (0x00C00200 + 4 * n) 0 32 0
def Reg.sprCoreCtlDrain (n : Nat) : Fld := .at (0x00C00400 + 4 * n) 0 1 0
def Reg.sprCoreCtlStart (n : Nat) : Fld := .at (0x00C00400 + 4 * n) 1 1 0
def Reg.sprCoreStatState (n : Nat) : Fld := .at (0x00C00500 + 4 * n) 0 3 0
def Reg.sprCoreVerVersion (n : Nat) : Fld := .at (0x00C00600 + 4 * n) 0 32 0
def Reg.sprFwAddrLoAddr : Fld := .at (0x00C00800) 0 32 0
def Reg.sprFwAddrHiAddr : Fld := .at (0x00C00804) 0 32 0
def Reg.sprFwMaskLoCores : Fld := .at (0x00C00808) 0 32 0
def Reg.sprFwMaskHiCores : Fld := .at (0x00C0080C) 0 32 0
def Reg.sprFwCtlGo : Fld := .at (0x00C00810) 0 1 0
def Reg.sprFwStatBusy : Fld := .at (0x00C00814) 0 1 0
def Reg.sprFwStatCode : Fld := .at (0x00C00814) 1 8 0
def Reg.sprFwStatSkipped : Fld := .at (0x00C00814) 9 1 0
def Reg.sprTaskPostWord (n : Nat) : Fld := .at (0x00C00900 + 4 * n) 0 32 0
def Reg.sprTaskPostStatFull : Fld := .at (0x00C00920) 0 1 0
def Reg.sprTaskPostStatClassBad : Fld := .at (0x00C00920) 1 1 0
def Reg.sprTaskDoneSeq (n : Nat) : Fld := .at (0x00C00940 + 4 * n) 0 32 0
def Reg.sprTaskResStatus (n : Nat) : Fld := .at (0x00C00960 + 4 * n) 0 2 0
def Reg.sprWdogLimit : Fld := .at (0x00C00A00) 0 20 0x2710
def Reg.sprIrqCfgVector : Fld := .at (0x00C00A04) 0 11 0
def Reg.sprIrqCfgEn : Fld := .at (0x00C00A04) 11 1 0
def Reg.sprMboxH2cLoMsg (n : Nat) : Fld := .at (0x00C02000 + 16 * n) 0 32 0
def Reg.sprMboxH2cHiMsg (n : Nat) : Fld := .at (0x00C02004 + 16 * n) 0 32 0
def Reg.sprMboxC2hLoMsg (n : Nat) : Fld := .at (0x00C02008 + 16 * n) 0 32 0
def Reg.sprMboxC2hHiMsg (n : Nat) : Fld := .at (0x00C0200C + 16 * n) 0 32 0
def Reg.sprMboxStatH2cFull (n : Nat) : Fld := .at (0x00C03000 + 4 * n) 0 1 0
def Reg.sprMboxStatC2hFull (n : Nat) : Fld := .at (0x00C03000 + 4 * n) 1 1 0
def Reg.sprMboxStatOvf (n : Nat) : Fld := .at (0x00C03000 + 4 * n) 2 1 0
def Reg.vrdSlotCfgCacheMode (n : Nat) : Fld := .at (0x00D00000 + 4 * n) 0 2 0
def Reg.vrdSlotCfgMirror (n : Nat) : Fld := .at (0x00D00000 + 4 * n) 2 6 0
def Reg.vrdSlotCfgArmed (n : Nat) : Fld := .at (0x00D00000 + 4 * n) 31 1 0
def Reg.vrdMapW0Thresh (n m : Nat) : Fld := .at (0x00D10000 + 256 * n + 16 * m) 0 16 0
def Reg.vrdMapW0ActHi (n m : Nat) : Fld := .at (0x00D10000 + 256 * n + 16 * m) 16 4 0
def Reg.vrdMapW0ActLo (n m : Nat) : Fld := .at (0x00D10000 + 256 * n + 16 * m) 20 4 0
def Reg.vrdMapW0Compat (n m : Nat) : Fld := .at (0x00D10000 + 256 * n + 16 * m) 24 1 0
def Reg.vrdMapW0KeepClass (n m : Nat) : Fld := .at (0x00D10000 + 256 * n + 16 * m) 25 1 0
def Reg.vrdMapW0KeepColour (n m : Nat) : Fld := .at (0x00D10000 + 256 * n + 16 * m) 26 1 0
def Reg.vrdMapW0KeepQueue (n m : Nat) : Fld := .at (0x00D10000 + 256 * n + 16 * m) 27 1 0
def Reg.vrdMapW1Class (n m : Nat) : Fld := .at (0x00D10004 + 256 * n + 16 * m) 0 8 0
def Reg.vrdMapW1Colour (n m : Nat) : Fld := .at (0x00D10004 + 256 * n + 16 * m) 8 2 0
def Reg.vrdMapW1Queue (n m : Nat) : Fld := .at (0x00D10004 + 256 * n + 16 * m) 10 20 0
def Reg.vrdMapW2NextSlot (n m : Nat) : Fld := .at (0x00D10008 + 256 * n + 16 * m) 0 8 0
def Reg.vrdMapW2NextEn (n m : Nat) : Fld := .at (0x00D10008 + 256 * n + 16 * m) 8 1 0
def Reg.tmgPolSelIndex : Fld := .at (0x00E00000) 0 18 0
def Reg.tmgPolCirRate : Fld := .at (0x00E00004) 0 32 0
def Reg.tmgPolPirRate : Fld := .at (0x00E00008) 0 32 0
def Reg.tmgPolCbsBytes : Fld := .at (0x00E0000C) 0 32 0
def Reg.tmgPolPbsBytes : Fld := .at (0x00E00010) 0 32 0
def Reg.tmgPolModeAware : Fld := .at (0x00E00014) 0 1 0
def Reg.tmgPolModeRedDrop : Fld := .at (0x00E00014) 1 1 0
def Reg.tmgPolModeAdj : Fld := .at (0x00E00014) 2 8 0
def Reg.tmgPolModeArmed : Fld := .at (0x00E00014) 31 1 0
def Reg.tmgPolCntBaseLoAddr : Fld := .at (0x00E00018) 0 32 0
def Reg.tmgPolCntBaseHiAddr : Fld := .at (0x00E0001C) 0 32 0
def Reg.tmgQSelQueue : Fld := .at (0x00E00100) 0 20 0
def Reg.tmgQCfg0Parent : Fld := .at (0x00E00104) 0 17 0
def Reg.tmgQCfg0Prio : Fld := .at (0x00E00104) 17 3 0
def Reg.tmgQCfg0Enable : Fld := .at (0x00E00104) 20 1 0
def Reg.tmgQCfg0PfcPrio : Fld := .at (0x00E00104) 21 3 0
def Reg.tmgQCfg0Owner : Fld := .at (0x00E00104) 24 6 0
def Reg.tmgQCfg0SampleEn : Fld := .at (0x00E00104) 30 1 0
def Reg.tmgQCfg0Armed : Fld := .at (0x00E00104) 31 1 0
def Reg.tmgQCfg1Weight : Fld := .at (0x00E00108) 0 8 0
def Reg.tmgQCfg1YelPct : Fld := .at (0x00E00108) 8 7 0
def Reg.tmgQCfg1Max : Fld := .at (0x00E00108) 16 16 0
def Reg.tmgQShapeRateRate : Fld := .at (0x00E00110) 0 32 0
def Reg.tmgQShapeBurstBurst : Fld := .at (0x00E00114) 0 32 0
def Reg.tmgNSelLevel : Fld := .at (0x00E00200) 0 2 1
def Reg.tmgNSelIndex : Fld := .at (0x00E00200) 2 17 0
def Reg.tmgNCfg0Parent : Fld := .at (0x00E00204) 0 17 0
def Reg.tmgNCfg0Prio : Fld := .at (0x00E00204) 17 3 0
def Reg.tmgNCfg0Enable : Fld := .at (0x00E00204) 20 1 0
def Reg.tmgNCfg0Armed : Fld := .at (0x00E00204) 31 1 0
def Reg.tmgNCfg1Weight : Fld := .at (0x00E00208) 0 8 0
def Reg.tmgNShapeRateRate : Fld := .at (0x00E0020C) 0 32 0
def Reg.tmgNShapeBurstBurst : Fld := .at (0x00E00210) 0 32 0
def Reg.tmgBufCfg0XoffFree : Fld := .at (0x00E00300) 0 22 0x4000
def Reg.tmgBufCfg1XonFree : Fld := .at (0x00E00304) 0 22 0x8000
def Reg.tmgBufFreeFree : Fld := .at (0x00E00308) 0 22 0
def Reg.tmgSampleCfgPeriod : Fld := .at (0x00E00400) 0 16 0x64
def Reg.tmgSampleCfgEnable : Fld := .at (0x00E00400) 16 1 0
def Reg.tmgSampleCfgFull : Fld := .at (0x00E00400) 17 1 0
def Reg.tmgQsSelQueue : Fld := .at (0x00E00410) 0 20 0
def Reg.tmgQsSelClear : Fld := .at (0x00E00410) 20 1 0
def Reg.tmgQsDepthBytes : Fld := .at (0x00E00414) 0 32 0
def Reg.tmgQsMaxdBytes : Fld := .at (0x00E00418) 0 32 0
def Reg.tmgQsSojmaxNs : Fld := .at (0x00E0041C) 0 32 0
def Reg.tmgQsValWord (n : Nat) : Fld := .at (0x00E00420 + 4 * n) 0 32 0
def Reg.tmgMirrorQueue (n : Nat) : Fld := .at (0x00E00500 + 4 * n) 0 20 0
def Reg.tmgMirrorTrunc (n : Nat) : Fld := .at (0x00E00500 + 4 * n) 20 8 0
def Reg.tmgMirrorEnable (n : Nat) : Fld := .at (0x00E00500 + 4 * n) 28 1 0
def Reg.memStatSramInit : Fld := .at (0x00F00000) 0 1 0
def Reg.memStatHbmInit : Fld := .at (0x00F00000) 1 1 0
def Reg.memStatDiesLive : Fld := .at (0x00F00000) 2 4 0xf
def Reg.memStatStacksLive : Fld := .at (0x00F00000) 6 4 0xf
def Reg.memStatSramMap : Fld := .at (0x00F00000) 10 1 0
def Reg.memStatHbmMap : Fld := .at (0x00F00000) 11 1 0
def Reg.memBar2WinBlock : Fld := .at (0x00F00010) 0 5 0xf
def Reg.memLayoutLost : Fld := .at (0x00F00014) 0 8 0xff
def Reg.memLayoutBucketLog2 : Fld := .at (0x00F00014) 8 8 0
def Reg.memLayoutCount : Fld := .at (0x00F00014) 16 8 0
def Reg.memRegionWord (n m : Nat) : Fld := .at (0x00F00100 + 16 * n + 4 * m) 0 32 0
def Reg.memScrubCfgEnable : Fld := .at (0x00F00200) 0 1 1
def Reg.memScrubCfgSramRate : Fld := .at (0x00F00200) 1 12 0x40
def Reg.memScrubCfgHbmRate : Fld := .at (0x00F00200) 13 12 0x40
def Reg.memRepairCfgThresh : Fld := .at (0x00F00210) 0 8 4
def Reg.memRepairFreeRows (n : Nat) : Fld := .at (0x00F00220 + 4 * n) 0 12 0x800
def Reg.memRepairFreeCols (n : Nat) : Fld := .at (0x00F00220 + 4 * n) 12 10 0x200
def Reg.memErrStatUe : Fld := .at (0x00F00300) 0 1 0
def Reg.memErrStatCe : Fld := .at (0x00F00300) 1 1 0
def Reg.memErrStatUeLost : Fld := .at (0x00F00300) 2 1 0
def Reg.memErrStatRepairFail : Fld := .at (0x00F00300) 3 1 0
def Reg.memErrStatUnitLost : Fld := .at (0x00F00300) 4 1 0
def Reg.memErrUeAddrLoAddr : Fld := .at (0x00F00304) 0 32 0
def Reg.memErrUeAddrHiAddr : Fld := .at (0x00F00308) 0 32 0
def Reg.memErrUeInfoSource : Fld := .at (0x00F0030C) 0 2 0
def Reg.memErrUeInfoMedium : Fld := .at (0x00F0030C) 2 1 0
def Reg.memErrUeInfoUnit : Fld := .at (0x00F0030C) 3 2 0
def Reg.memErrUeInfoUeWords : Fld := .at (0x00F0030C) 5 5 0
def Reg.memErrUeInfoSyndrome : Fld := .at (0x00F0030C) 10 8 0
def Reg.memErrCeAddrLoAddr : Fld := .at (0x00F00310) 0 32 0
def Reg.memErrCeAddrHiAddr : Fld := .at (0x00F00314) 0 32 0
def Reg.memErrCeInfoSource : Fld := .at (0x00F00318) 0 2 0
def Reg.memErrCeInfoMedium : Fld := .at (0x00F00318) 2 1 0
def Reg.memErrCeInfoUnit : Fld := .at (0x00F00318) 3 2 0
def Reg.memErrCeInfoUeWords : Fld := .at (0x00F00318) 5 5 0
def Reg.memErrCeInfoSyndrome : Fld := .at (0x00F00318) 10 8 0
def Reg.memIrqCfgVector : Fld := .at (0x00F00320) 0 11 0
def Reg.memIrqCfgUeEn : Fld := .at (0x00F00320) 11 1 0
def Reg.memIrqCfgCeEn : Fld := .at (0x00F00320) 12 1 0
def Reg.memIrqCfgCeThresh : Fld := .at (0x00F00320) 16 16 0x400
def Reg.memInjAddrLoAddr : Fld := .at (0x00F00400) 0 32 0
def Reg.memInjAddrHiAddr : Fld := .at (0x00F00404) 0 32 0
def Reg.memInjCtlBitA : Fld := .at (0x00F00408) 0 7 0
def Reg.memInjCtlBitB : Fld := .at (0x00F00408) 7 7 0
def Reg.memInjCtlWord : Fld := .at (0x00F00408) 14 5 0
def Reg.memInjCtlArm : Fld := .at (0x00F00408) 19 1 0
def Reg.dmaRetryCount : Fld := .at (0x01000000) 0 3 3
def Reg.dmaRetryDelay : Fld := .at (0x01000000) 3 10 0xa
def Reg.dmaChRingLoAddr (n : Nat) : Fld := .at (0x01010000 + 64 * n) 0 32 0
def Reg.dmaChRingHiAddr (n : Nat) : Fld := .at (0x01010004 + 64 * n) 0 32 0
def Reg.dmaChRingCfgSizeLog2 (n : Nat) : Fld := .at (0x01010008 + 64 * n) 0 5 2
def Reg.dmaChRingCfgDev (n : Nat) : Fld := .at (0x01010008 + 64 * n) 5 1 0
def Reg.dmaChTailTail (n : Nat) : Fld := .at (0x0101000C + 64 * n) 0 16 0
def Reg.dmaChHeadHead (n : Nat) : Fld := .at (0x01010010 + 64 * n) 0 16 0
def Reg.dmaChCtlEnable (n : Nat) : Fld := .at (0x01010014 + 64 * n) 0 1 0
def Reg.dmaChCtlResume (n : Nat) : Fld := .at (0x01010014 + 64 * n) 1 1 0
def Reg.dmaChCtlReset (n : Nat) : Fld := .at (0x01010014 + 64 * n) 2 1 0
def Reg.dmaChStatState (n : Nat) : Fld := .at (0x01010018 + 64 * n) 0 2 0
def Reg.dmaChStatLast (n : Nat) : Fld := .at (0x01010018 + 64 * n) 2 8 0
def Reg.dmaChStatFetchErr (n : Nat) : Fld := .at (0x01010018 + 64 * n) 10 1 0
def Reg.dmaChSchedPrio (n : Nat) : Fld := .at (0x0101001C + 64 * n) 0 3 7
def Reg.dmaChSchedWeight (n : Nat) : Fld := .at (0x0101001C + 64 * n) 3 4 0
def Reg.dmaChSchedBurst (n : Nat) : Fld := .at (0x0101001C + 64 * n) 7 3 3
def Reg.dmaChSchedUrgent (n : Nat) : Fld := .at (0x0101001C + 64 * n) 10 1 0
def Reg.dmaChSchedArmed (n : Nat) : Fld := .at (0x0101001C + 64 * n) 31 1 0
def Reg.dmaChDwinLoAddr (n : Nat) : Fld := .at (0x01010020 + 64 * n) 0 32 0
def Reg.dmaChDwinHiAddr (n : Nat) : Fld := .at (0x01010024 + 64 * n) 0 32 0
def Reg.dmaChDwinSizeSize (n : Nat) : Fld := .at (0x01010028 + 64 * n) 0 21 0
def Reg.dmaChIrqVector (n : Nat) : Fld := .at (0x0101002C + 64 * n) 0 11 0
def Reg.dmaChIrqEn (n : Nat) : Fld := .at (0x0101002C + 64 * n) 11 1 0
def Reg.dmaChIrqErrEn (n : Nat) : Fld := .at (0x0101002C + 64 * n) 12 1 0
def Reg.dmaChOwnerOwner (n : Nat) : Fld := .at (0x01010030 + 64 * n) 0 7 0x7f
def Reg.dmaChOwnerKind (n : Nat) : Fld := .at (0x01010030 + 64 * n) 7 2 0
def Reg.dmaChOwnerLocal (n : Nat) : Fld := .at (0x01010030 + 64 * n) 9 6 0
def Reg.hifLinkStatRate : Fld := .at (0x01100000) 0 3 0
def Reg.hifLinkStatWidth : Fld := .at (0x01100000) 3 5 0
def Reg.hifLinkStatFlit : Fld := .at (0x01100000) 8 1 0
def Reg.hifLinkStatNumVfs : Fld := .at (0x01100000) 9 6 0
def Reg.hifFlrStatFunc : Fld := .at (0x01100004) 0 6 0
def Reg.hifFlrStatSeen : Fld := .at (0x01100004) 6 1 0
def Reg.trlStatId : Fld := .at (0x01200000) 0 3 0
def Reg.trlStatEligible : Fld := .at (0x01200000) 3 1 0
def Reg.trlStatMaster : Fld := .at (0x01200000) 4 3 0
def Reg.trlStatMasterValid : Fld := .at (0x01200000) 7 1 0
def Reg.trlStatLive : Fld := .at (0x01200000) 8 8 0
def Reg.trlStatIsolated : Fld := .at (0x01200000) 16 1 0
def Reg.trlStatTbFar : Fld := .at (0x01200000) 17 1 0
def Reg.trlCfgEnable : Fld := .at (0x01200004) 0 1 0
def Reg.trlCfgSteerPipes : Fld := .at (0x01200004) 1 8 0
def Reg.trlCfgGroup : Fld := .at (0x01200004) 9 8 0
def Reg.trlTbOffOffset : Fld := .at (0x01200008) 0 32 0
def Reg.trlLinkCtlEnable (n : Nat) : Fld := .at (0x01200010 + 4 * n) 0 1 0
def Reg.trlLinkCtlRetrain (n : Nat) : Fld := .at (0x01200010 + 4 * n) 1 1 0
def Reg.trlLinkStatState (n : Nat) : Fld := .at (0x01200020 + 4 * n) 0 3 0
def Reg.trlLinkStatPeer (n : Nat) : Fld := .at (0x01200020 + 4 * n) 3 3 0
def Reg.trlLinkStatParamFail (n : Nat) : Fld := .at (0x01200020 + 4 * n) 6 1 0
def Reg.trlLinkStatTrainTimeout (n : Nat) : Fld := .at (0x01200020 + 4 * n) 7 1 0
def Reg.trlLinkStatIdClash (n : Nat) : Fld := .at (0x01200020 + 4 * n) 8 1 0
def Reg.trlLinkFreeFree (n : Nat) : Fld := .at (0x01200030 + 4 * n) 0 11 0x4e2
def Reg.trlErrCfgRetrainThresh : Fld := .at (0x01200040) 0 16 0x40
def Reg.trlRouteLink0 : Fld := .at (0x01200044) 0 2 0
def Reg.trlRouteLink1 : Fld := .at (0x01200044) 2 2 0
def Reg.trlRouteLink2 : Fld := .at (0x01200044) 4 2 0
def Reg.trlRouteLink3 : Fld := .at (0x01200044) 6 2 0
def Reg.trlRouteLink4 : Fld := .at (0x01200044) 8 2 0
def Reg.trlRouteLink5 : Fld := .at (0x01200044) 10 2 0
def Reg.trlRouteLink6 : Fld := .at (0x01200044) 12 2 0
def Reg.trlRouteLink7 : Fld := .at (0x01200044) 14 2 0
def Reg.trlRouteValid : Fld := .at (0x01200044) 16 8 0
def Reg.trlSteerSelIndex : Fld := .at (0x01200050) 0 20 0
def Reg.trlSteerDataOwner : Fld := .at (0x01200054) 0 3 0
def Reg.trlSteerDataValid : Fld := .at (0x01200054) 3 1 0
def Reg.trlSteerDataProvisional : Fld := .at (0x01200054) 4 1 0
def Reg.clpStatRole : Fld := .at (0x01300000) 0 2 0
def Reg.clpStatState : Fld := .at (0x01300000) 2 3 0
def Reg.clpStatStrap : Fld := .at (0x01300000) 5 1 0
def Reg.clpStatPartnerLost : Fld := .at (0x01300000) 6 1 0
def Reg.clpStatLagExceeded : Fld := .at (0x01300000) 7 1 0
def Reg.clpStatJoinFail : Fld := .at (0x01300000) 8 1 0
def Reg.clpStatTakeoverDone : Fld := .at (0x01300000) 9 1 0
def Reg.clpCfgMode : Fld := .at (0x01300004) 0 1 0
def Reg.clpCfgAuto : Fld := .at (0x01300004) 1 1 1
def Reg.clpCtlJoin : Fld := .at (0x01300008) 0 1 0
def Reg.clpCtlTakeover : Fld := .at (0x01300008) 1 1 0
def Reg.clpOwnMask : Fld := .at (0x0130000C) 0 16 0xffff
def Reg.clpLagCur : Fld := .at (0x01300010) 0 16 0
def Reg.clpLagMax : Fld := .at (0x01300010) 16 16 0
def Reg.clpSyncRate : Fld := .at (0x01300014) 0 13 0x400
def Reg.clpSyncDone : Fld := .at (0x01300014) 13 1 0
def Reg.clpLinkStatState (n : Nat) : Fld := .at (0x01300020 + 4 * n) 0 3 0
def Reg.clpLinkStatPeer (n : Nat) : Fld := .at (0x01300020 + 4 * n) 3 3 0
def Reg.clpLinkStatParamFail (n : Nat) : Fld := .at (0x01300020 + 4 * n) 6 1 0
def Reg.clpLinkStatTrainTimeout (n : Nat) : Fld := .at (0x01300020 + 4 * n) 7 1 0
def Reg.clpLinkStatIdClash (n : Nat) : Fld := .at (0x01300020 + 4 * n) 8 1 0
def Reg.clpLinkCtlEnable (n : Nat) : Fld := .at (0x01300028 + 4 * n) 0 1 0
def Reg.clpLinkCtlRetrain (n : Nat) : Fld := .at (0x01300028 + 4 * n) 1 1 0
def Reg.clpIrqVector : Fld := .at (0x01300030) 0 11 0
def Reg.clpIrqEn : Fld := .at (0x01300030) 11 1 0
def Reg.clpTakeoverLoNs : Fld := .at (0x01300038) 0 32 0
def Reg.clpTakeoverHiNs : Fld := .at (0x0130003C) 0 32 0
def Reg.clpErrCfgRetrainThresh : Fld := .at (0x01300040) 0 16 0x40
def Reg.fltStatState : Fld := .at (0x01400000) 0 3 0
def Reg.fltStatCause : Fld := .at (0x01400000) 3 5 0
def Reg.fltStatLost : Fld := .at (0x01400000) 8 1 0
def Reg.fltStatFaultPend : Fld := .at (0x01400000) 9 1 0
def Reg.fltStatRemaps : Fld := .at (0x01400000) 10 2 0
def Reg.fltCfgLossPol : Fld := .at (0x01400004) 0 1 0
def Reg.fltCfgGroupTmo : Fld := .at (0x01400004) 1 6 0x14
def Reg.fltCtlRelease : Fld := .at (0x01400008) 0 1 0
def Reg.fltInjClass : Fld := .at (0x0140000C) 0 5 0
def Reg.fltInjUnit : Fld := .at (0x0140000C) 5 11 0
def Reg.fltInjGo : Fld := .at (0x0140000C) 16 1 0
def Reg.fltIrqVector : Fld := .at (0x01400010) 0 11 0
def Reg.fltIrqEn : Fld := .at (0x01400010) 11 1 0
def Reg.fltLogHeadSeq : Fld := .at (0x01400014) 0 32 0
def Reg.fltAonCause : Fld := .at (0x01400018) 0 5 0
def Reg.fltAonValid : Fld := .at (0x01400018) 5 1 0
def Reg.fltLogWord (n m : Nat) : Fld := .at (0x01400400 + 16 * n + 4 * m) 0 32 0
def Reg.sgnCtlLedgerEn : Fld := .at (0x01500000) 0 1 0
def Reg.sgnCtlCalLoad : Fld := .at (0x01500000) 1 1 0
def Reg.sgnStatSession : Fld := .at (0x01500004) 0 1 0
def Reg.sgnStatCalBusy : Fld := .at (0x01500004) 1 1 0
def Reg.sgnStatCalPend : Fld := .at (0x01500004) 2 1 0
def Reg.sgnStatKClamp : Fld := .at (0x01500004) 3 1 0
def Reg.sgnStatLedgerFull : Fld := .at (0x01500004) 4 1 0
def Reg.sgnStatBootSat : Fld := .at (0x01500004) 5 1 0
def Reg.sgnBseqLoBseq : Fld := .at (0x01500010) 0 32 0
def Reg.sgnBseqHiBseq : Fld := .at (0x01500014) 0 32 0
def Reg.sgnKK : Fld := .at (0x01500018) 0 32 0x1000000
def Reg.sgnStaticCfgCtx : Fld := .at (0x0150001C) 0 19 0x3e80
def Reg.sgnCalAddrLoAddr : Fld := .at (0x01500020) 0 32 0
def Reg.sgnCalAddrHiAddr : Fld := .at (0x01500024) 0 32 0
def Reg.sgnCalStatCode : Fld := .at (0x01500028) 0 8 0
def Reg.sgnCalVerVersion : Fld := .at (0x0150002C) 0 32 0
def Reg.sgnLedgerLoAddr : Fld := .at (0x01500030) 0 32 0
def Reg.sgnLedgerHiAddr : Fld := .at (0x01500034) 0 32 0
def Reg.sgnLedgerSizeSize : Fld := .at (0x01500038) 0 16 0
def Reg.sgnLedgerWrWr : Fld := .at (0x0150003C) 0 26 0
def Reg.sgnLedgerRdRd : Fld := .at (0x01500040) 0 26 0
def Reg.sgnIrqVector : Fld := .at (0x01500044) 0 11 0
def Reg.sgnIrqEn : Fld := .at (0x01500044) 11 1 0
def Reg.sgnLastWord (n : Nat) : Fld := .at (0x01500100 + 4 * n) 0 32 0
def Reg.sgnRlogLoAddr (n : Nat) : Fld := .at (0x01500400 + 32 * n) 0 32 0
def Reg.sgnRlogHiAddr (n : Nat) : Fld := .at (0x01500404 + 32 * n) 0 32 0
def Reg.sgnRlogCfgEn (n : Nat) : Fld := .at (0x01500408 + 32 * n) 0 1 0
def Reg.sgnRlogCfgSize (n : Nat) : Fld := .at (0x01500408 + 32 * n) 1 16 0
def Reg.sgnRlogWrWr (n : Nat) : Fld := .at (0x0150040C + 32 * n) 0 31 0
def Reg.sgnRlogRdRd (n : Nat) : Fld := .at (0x01500410 + 32 * n) 0 31 0
def Reg.lpeCfgFreezeOnHang : Fld := .at (0x01600000) 0 1 0
def Reg.lpeCfgJtagLock : Fld := .at (0x01600000) 1 1 0
def Reg.lpeCfgBudgetPct : Fld := .at (0x01600000) 2 2 1
def Reg.lpeWdogEnEn : Fld := .at (0x01600004) 0 9 0x1ff
def Reg.lpeWdogLimitLimit : Fld := .at (0x01600008) 0 24 0x2710
def Reg.lpeHangStatHang : Fld := .at (0x0160000C) 0 1 0
def Reg.lpeHangStatWdog : Fld := .at (0x0160000C) 1 4 0
def Reg.lpeHangStatSnapDone : Fld := .at (0x0160000C) 5 1 0
def Reg.lpeHangStatSnapTrunc : Fld := .at (0x0160000C) 6 1 0
def Reg.lpeHangStatSnapSkipped : Fld := .at (0x0160000C) 7 1 0
def Reg.lpeSnapAddrLoAddr : Fld := .at (0x01600010) 0 32 0
def Reg.lpeSnapAddrHiAddr : Fld := .at (0x01600014) 0 32 0
def Reg.lpeSnapSizeSize : Fld := .at (0x01600018) 0 12 0
def Reg.lpeFreezeFreeze : Fld := .at (0x01600020) 0 1 0
def Reg.lpeFreezeMemOpen : Fld := .at (0x01600020) 1 1 0
def Reg.lpeFreezeResume : Fld := .at (0x01600020) 2 1 0
def Reg.lpeFreezeStatState : Fld := .at (0x01600024) 0 3 0
def Reg.lpeFreezeStatCause : Fld := .at (0x01600024) 3 3 0
def Reg.lpeFreezeStatRej : Fld := .at (0x01600024) 6 1 0
def Reg.lpeFreezeStatDumpReady : Fld := .at (0x01600024) 7 1 0
def Reg.lpeDumpCtlStart : Fld := .at (0x01600030) 0 1 0
def Reg.lpeDumpLenLen : Fld := .at (0x01600034) 0 32 0
def Reg.lpeDumpDataData : Fld := .at (0x01600038) 0 32 0
def Reg.lpeIrqVector : Fld := .at (0x0160003C) 0 11 0
def Reg.lpeIrqEn : Fld := .at (0x0160003C) 11 1 0
def Reg.lpeSampleCfgEn : Fld := .at (0x01600040) 0 1 0
def Reg.lpeSampleCfgPeriod : Fld := .at (0x01600040) 1 16 0x3e8
def Reg.lpeSampleCfgCount : Fld := .at (0x01600040) 17 8 0
def Reg.lpeSampleRingLoAddr : Fld := .at (0x01600044) 0 32 0
def Reg.lpeSampleRingHiAddr : Fld := .at (0x01600048) 0 32 0
def Reg.lpeSampleSizeSize : Fld := .at (0x0160004C) 0 16 0
def Reg.lpeSampleWrWr : Fld := .at (0x01600050) 0 26 0
def Reg.lpeSampleRdRd : Fld := .at (0x01600054) 0 26 0
def Reg.lpeSampleListOffset (n : Nat) : Fld := .at (0x01600400 + 4 * n) 0 25 0
def Reg.secProvDataData (n : Nat) : Fld := .at (0x01700400 + 4 * n) 0 32 0
def Reg.secProvCtlOp : Fld := .at (0x01700440) 0 3 0
def Reg.secProvCtlSlot : Fld := .at (0x01700440) 3 2 0
def Reg.secProvCtlValue : Fld := .at (0x01700440) 5 6 0
def Reg.secProvCtlGo : Fld := .at (0x01700440) 11 1 0
def Reg.secProvStatBusy : Fld := .at (0x01700444) 0 1 0
def Reg.secProvStatResult : Fld := .at (0x01700444) 1 2 0

def Ctr.prtRxFrames (n : Nat) : Nat := 0x00401000 + 64 * n
def Ctr.prtRxErr (n : Nat) : Nat := 0x00401008 + 64 * n
def Ctr.prtRxOversize (n : Nat) : Nat := 0x00401010 + 64 * n
def Ctr.prtRxCtxDrop (n : Nat) : Nat := 0x00401018 + 64 * n
def Ctr.prtRxPauseDrop (n : Nat) : Nat := 0x00401020 + 64 * n
def Ctr.prtFecCorr (n : Nat) : Nat := 0x00401028 + 64 * n
def Ctr.prtFecUncorr (n : Nat) : Nat := 0x00401030 + 64 * n
def Ctr.prtTxPfcXoff (n : Nat) : Nat := 0x00401038 + 64 * n
def Ctr.stmReq : Nat := 0x00501000
def Ctr.stmRsp : Nat := 0x00501008
def Ctr.stmLate : Nat := 0x00501010
def Ctr.stmAsyncSent : Nat := 0x00501018
def Ctr.stmAsyncDrop : Nat := 0x00501020
def Ctr.stmMalformed : Nat := 0x00501028
def Ctr.stmCreditViol : Nat := 0x00501030
def Ctr.stmCrcErr : Nat := 0x00501038
def Ctr.stmFlitLost : Nat := 0x00501040
def Ctr.stmCtxDefault : Nat := 0x00501048
def Ctr.stmLinkDiscard : Nat := 0x00501050
def Ctr.stmNoPipe : Nat := 0x00501058
def Ctr.prsMal (n m : Nat) : Nat := 0x00601000 + 128 * n + 8 * m
def Ctr.prsParseTrunc (n : Nat) : Nat := 0x00601400 + 8 * n
def Ctr.prsRuleMiss (n : Nat) : Nat := 0x00601440 + 8 * n
def Ctr.prsCompatRsvd : Nat := 0x00601480
def Ctr.flwLookup : Nat := 0x00701000
def Ctr.flwHit : Nat := 0x00701008
def Ctr.flwLearn : Nat := 0x00701010
def Ctr.flwInsertFail : Nat := 0x00701018
def Ctr.flwNolearn : Nat := 0x00701020
def Ctr.flwAgeDel : Nat := 0x00701028
def Ctr.flwMove : Nat := 0x00701030
def Ctr.flwFlap : Nat := 0x00701038
def Ctr.flwSrcChange : Nat := 0x00701040
def Ctr.flwPinHold : Nat := 0x00701048
def Ctr.flwOrderLate : Nat := 0x00701050
def Ctr.flwStateForeign : Nat := 0x00701058
def Ctr.flwFlood : Nat := 0x00701060
def Ctr.flwLogLost : Nat := 0x00701068
def Ctr.flwBucketUe : Nat := 0x00701070
def Ctr.flwShadowMismatch : Nat := 0x00701078
def Ctr.flwShadowStale : Nat := 0x00701080
def Ctr.flwTurnMiss (n : Nat) : Nat := 0x00702000 + 8 * n
def Ctr.feaWinAccess : Nat := 0x00801000
def Ctr.feaWinSkip : Nat := 0x00801008
def Ctr.feaWinLate : Nat := 0x00801010
def Ctr.feaWinSat : Nat := 0x00801018
def Ctr.feaWinClear : Nat := 0x00801020
def Ctr.qntSatTotal : Nat := 0x00901000
def Ctr.qntNanZero : Nat := 0x00901008
def Ctr.qntFlush : Nat := 0x00901010
def Ctr.qntPoison : Nat := 0x00901018
def Ctr.qntScaleChange : Nat := 0x00901020
def Ctr.qntScaleRange : Nat := 0x00901028
def Ctr.qntHoldRej : Nat := 0x00901030
def Ctr.espTreeEval : Nat := 0x00A01000
def Ctr.espBgEval : Nat := 0x00A01008
def Ctr.espNodeCheck : Nat := 0x00A01010
def Ctr.espPageFetch : Nat := 0x00A01018
def Ctr.espIdentSat : Nat := 0x00A01020
def Ctr.espLpsWrite : Nat := 0x00A01028
def Ctr.espLpsFull : Nat := 0x00A01030
def Ctr.espLpsExpire : Nat := 0x00A01038
def Ctr.espLabelApply : Nat := 0x00A01040
def Ctr.espLabelMiss : Nat := 0x00A01048
def Ctr.espLabelDup : Nat := 0x00A01050
def Ctr.espLabelStale : Nat := 0x00A01058
def Ctr.espLabelDrop : Nat := 0x00A01060
def Ctr.espReplayRec : Nat := 0x00A01068
def Ctr.mxtStepIssue : Nat := 0x00B01000
def Ctr.mxtAccSat : Nat := 0x00B01008
def Ctr.mxtIdentSat : Nat := 0x00B01010
def Ctr.mxtTurn : Nat := 0x00B01018
def Ctr.mxtTurnWrite : Nat := 0x00B01020
def Ctr.mxtTurnNan : Nat := 0x00B01028
def Ctr.mxtTurnFault : Nat := 0x00B01030
def Ctr.mxtWtUe : Nat := 0x00B01038
def Ctr.mxtHeadRec : Nat := 0x00B01040
def Ctr.mxtHeadRecFull : Nat := 0x00B01048
def Ctr.mxtHeadLabelApply : Nat := 0x00B01050
def Ctr.mxtHeadLabelMiss : Nat := 0x00B01058
def Ctr.mxtHeadLabelDup : Nat := 0x00B01060
def Ctr.mxtHeadLabelStale : Nat := 0x00B01068
def Ctr.mxtHeadSat : Nat := 0x00B01070
def Ctr.sprPosted (n : Nat) : Nat := 0x00C01000 + 64 * n
def Ctr.sprQfull (n : Nat) : Nat := 0x00C01008 + 64 * n
def Ctr.sprDone (n : Nat) : Nat := 0x00C01010 + 64 * n
def Ctr.sprFail (n : Nat) : Nat := 0x00C01018 + 64 * n
def Ctr.sprTimeout (n : Nat) : Nat := 0x00C01020 + 64 * n
def Ctr.sprFault (n : Nat) : Nat := 0x00C01028 + 64 * n
def Ctr.sprAccessFault : Nat := 0x00C01400
def Ctr.cfgAdmDone : Nat := 0x00206000
def Ctr.cfgAdmRefused : Nat := 0x00206008
def Ctr.cfgTrigFired : Nat := 0x00206010
def Ctr.cfgTrigDrop : Nat := 0x00206018
def Ctr.cfgTrigBusy : Nat := 0x00206020
def Ctr.cfgTrigNoctx : Nat := 0x00206028
def Ctr.cfgRunDone : Nat := 0x00206030
def Ctr.cfgRunExpired : Nat := 0x00206038
def Ctr.cfgCacheStale : Nat := 0x00206040
def Ctr.cfgLabelRej : Nat := 0x00206048
def Ctr.cfgRefitCommit : Nat := 0x00206050
def Ctr.cfgRefitHeld : Nat := 0x00206058
def Ctr.cfgRefitFail : Nat := 0x00206060
def Ctr.grfCommit : Nat := 0x00302000
def Ctr.grfRefused : Nat := 0x00302008
def Ctr.grfEpochFull : Nat := 0x00302010
def Ctr.grfFaultAbort : Nat := 0x00302018
def Ctr.grfPartnerAbort : Nat := 0x00302020
def Ctr.grfRetire : Nat := 0x00302028
def Ctr.grfExpire : Nat := 0x00302030
def Ctr.grfExpiredUnits : Nat := 0x00302038
def Ctr.grfHandoverStall : Nat := 0x00302040
def Ctr.grfFltGraft : Nat := 0x00302048
def Ctr.vrdRecircFull (n : Nat) : Nat := 0x00D01000 + 8 * n
def Ctr.vrdNextInactive : Nat := 0x00D01040
def Ctr.vrdPolOff : Nat := 0x00D01048
def Ctr.vrdPolRedDrop : Nat := 0x00D01050
def Ctr.vrdNotReady (n : Nat) : Nat := 0x00D02000 + 32 * n
def Ctr.vrdPassLimit (n : Nat) : Nat := 0x00D02008 + 32 * n
def Ctr.vrdNanScore (n : Nat) : Nat := 0x00D02010 + 32 * n
def Ctr.vrdCacheUsed (n : Nat) : Nat := 0x00D02018 + 32 * n
def Ctr.tmgBufDrop : Nat := 0x00E01000
def Ctr.tmgQInvalid : Nat := 0x00E01008
def Ctr.tmgQForeign : Nat := 0x00E01010
def Ctr.tmgQDrop : Nat := 0x00E01018
def Ctr.tmgMirrorDrop : Nat := 0x00E01020
def Ctr.tmgPortDown : Nat := 0x00E01028
def Ctr.memCeInner (n : Nat) : Nat := 0x00F01000 + 128 * n
def Ctr.memCeOuter (n : Nat) : Nat := 0x00F01008 + 128 * n
def Ctr.memUe (n : Nat) : Nat := 0x00F01010 + 128 * n
def Ctr.memPartialUe (n : Nat) : Nat := 0x00F01018 + 128 * n
def Ctr.memScrubBlock (n : Nat) : Nat := 0x00F01020 + 128 * n
def Ctr.memScrubCorr (n : Nat) : Nat := 0x00F01028 + 128 * n
def Ctr.memRepairRow (n : Nat) : Nat := 0x00F01030 + 128 * n
def Ctr.memRepairCol (n : Nat) : Nat := 0x00F01038 + 128 * n
def Ctr.memRepairFail (n : Nat) : Nat := 0x00F01040 + 128 * n
def Ctr.dmaDescOk : Nat := 0x01001000
def Ctr.dmaBounds : Nat := 0x01001008
def Ctr.dmaFormat : Nat := 0x01001010
def Ctr.dmaPoison : Nat := 0x01001018
def Ctr.dmaBusErr : Nat := 0x01001020
def Ctr.dmaDomainOff : Nat := 0x01001028
def Ctr.dmaSkipped : Nat := 0x01001030
def Ctr.dmaNoSlot : Nat := 0x01001038
def Ctr.dmaBusRetry : Nat := 0x01001040
def Ctr.dmaPreempt : Nat := 0x01001048
def Ctr.dmaExcNobuf : Nat := 0x01001050
def Ctr.hifVecBad : Nat := 0x01101000
def Ctr.trlHandoverTx : Nat := 0x01201000
def Ctr.trlHandoverRx : Nat := 0x01201008
def Ctr.trlHopDefault : Nat := 0x01201010
def Ctr.trlHopLate : Nat := 0x01201018
def Ctr.trlResultStale : Nat := 0x01201020
def Ctr.trlClaim : Nat := 0x01201028
def Ctr.trlClaimLost : Nat := 0x01201030
def Ctr.trlFloodRx : Nat := 0x01201038
def Ctr.trlFloodHit : Nat := 0x01201040
def Ctr.trlFloodDrop : Nat := 0x01201048
def Ctr.trlLabelFwd : Nat := 0x01201050
def Ctr.trlLabelFwdMiss : Nat := 0x01201058
def Ctr.trlCrcErr : Nat := 0x01201060
def Ctr.trlReplay : Nat := 0x01201068
def Ctr.clpHbMiss : Nat := 0x01301000
def Ctr.clpEntryTx : Nat := 0x01301008
def Ctr.clpStateTx : Nat := 0x01301010
def Ctr.clpDeltaRx : Nat := 0x01301018
def Ctr.clpCoalesced : Nat := 0x01301020
def Ctr.clpLagExceed : Nat := 0x01301028
def Ctr.clpTakeover : Nat := 0x01301030
def Ctr.clpForeignPkts : Nat := 0x01301038
def Ctr.clpCrcErr : Nat := 0x01301040
def Ctr.clpReplay : Nat := 0x01301048
def Ctr.fltFaults : Nat := 0x01401000
def Ctr.fltRemapSpare : Nat := 0x01401008
def Ctr.fltRemapRemove : Nat := 0x01401010
def Ctr.fltRemapDefault : Nat := 0x01401018
def Ctr.fltLostSlotUnits : Nat := 0x01401020
def Ctr.fltHoldEntry : Nat := 0x01401028
def Ctr.fltHandover : Nat := 0x01401030
def Ctr.fltSkeletonUnits : Nat := 0x01401038
def Ctr.fltInjected : Nat := 0x01401040
def Ctr.clkMonTrip : Nat := 0x00101000
def Ctr.clkHold : Nat := 0x00101008
def Ctr.clkHoldDrop : Nat := 0x00101010
def Ctr.clkSwDone : Nat := 0x00101018
def Ctr.clkSwRefused : Nat := 0x00101020
def Ctr.clkDvfsStep : Nat := 0x00101028
def Ctr.clkDvfsRefused : Nat := 0x00101030
def Ctr.clkGateForced : Nat := 0x00101038
def Ctr.clkThermTrip : Nat := 0x00101040
def Ctr.clkPwrRefused : Nat := 0x00101048
def Ctr.sgnIntervals : Nat := 0x01501000
def Ctr.sgnLedgerLost : Nat := 0x01501008
def Ctr.sgnLogLost : Nat := 0x01501010
def Ctr.sgnEnergySat : Nat := 0x01501018
def Ctr.sgnTEnergy (n : Nat) : Nat := 0x01502000 + 16 * n
def Ctr.sgnTReqs (n : Nat) : Nat := 0x01502008 + 16 * n
def Ctr.lpeTUnits (n : Nat) : Nat := 0x01604000 + 128 * n
def Ctr.lpeTDefaultUsed (n : Nat) : Nat := 0x01604008 + 128 * n
def Ctr.lpeTLate (n : Nat) : Nat := 0x01604010 + 128 * n
def Ctr.lpeTMalformed (n : Nat) : Nat := 0x01604018 + 128 * n
def Ctr.lpeTTruncated (n : Nat) : Nat := 0x01604020 + 128 * n
def Ctr.lpeTEpochExpired (n : Nat) : Nat := 0x01604028 + 128 * n
def Ctr.lpeTUnlearned (n : Nat) : Nat := 0x01604030 + 128 * n
def Ctr.lpeTSaturated (n : Nat) : Nat := 0x01604038 + 128 * n
def Ctr.lpeTLearn (n : Nat) : Nat := 0x01604040 + 128 * n
def Ctr.lpeTInsertFail (n : Nat) : Nat := 0x01604048 + 128 * n
def Ctr.lpeTAgeDel (n : Nat) : Nat := 0x01604050 + 128 * n
def Ctr.lpeTFlowRuns (n : Nat) : Nat := 0x01604058 + 128 * n
def Ctr.lpeHang : Nat := 0x01601000
def Ctr.lpeHangLost : Nat := 0x01601008
def Ctr.lpeSnapTrunc : Nat := 0x01601010
def Ctr.lpeBudgetDrop : Nat := 0x01601018
def Ctr.lpeSampleLost : Nat := 0x01601020
def Ctr.lpeFreeze : Nat := 0x01601028
def Ctr.lpeFreezeDrop : Nat := 0x01601030
def Ctr.lpeFrozenWr : Nat := 0x01601038

def Reg.rows0_0 : List Row := [
  ⟨"TOP_ID", 0x00000000, [], [⟨0, 4, .ro, 1, .any⟩, ⟨4, 4, .ro, 11, .any⟩, ⟨8, 8, .ro, 0, .any⟩, ⟨16, 16, .ro, 38472, .any⟩]⟩,
  ⟨"TOP_GATE_EN0", 0x00000100, [], [⟨0, 16, .rw, 15, .any⟩]⟩,
  ⟨"TOP_GATE_EN1", 0x00000104, [], [⟨0, 8, .rw, 146, .any⟩]⟩,
  ⟨"TOP_GATE_STAT0", 0x00000108, [], []⟩,
  ⟨"TOP_GATE_STAT1", 0x0000010C, [], []⟩,
  ⟨"TOP_BUSERR_LOG", 0x00000110, [], [⟨0, 5, .ro, 0, .any⟩, ⟨5, 7, .ro, 0, .any⟩, ⟨12, 1, .ro, 0, .any⟩, ⟨13, 3, .ro, 0, .any⟩, ⟨16, 1, .w1c, 0, .any⟩, ⟨17, 1, .w1c, 0, .any⟩]⟩,
  ⟨"TOP_BUSERR_ADDR_LO", 0x00000114, [], [⟨0, 32, .ro, 0, .any⟩]⟩,
  ⟨"TOP_BUSERR_ADDR_HI", 0x00000118, [], [⟨0, 32, .ro, 0, .any⟩]⟩]
def Reg.rows0 : List Row := Reg.rows0_0
def Reg.rows1_0 : List Row := [
  ⟨"CLK_ROOT_STAT", 0x00100000, [], [⟨0, 1, .ro, 0, .any⟩, ⟨1, 1, .ro, 0, .any⟩, ⟨2, 1, .ro, 0, .any⟩]⟩,
  ⟨"CLK_SRC_CTL", 0x00100004, [], [⟨0, 1, .rw, 0, .any⟩, ⟨1, 1, .rw, 1, .any⟩]⟩,
  ⟨"CLK_SRC_STAT", 0x00100008, [], [⟨0, 1, .ro, 0, .any⟩, ⟨1, 1, .ro, 0, .any⟩, ⟨2, 1, .w1c, 0, .any⟩]⟩,
  ⟨"CLK_SW_STAT", 0x0010000C, [], [⟨0, 2, .ro, 0, .any⟩]⟩,
  ⟨"CLK_MON_CFG", 0x00100010, [], [⟨0, 4, .rw, 5, (.range 1 10)⟩]⟩,
  ⟨"CLK_MON_STAT", 0x00100014, [], [⟨0, 1, .w1c, 0, .any⟩, ⟨1, 1, .ro, 0, .any⟩, ⟨2, 2, .ro, 0, .any⟩, ⟨4, 1, .w1c, 0, .any⟩]⟩,
  ⟨"CLK_IRQ", 0x00100018, [], [⟨0, 11, .rw, 0, .any⟩, ⟨11, 1, .rw, 0, .any⟩]⟩,
  ⟨"CLK_DVFS_CFG", 0x00100100, [(16, 3)], [⟨0, 1, .ro, 0, .any⟩, ⟨1, 3, .ro, 7, .any⟩]⟩,
  ⟨"CLK_DVFS_CTL", 0x00100104, [(16, 3)], [⟨0, 3, .rw, 7, .any⟩]⟩,
  ⟨"CLK_DVFS_STAT", 0x00100108, [(16, 3)], [⟨0, 3, .ro, 7, .any⟩, ⟨3, 1, .ro, 0, .any⟩, ⟨4, 1, .w1c, 0, .any⟩]⟩,
  ⟨"PWR_DOM_REQ", 0x00100200, [], [⟨0, 14, .rw, 16383, .any⟩]⟩,
  ⟨"PWR_DOM_STAT", 0x00100204, [], [⟨0, 28, .ro, 89478485, .any⟩]⟩,
  ⟨"PWR_DOM_REJ", 0x00100208, [], [⟨0, 4, .ro, 0, .any⟩, ⟨4, 2, .ro, 0, .any⟩, ⟨6, 1, .w1c, 0, .any⟩]⟩,
  ⟨"CLK_THERM", 0x00100300, [(4, 16)], [⟨0, 11, .ro, 0, .any⟩]⟩,
  ⟨"CLK_THERM_CFG", 0x00100340, [], [⟨0, 11, .rw, 420, .any⟩]⟩,
  ⟨"CLK_THERM_STAT", 0x00100344, [], [⟨0, 1, .ro, 0, .any⟩, ⟨1, 1, .w1c, 0, .any⟩, ⟨2, 11, .ro, 0, .any⟩, ⟨13, 4, .ro, 0, .any⟩]⟩,
  ⟨"CLK_TB_NOW_LO", 0x00100800, [], [⟨0, 32, .ro, 0, .any⟩]⟩,
  ⟨"CLK_TB_NOW_HI", 0x00100804, [], [⟨0, 32, .ro, 0, .any⟩]⟩,
  ⟨"CLK_TB_ADJ", 0x00100808, [], [⟨0, 32, .rw, 0, (.signed (-4294967) 4294967)⟩]⟩,
  ⟨"CLK_TB_STEP_LO", 0x00100810, [], [⟨0, 32, .wo, 0, .any⟩]⟩,
  ⟨"CLK_TB_STEP_HI", 0x00100814, [], [⟨0, 32, .wo, 0, .any⟩]⟩,
  ⟨"CLK_TB_SLEW", 0x00100818, [], [⟨0, 32, .rw, 0, .any⟩]⟩,
  ⟨"CLK_TB_STAT", 0x0010081C, [], [⟨0, 1, .ro, 0, .any⟩, ⟨1, 1, .w1c, 0, .any⟩, ⟨2, 1, .ro, 0, .any⟩, ⟨3, 1, .ro, 0, .any⟩, ⟨4, 1, .w1c, 0, .any⟩]⟩,
  ⟨"CLK_TB_CTL", 0x00100820, [], [⟨0, 1, .rw, 0, .any⟩, ⟨1, 4, .rw, 0, .any⟩]⟩,
  ⟨"CLK_TB_PPS_LO", 0x00100828, [], [⟨0, 32, .ro, 0, .any⟩]⟩,
  ⟨"CLK_TB_PPS_HI", 0x0010082C, [], [⟨0, 32, .ro, 0, .any⟩]⟩]
def Reg.rows1 : List Row := Reg.rows1_0
def Reg.rows2_0 : List Row := [
  ⟨"CFG_BOOT_STAT", 0x00200000, [], [⟨0, 2, .ro, 0, .any⟩, ⟨2, 1, .ro, 0, .any⟩, ⟨3, 2, .ro, 0, .any⟩, ⟨5, 8, .ro, 0, .any⟩, ⟨13, 8, .ro, 0, .any⟩, ⟨21, 8, .ro, 0, .any⟩, ⟨29, 1, .w1c, 0, .any⟩]⟩,
  ⟨"CFG_LOAD_ADDR_LO", 0x00200004, [], [⟨0, 32, .rw, 0, (.low 6)⟩]⟩,
  ⟨"CFG_LOAD_ADDR_HI", 0x00200008, [], [⟨0, 32, .rw, 0, .any⟩]⟩,
  ⟨"CFG_LOAD_CTL", 0x0020000C, [], [⟨0, 1, .wo, 0, .any⟩, ⟨1, 2, .rw, 0, .any⟩]⟩,
  ⟨"CFG_FAIL_OFF", 0x00200010, [], [⟨0, 32, .ro, 0, .any⟩]⟩,
  ⟨"CFG_QSPI_CFG", 0x00200014, [], [⟨0, 4, .rw, 1, .nonzero⟩]⟩,
  ⟨"CFG_IMG_VER", 0x00200018, [], [⟨0, 32, .ro, 0, .any⟩]⟩,
  ⟨"CFG_IMG_SVN", 0x0020001C, [], [⟨0, 6, .ro, 0, .any⟩]⟩,
  ⟨"CFG_IMG_DIGEST", 0x00200020, [(4, 8)], [⟨0, 32, .ro, 0, .any⟩]⟩,
  ⟨"CFG_DIGEST", 0x00200040, [(4, 8)], [⟨0, 32, .ro, 0, .any⟩]⟩,
  ⟨"CFG_BOOT_RPT_LO", 0x00200060, [], [⟨0, 32, .rw, 0, .any⟩]⟩,
  ⟨"CFG_BOOT_RPT_HI", 0x00200064, [], [⟨0, 32, .rw, 0, .any⟩]⟩,
  ⟨"CFG_SLOT", 0x00204000, [(4, 256)], [⟨0, 6, .rw, 0, .any⟩, ⟨6, 1, .rw, 0, .any⟩, ⟨7, 2, .ro, 0, .any⟩, ⟨9, 1, .ro, 0, .any⟩, ⟨10, 8, .ro, 0, .any⟩, ⟨18, 8, .ro, 255, .any⟩]⟩,
  ⟨"CFG_SLOT_ID", 0x00204400, [(4, 256)], [⟨0, 32, .ro, 0, .any⟩]⟩,
  ⟨"CFG_SLOT_VER", 0x00204800, [(4, 256)], [⟨0, 32, .ro, 0, .any⟩]⟩,
  ⟨"CFG_TENANT_MDL", 0x00204C00, [(4, 64)], [⟨0, 9, .rw, 256, (.range 0 256)⟩, ⟨9, 1, .rw, 0, .any⟩, ⟨10, 1, .rw, 0, .any⟩, ⟨11, 9, .ro, 0, .any⟩]⟩,
  ⟨"CFG_INF", 0x00204D00, [(8, 8)], [⟨0, 16, .ro, 0, .any⟩, ⟨16, 16, .ro, 0, .any⟩]⟩,
  ⟨"CFG_INF_LATER", 0x00204D04, [(8, 8)], [⟨0, 16, .ro, 0, .any⟩]⟩,
  ⟨"CFG_REFIT_POL", 0x00205000, [(8, 256)], [⟨0, 1, .rw, 0, .any⟩, ⟨1, 1, .rw, 0, .any⟩, ⟨2, 16, .rw, 1000, .nonzero⟩]⟩,
  ⟨"CFG_REFIT_LIM", 0x00205004, [(8, 256)], [⟨0, 20, .rw, 1024, .any⟩, ⟨20, 7, .rw, 100, (.range 0 100)⟩]⟩,
  ⟨"CFG_REFIT_STAT", 0x00205800, [(4, 256)], [⟨0, 2, .ro, 0, .any⟩, ⟨2, 8, .ro, 0, .any⟩, ⟨10, 20, .ro, 0, .any⟩]⟩,
  ⟨"CFG_REFIT_CTL", 0x00205C00, [], [⟨0, 8, .wo, 0, .any⟩, ⟨8, 1, .wo, 0, .any⟩, ⟨9, 1, .wo, 0, .any⟩]⟩,
  ⟨"CFG_FLOWQ_STAT", 0x00205C10, [], [⟨0, 17, .ro, 0, .any⟩]⟩]
def Reg.rows2 : List Row := Reg.rows2_0
def Reg.rows3_0 : List Row := [
  ⟨"GRF_EPOCH", 0x00300000, [], [⟨0, 8, .ro, 0, .any⟩, ⟨8, 4, .ro, 0, .any⟩, ⟨12, 1, .ro, 0, .any⟩]⟩,
  ⟨"GRF_BOUNDARY_LO", 0x00300004, [], [⟨0, 32, .ro, 0, .any⟩]⟩,
  ⟨"GRF_BOUNDARY_HI", 0x00300008, [], [⟨0, 32, .ro, 0, .any⟩]⟩,
  ⟨"GRF_EPOCH_PIN", 0x00300010, [(4, 4)], [⟨0, 19, .ro, 0, .any⟩, ⟨19, 2, .ro, 0, .any⟩]⟩,
  ⟨"GRF_DRAIN_CFG", 0x00300020, [], [⟨0, 14, .rw, 100, (.range 10 10000)⟩]⟩,
  ⟨"GRF_GROUP_CFG0", 0x00300024, [], [⟨0, 16, .rw, 1000, .nonzero⟩, ⟨16, 16, .rw, 100, (.range 10 65535)⟩]⟩,
  ⟨"GRF_GROUP_CFG1", 0x00300028, [], [⟨0, 16, .rw, 1000, (.range 10 65535)⟩]⟩,
  ⟨"GRF_GROUP_STAT", 0x0030002C, [], [⟨0, 1, .ro, 0, .any⟩, ⟨1, 1, .w1c, 0, .any⟩, ⟨2, 3, .ro, 0, .any⟩]⟩,
  ⟨"GRF_EXPIRY", 0x00300100, [(4, 64)], [⟨0, 2, .rw, 0, .any⟩]⟩,
  ⟨"GRF_STAGE_BASE_LO", 0x00300200, [(16, 64)], [⟨0, 32, .rw, 0, (.low 16)⟩]⟩,
  ⟨"GRF_STAGE_BASE_HI", 0x00300204, [(16, 64)], [⟨0, 32, .rw, 0, .any⟩]⟩,
  ⟨"GRF_STAGE_SIZE", 0x00300208, [(16, 64)], [⟨0, 20, .rw, 0, .any⟩]⟩,
  ⟨"GRF_LIST_LO", 0x00301000, [], [⟨0, 32, .rw, 0, (.low 6)⟩]⟩,
  ⟨"GRF_LIST_HI", 0x00301004, [], [⟨0, 32, .rw, 0, .any⟩]⟩,
  ⟨"GRF_REPORT_LO", 0x00301008, [], [⟨0, 32, .rw, 0, (.low 6)⟩]⟩,
  ⟨"GRF_REPORT_HI", 0x0030100C, [], [⟨0, 32, .rw, 0, .any⟩]⟩,
  ⟨"GRF_SUBMIT", 0x00301010, [], [⟨0, 1, .wo, 0, .any⟩]⟩,
  ⟨"GRF_STATUS", 0x00301014, [], [⟨0, 8, .ro, 0, .any⟩, ⟨8, 1, .ro, 0, .any⟩, ⟨9, 3, .ro, 0, .any⟩, ⟨12, 8, .ro, 0, .any⟩, ⟨20, 8, .ro, 0, .any⟩, ⟨28, 1, .w1c, 0, .any⟩]⟩,
  ⟨"GRF_PORT_IRQ", 0x00301018, [], [⟨0, 11, .rw, 0, .any⟩, ⟨11, 1, .rw, 0, .any⟩]⟩]
def Reg.rows3 : List Row := Reg.rows3_0
def Reg.rows4_0 : List Row := [
  ⟨"PRT_MODE", 0x00400000, [], [⟨0, 2, .ro, 0, .any⟩]⟩,
  ⟨"PRT_PORT_CTL", 0x00400100, [(4, 32)], [⟨0, 1, .rw, 0, .any⟩, ⟨1, 1, .rw, 1, .any⟩, ⟨2, 1, .rw, 1, .any⟩, ⟨3, 14, .rw, 9216, (.range 64 10240)⟩, ⟨17, 8, .rw, 0, .any⟩]⟩,
  ⟨"PRT_PORT_STAT", 0x00400180, [(4, 32)], [⟨0, 1, .ro, 0, .any⟩, ⟨1, 1, .w1c, 0, .any⟩, ⟨2, 1, .w1c, 0, .any⟩, ⟨3, 1, .ro, 0, .any⟩]⟩,
  ⟨"PRT_LANE_CTL", 0x00400200, [(4, 32)], [⟨0, 1, .wo, 0, .any⟩, ⟨1, 1, .ro, 0, .any⟩]⟩,
  ⟨"PRT_PFC_CFG0", 0x00400300, [], [⟨0, 18, .rw, 4096, .any⟩]⟩,
  ⟨"PRT_PFC_CFG1", 0x00400304, [], [⟨0, 18, .rw, 8192, .any⟩]⟩]
def Reg.rows4 : List Row := Reg.rows4_0
def Reg.rows5_0 : List Row := [
  ⟨"STM_CTL", 0x00500000, [], [⟨0, 1, .rw, 0, .any⟩, ⟨1, 1, .wo, 0, .any⟩, ⟨2, 1, .rw, 1, .any⟩]⟩,
  ⟨"STM_STAT", 0x00500004, [], [⟨0, 3, .ro, 0, .any⟩, ⟨3, 1, .ro, 0, .any⟩, ⟨4, 1, .w1c, 0, .any⟩, ⟨5, 1, .w1c, 0, .any⟩, ⟨6, 1, .w1c, 0, .any⟩]⟩,
  ⟨"STM_WIN_CFG", 0x00500010, [], [⟨0, 7, .rws, 48, (.range 20 100)⟩, ⟨7, 1, .ro, 0, .any⟩]⟩,
  ⟨"STM_WIN_MIN", 0x00500014, [], [⟨0, 7, .ro, 20, .any⟩]⟩,
  ⟨"STM_CREDIT_CFG", 0x00500018, [], [⟨0, 9, .rw, 64, (.range 1 256)⟩]⟩,
  ⟨"STM_PIPES", 0x0050001C, [], [⟨0, 8, .ro, 0, .any⟩]⟩,
  ⟨"STM_ASYNC_EN0", 0x00500020, [], [⟨0, 32, .rw, 0, .any⟩]⟩,
  ⟨"STM_ASYNC_EN1", 0x00500024, [], [⟨0, 32, .rw, 0, .any⟩]⟩,
  ⟨"STM_ASYNC_CFG", 0x00500028, [], [⟨0, 16, .rw, 100, .nonzero⟩]⟩,
  ⟨"STM_FALLBACK_VERDICT0", 0x00500030, [], [⟨0, 4, .rw, 1, (.range 0 5)⟩, ⟨4, 8, .rw, 0, .any⟩, ⟨12, 2, .rw, 0, .any⟩]⟩,
  ⟨"STM_FALLBACK_VERDICT1", 0x00500034, [], [⟨0, 20, .rw, 0, .any⟩]⟩,
  ⟨"STM_PHY_LAT", 0x00500038, [], [⟨0, 16, .ro, 0, .any⟩, ⟨16, 16, .ro, 0, .any⟩]⟩,
  ⟨"STM_ERR_CFG", 0x0050003C, [], [⟨0, 16, .rw, 64, .any⟩]⟩]
def Reg.rows5 : List Row := Reg.rows5_0
def Reg.rows6_0 : List Row := [
  ⟨"PRS_START_PORT", 0x00600000, [(4, 32)], [⟨0, 8, .ro, 0, .any⟩]⟩,
  ⟨"PRS_START_STEM", 0x00600080, [], [⟨0, 8, .ro, 0, .any⟩, ⟨8, 8, .ro, 0, .any⟩]⟩,
  ⟨"PRS_GRAPH_STAT", 0x00600084, [], [⟨0, 8, .ro, 0, .any⟩, ⟨8, 8, .ro, 0, .any⟩]⟩,
  ⟨"PRS_START_STEM_P", 0x006000C0, [(4, 8)], [⟨0, 8, .ro, 0, .any⟩, ⟨8, 8, .ro, 0, .any⟩]⟩,
  ⟨"CLS_TCAM_FREE", 0x00600100, [], [⟨0, 19, .ro, 65536, .any⟩]⟩,
  ⟨"CLS_EM_FREE", 0x00600104, [], [⟨0, 19, .ro, 262144, .any⟩]⟩,
  ⟨"CLS_RULE_CNT_BASE_LO", 0x00600108, [], [⟨0, 32, .ro, 0, .any⟩]⟩,
  ⟨"CLS_RULE_CNT_BASE_HI", 0x0060010C, [], [⟨0, 32, .ro, 0, .any⟩]⟩,
  ⟨"CLS_TRUNC_MAP0", 0x00600200, [], [⟨0, 32, .rw, 0, .any⟩]⟩,
  ⟨"CLS_TRUNC_MAP1", 0x00600204, [], [⟨0, 32, .rw, 0, .any⟩]⟩,
  ⟨"CLS_MAL_ACT", 0x00600400, [(4, 128)], [⟨0, 4, .rw, 0, .malAct⟩, ⟨4, 4, .rw, 0, .malAct⟩, ⟨8, 4, .rw, 0, .malAct⟩, ⟨12, 4, .rw, 0, .malAct⟩, ⟨16, 4, .rw, 0, .malAct⟩, ⟨20, 4, .rw, 0, .malAct⟩, ⟨24, 4, .rw, 0, .malAct⟩, ⟨28, 4, .rw, 0, .malAct⟩]⟩,
  ⟨"CLS_COMPAT", 0x00600800, [(4, 256)], [⟨0, 2, .rw, 0, .any⟩, ⟨2, 1, .rw, 1, .any⟩, ⟨3, 20, .rw, 0, .any⟩]⟩]
def Reg.rows6 : List Row := Reg.rows6_0
def Reg.rows7_0 : List Row := [
  ⟨"FLW_CFG", 0x00700000, [], [⟨0, 5, .ro, 23, .any⟩]⟩,
  ⟨"FLW_SEED_LO", 0x00700004, [], [⟨0, 32, .ro, 0, .any⟩]⟩,
  ⟨"FLW_SEED_HI", 0x00700008, [], [⟨0, 32, .ro, 0, .any⟩]⟩,
  ⟨"FLW_TIME_ORIGIN_LO", 0x00700010, [], [⟨0, 32, .ro, 0, .any⟩]⟩,
  ⟨"FLW_TIME_ORIGIN_HI", 0x00700014, [], [⟨0, 32, .ro, 0, .any⟩]⟩,
  ⟨"FLW_ORDER_CFG", 0x00700020, [], [⟨0, 10, .ro, 0, .any⟩]⟩,
  ⟨"FLW_AGE_CFG", 0x00700030, [], [⟨0, 28, .rw, 30000000, (.range 10 268435455)⟩]⟩,
  ⟨"FLW_SCAN_CFG", 0x00700034, [], [⟨0, 1, .rw, 0, .any⟩, ⟨1, 13, .rw, 1024, (.range 8 4096)⟩]⟩,
  ⟨"FLW_CONTEST_CFG", 0x00700038, [], [⟨0, 17, .rw, 2000, (.range 100 100000)⟩]⟩,
  ⟨"FLW_SHADOW_CTL", 0x00700040, [], [⟨0, 1, .rw, 0, .any⟩, ⟨1, 1, .rw, 0, .any⟩, ⟨2, 12, .rw, 64, .nonzero⟩]⟩,
  ⟨"FLW_SHADOW_BASE_LO", 0x00700044, [], [⟨0, 32, .rw, 0, (.low 6)⟩]⟩,
  ⟨"FLW_SHADOW_BASE_HI", 0x00700048, [], [⟨0, 32, .rw, 0, .any⟩]⟩,
  ⟨"FLW_SHADOW_STAT", 0x0070004C, [], [⟨0, 24, .ro, 0, .any⟩, ⟨24, 1, .w1c, 0, .any⟩]⟩,
  ⟨"FLW_LOG_CFG", 0x00700050, [], [⟨0, 20, .ro, 65536, .any⟩]⟩,
  ⟨"FLW_LOG_STAT", 0x00700054, [], [⟨0, 1, .w1c, 0, .any⟩]⟩,
  ⟨"FLW_LOG_WR", 0x00700058, [], [⟨0, 20, .ro, 0, .any⟩]⟩,
  ⟨"FLW_LOG_RD", 0x0070005C, [], [⟨0, 20, .rw, 0, .any⟩]⟩,
  ⟨"FLW_TABLE_BASE_LO", 0x00700060, [], [⟨0, 32, .ro, 0, .any⟩]⟩,
  ⟨"FLW_TABLE_BASE_HI", 0x00700064, [], [⟨0, 32, .ro, 0, .any⟩]⟩,
  ⟨"FLW_SIDE_BASE_LO", 0x00700068, [], [⟨0, 32, .ro, 0, .any⟩]⟩,
  ⟨"FLW_SIDE_BASE_HI", 0x0070006C, [], [⟨0, 32, .ro, 0, .any⟩]⟩,
  ⟨"FLW_CMD", 0x00700100, [], [⟨0, 3, .wo, 0, .any⟩, ⟨3, 8, .wo, 0, .any⟩, ⟨11, 1, .wo, 0, .any⟩]⟩,
  ⟨"FLW_CMD_STAT", 0x00700104, [], [⟨0, 1, .ro, 0, .any⟩, ⟨1, 3, .ro, 0, .any⟩, ⟨4, 26, .ro, 0, .any⟩]⟩,
  ⟨"FLW_CMD_KEY", 0x00700140, [(4, 10)], [⟨0, 32, .rw, 0, .any⟩]⟩,
  ⟨"FLW_CMD_DATA", 0x00700180, [(4, 32)], [⟨0, 32, .ro, 0, .any⟩]⟩,
  ⟨"FLW_TURN", 0x00700200, [(4, 256)], [⟨0, 11, .ro, 0, .any⟩, ⟨11, 11, .ro, 0, .any⟩]⟩,
  ⟨"FLW_AGE_TMO", 0x00700600, [(4, 64)], [⟨0, 28, .rw, 0, (.zeroOr 10 268435455)⟩]⟩,
  ⟨"FLW_TENANT_CFG", 0x00700700, [(4, 64)], [⟨0, 26, .rw, 0, .any⟩, ⟨26, 2, .rw, 0, (.range 0 2)⟩]⟩,
  ⟨"FLW_TENANT_CNT", 0x00700800, [(4, 64)], [⟨0, 26, .ro, 0, .any⟩]⟩]
def Reg.rows7 : List Row := Reg.rows7_0
def Reg.rows8_0 : List Row := [
  ⟨"FEA_PIPE_CFG", 0x00800000, [(4, 8)], [⟨0, 8, .ro, 0, .any⟩, ⟨8, 8, .ro, 64, .any⟩, ⟨16, 8, .ro, 24, .any⟩]⟩,
  ⟨"FEA_WIN_CFG", 0x00800040, [], [⟨0, 10, .ro, 0, .any⟩]⟩,
  ⟨"FEA_PROG_FREE", 0x00800080, [(4, 8)], [⟨0, 14, .ro, 8192, .any⟩]⟩,
  ⟨"FEA_DESC_FREE", 0x008000C0, [], [⟨0, 9, .ro, 256, .any⟩]⟩,
  ⟨"FEA_WIN_BASE_LO", 0x008000C8, [], [⟨0, 32, .ro, 0, .any⟩]⟩,
  ⟨"FEA_WIN_BASE_HI", 0x008000CC, [], [⟨0, 32, .ro, 0, .any⟩]⟩,
  ⟨"FEA_WIN_FREE", 0x008000D0, [], [⟨0, 24, .ro, 0, .any⟩]⟩,
  ⟨"FEA_DESC", 0x00804000, [(32, 256), (4, 8)], [⟨0, 32, .ro, 0, .any⟩]⟩]
def Reg.rows8 : List Row := Reg.rows8_0
def Reg.rows9_0 : List Row := [
  ⟨"QNT_SEL", 0x00900000, [], [⟨0, 3, .rw, 0, .any⟩, ⟨3, 8, .rw, 0, .any⟩, ⟨11, 8, .rw, 0, .any⟩, ⟨19, 1, .wo, 0, .any⟩]⟩,
  ⟨"QNT_TS_STAT", 0x00900004, [], [⟨0, 1, .ro, 0, .any⟩, ⟨1, 6, .ro, 0, .any⟩, ⟨7, 1, .ro, 0, .any⟩, ⟨8, 1, .ro, 0, .any⟩, ⟨9, 4, .ro, 0, .any⟩, ⟨13, 9, .ro, 0, .any⟩, ⟨22, 1, .ro, 1, .any⟩]⟩,
  ⟨"QNT_TS_INTV", 0x00900008, [], [⟨0, 21, .ro, 0, .any⟩]⟩,
  ⟨"QNT_TS_ISAT", 0x0090000C, [], [⟨0, 21, .ro, 0, .any⟩]⟩,
  ⟨"QNT_TS_VAL", 0x00900010, [(4, 12)], [⟨0, 32, .ro, 0, .any⟩]⟩,
  ⟨"QNT_HOLD", 0x00900080, [], [⟨0, 8, .wo, 0, .any⟩, ⟨8, 8, .wo, 0, .any⟩, ⟨16, 1, .wo, 0, .any⟩]⟩,
  ⟨"QNT_HOLD_STAT", 0x00900084, [], [⟨0, 1, .w1c, 0, .any⟩]⟩,
  ⟨"QNT_TS_FREE", 0x00900100, [(4, 8)], [⟨0, 11, .ro, 1024, .any⟩]⟩,
  ⟨"QNT_EVT_STAT", 0x00900140, [], [⟨0, 1, .w1c, 0, .any⟩, ⟨1, 3, .ro, 0, .any⟩, ⟨4, 8, .ro, 0, .any⟩, ⟨12, 8, .ro, 0, .any⟩, ⟨20, 1, .ro, 0, .any⟩]⟩]
def Reg.rows9 : List Row := Reg.rows9_0
def Reg.rows10_0 : List Row := [
  ⟨"ESP_MAP", 0x00A00000, [(4, 16)], [⟨0, 6, .ro, 32, .any⟩, ⟨6, 6, .ro, 63, .any⟩]⟩,
  ⟨"ESP_NODE_FREE", 0x00A00040, [(4, 16)], [⟨0, 18, .ro, 174752, .any⟩]⟩,
  ⟨"ESP_PAGE_FREE", 0x00A00080, [(4, 16)], [⟨0, 7, .ro, 64, .any⟩]⟩,
  ⟨"ESP_LPS_CFG", 0x00A00100, [], [⟨0, 1, .rw, 0, .any⟩, ⟨1, 16, .rw, 1000, (.range 1 60000)⟩]⟩,
  ⟨"ESP_LPS_STAT", 0x00A00104, [], [⟨0, 22, .ro, 0, .any⟩, ⟨22, 1, .w1c, 0, .any⟩]⟩,
  ⟨"ESP_LPS_BASE_LO", 0x00A00108, [], [⟨0, 32, .ro, 0, .any⟩]⟩,
  ⟨"ESP_LPS_BASE_HI", 0x00A0010C, [], [⟨0, 32, .ro, 0, .any⟩]⟩,
  ⟨"ESP_LPS_SIZE", 0x00A00110, [], [⟨0, 24, .ro, 0, .any⟩]⟩,
  ⟨"ESP_REFIT_CTL", 0x00A00200, [], [⟨0, 8, .wo, 0, .any⟩, ⟨8, 1, .wo, 0, .any⟩, ⟨9, 1, .wo, 0, .any⟩]⟩,
  ⟨"ESP_REFIT_STAT", 0x00A00204, [], [⟨0, 1, .ro, 0, .any⟩, ⟨1, 1, .w1c, 0, .any⟩, ⟨2, 1, .ro, 0, .any⟩]⟩,
  ⟨"ESP_REFIT_ACC_LO", 0x00A00208, [], [⟨0, 32, .ro, 0, .any⟩]⟩,
  ⟨"ESP_REFIT_ACC_HI", 0x00A0020C, [], [⟨0, 32, .ro, 0, .any⟩]⟩]
def Reg.rows10 : List Row := Reg.rows10_0
def Reg.rows11_0 : List Row := [
  ⟨"MXT_MAP", 0x00B00000, [], [⟨0, 6, .ro, 32, .any⟩, ⟨6, 6, .ro, 33, .any⟩, ⟨12, 6, .ro, 63, .any⟩]⟩,
  ⟨"MXT_WT_FREE", 0x00B00040, [(4, 32)], [⟨0, 17, .ro, 65536, .any⟩]⟩,
  ⟨"MXT_STEP_FREE", 0x00B000C0, [(4, 32)], [⟨0, 16, .ro, 0, .any⟩]⟩,
  ⟨"MXT_TURN_CFG", 0x00B00140, [], [⟨0, 10, .ro, 0, .any⟩, ⟨10, 4, .ro, 4, .any⟩, ⟨14, 4, .ro, 10, .any⟩]⟩,
  ⟨"MXT_TURN_FREE", 0x00B00180, [(4, 8)], [⟨0, 11, .ro, 1024, .any⟩]⟩,
  ⟨"MXT_HRF_CTL", 0x00B00200, [], [⟨0, 8, .wo, 0, .any⟩, ⟨8, 1, .wo, 0, .any⟩, ⟨9, 1, .wo, 0, .any⟩]⟩,
  ⟨"MXT_HRF_STAT", 0x00B00204, [], [⟨0, 1, .ro, 0, .any⟩, ⟨1, 1, .w1c, 0, .any⟩, ⟨2, 1, .ro, 0, .any⟩]⟩,
  ⟨"MXT_HRF_ACC_LO", 0x00B00208, [], [⟨0, 32, .ro, 0, .any⟩]⟩,
  ⟨"MXT_HRF_ACC_HI", 0x00B0020C, [], [⟨0, 32, .ro, 0, .any⟩]⟩]
def Reg.rows11 : List Row := Reg.rows11_0
def Reg.rows12_0 : List Row := [
  ⟨"SPR_MAP", 0x00C00000, [(4, 64)], []⟩,
  ⟨"SPR_SPARE", 0x00C00100, [], [⟨0, 3, .ro, 4, .any⟩, ⟨3, 7, .ro, 127, .any⟩]⟩,
  ⟨"SPR_CLASS_MASK", 0x00C00200, [(4, 16)], [⟨0, 32, .rw, 0, .any⟩]⟩,
  ⟨"SPR_CLASS_STAT", 0x00C00280, [], []⟩,
  ⟨"SPR_CORE_CTL", 0x00C00400, [(4, 64)], [⟨0, 1, .rw, 0, .any⟩, ⟨1, 1, .wo, 0, .any⟩]⟩,
  ⟨"SPR_CORE_STAT", 0x00C00500, [(4, 64)], [⟨0, 3, .ro, 0, .any⟩]⟩,
  ⟨"SPR_CORE_VER", 0x00C00600, [(4, 64)], [⟨0, 32, .ro, 0, .any⟩]⟩,
  ⟨"SPR_FW_ADDR_LO", 0x00C00800, [], [⟨0, 32, .rw, 0, .any⟩]⟩,
  ⟨"SPR_FW_ADDR_HI", 0x00C00804, [], [⟨0, 32, .rw, 0, .any⟩]⟩,
  ⟨"SPR_FW_MASK_LO", 0x00C00808, [], [⟨0, 32, .rw, 0, .any⟩]⟩,
  ⟨"SPR_FW_MASK_HI", 0x00C0080C, [], [⟨0, 32, .rw, 0, .any⟩]⟩,
  ⟨"SPR_FW_CTL", 0x00C00810, [], [⟨0, 1, .wo, 0, .any⟩]⟩,
  ⟨"SPR_FW_STAT", 0x00C00814, [], [⟨0, 1, .ro, 0, .any⟩, ⟨1, 8, .ro, 0, .any⟩, ⟨9, 1, .w1c, 0, .any⟩]⟩,
  ⟨"SPR_TASK_POST", 0x00C00900, [(4, 8)], [⟨0, 32, .wo, 0, .any⟩]⟩,
  ⟨"SPR_TASK_POST_STAT", 0x00C00920, [], [⟨0, 1, .w1c, 0, .any⟩, ⟨1, 1, .w1c, 0, .any⟩]⟩,
  ⟨"SPR_TASK_DONE", 0x00C00940, [(4, 8)], [⟨0, 32, .ro, 0, .any⟩]⟩,
  ⟨"SPR_TASK_RES", 0x00C00960, [(4, 8)], [⟨0, 2, .ro, 0, .any⟩]⟩,
  ⟨"SPR_WDOG", 0x00C00A00, [], [⟨0, 20, .rw, 10000, (.range 10 1000000)⟩]⟩,
  ⟨"SPR_IRQ_CFG", 0x00C00A04, [], [⟨0, 11, .rw, 0, .any⟩, ⟨11, 1, .rw, 0, .any⟩]⟩,
  ⟨"SPR_MBOX_H2C_LO", 0x00C02000, [(16, 64)], [⟨0, 32, .wo, 0, .any⟩]⟩,
  ⟨"SPR_MBOX_H2C_HI", 0x00C02004, [(16, 64)], [⟨0, 32, .wo, 0, .any⟩]⟩,
  ⟨"SPR_MBOX_C2H_LO", 0x00C02008, [(16, 64)], [⟨0, 32, .ro, 0, .any⟩]⟩,
  ⟨"SPR_MBOX_C2H_HI", 0x00C0200C, [(16, 64)], [⟨0, 32, .ro, 0, .any⟩]⟩,
  ⟨"SPR_MBOX_STAT", 0x00C03000, [(4, 64)], [⟨0, 1, .ro, 0, .any⟩, ⟨1, 1, .ro, 0, .any⟩, ⟨2, 1, .w1c, 0, .any⟩]⟩]
def Reg.rows12 : List Row := Reg.rows12_0
def Reg.rows13_0 : List Row := [
  ⟨"VRD_SLOT_CFG", 0x00D00000, [(4, 256)], [⟨0, 2, .rws, 0, (.range 0 2)⟩, ⟨2, 6, .rws, 0, .any⟩, ⟨31, 1, .ro, 0, .any⟩]⟩,
  ⟨"VRD_MAP_W0", 0x00D10000, [(256, 256), (16, 16)], [⟨0, 16, .rws, 0, .any⟩, ⟨16, 4, .rws, 0, (.range 0 5)⟩, ⟨20, 4, .rws, 0, (.range 0 5)⟩, ⟨24, 1, .rws, 0, .any⟩, ⟨25, 1, .rws, 0, .any⟩, ⟨26, 1, .rws, 0, .any⟩, ⟨27, 1, .rws, 0, .any⟩]⟩,
  ⟨"VRD_MAP_W1", 0x00D10004, [(256, 256), (16, 16)], [⟨0, 8, .rws, 0, .any⟩, ⟨8, 2, .rws, 0, .any⟩, ⟨10, 20, .rws, 0, .any⟩]⟩,
  ⟨"VRD_MAP_W2", 0x00D10008, [(256, 256), (16, 16)], [⟨0, 8, .rws, 0, .any⟩, ⟨8, 1, .rws, 0, .any⟩]⟩]
def Reg.rows13 : List Row := Reg.rows13_0
def Reg.rows14_0 : List Row := [
  ⟨"TMG_POL_SEL", 0x00E00000, [], [⟨0, 18, .rw, 0, .any⟩]⟩,
  ⟨"TMG_POL_CIR", 0x00E00004, [], [⟨0, 32, .rws, 0, .any⟩]⟩,
  ⟨"TMG_POL_PIR", 0x00E00008, [], [⟨0, 32, .rws, 0, .any⟩]⟩,
  ⟨"TMG_POL_CBS", 0x00E0000C, [], [⟨0, 32, .rws, 0, .any⟩]⟩,
  ⟨"TMG_POL_PBS", 0x00E00010, [], [⟨0, 32, .rws, 0, .any⟩]⟩,
  ⟨"TMG_POL_MODE", 0x00E00014, [], [⟨0, 1, .rws, 0, .any⟩, ⟨1, 1, .rws, 0, .any⟩, ⟨2, 8, .rws, 0, (.signed (-64) 64)⟩, ⟨31, 1, .ro, 0, .any⟩]⟩,
  ⟨"TMG_POL_CNT_BASE_LO", 0x00E00018, [], [⟨0, 32, .ro, 0, .any⟩]⟩,
  ⟨"TMG_POL_CNT_BASE_HI", 0x00E0001C, [], [⟨0, 32, .ro, 0, .any⟩]⟩,
  ⟨"TMG_Q_SEL", 0x00E00100, [], [⟨0, 20, .rw, 0, .any⟩]⟩,
  ⟨"TMG_Q_CFG0", 0x00E00104, [], [⟨0, 17, .rws, 0, .any⟩, ⟨17, 3, .rws, 0, .any⟩, ⟨20, 1, .rws, 0, .any⟩, ⟨21, 3, .rws, 0, .any⟩, ⟨24, 6, .rws, 0, .any⟩, ⟨30, 1, .rws, 0, .any⟩, ⟨31, 1, .ro, 0, .any⟩]⟩,
  ⟨"TMG_Q_CFG1", 0x00E00108, [], [⟨0, 8, .rws, 0, .any⟩, ⟨8, 7, .rws, 0, (.range 0 100)⟩, ⟨16, 16, .rws, 0, .any⟩]⟩,
  ⟨"TMG_Q_SHAPE_RATE", 0x00E00110, [], [⟨0, 32, .rws, 0, .any⟩]⟩,
  ⟨"TMG_Q_SHAPE_BURST", 0x00E00114, [], [⟨0, 32, .rws, 0, .any⟩]⟩,
  ⟨"TMG_N_SEL", 0x00E00200, [], [⟨0, 2, .rw, 1, (.range 1 3)⟩, ⟨2, 17, .rw, 0, .any⟩]⟩,
  ⟨"TMG_N_CFG0", 0x00E00204, [], [⟨0, 17, .rws, 0, .any⟩, ⟨17, 3, .rws, 0, .any⟩, ⟨20, 1, .rws, 0, .any⟩, ⟨31, 1, .ro, 0, .any⟩]⟩,
  ⟨"TMG_N_CFG1", 0x00E00208, [], [⟨0, 8, .rws, 0, .any⟩]⟩,
  ⟨"TMG_N_SHAPE_RATE", 0x00E0020C, [], [⟨0, 32, .rws, 0, .any⟩]⟩,
  ⟨"TMG_N_SHAPE_BURST", 0x00E00210, [], [⟨0, 32, .rws, 0, .any⟩]⟩,
  ⟨"TMG_BUF_CFG0", 0x00E00300, [], [⟨0, 22, .rw, 16384, .any⟩]⟩,
  ⟨"TMG_BUF_CFG1", 0x00E00304, [], [⟨0, 22, .rw, 32768, .any⟩]⟩,
  ⟨"TMG_BUF_FREE", 0x00E00308, [], [⟨0, 22, .ro, 0, .any⟩]⟩,
  ⟨"TMG_SAMPLE_CFG", 0x00E00400, [], [⟨0, 16, .rw, 100, .nonzero⟩, ⟨16, 1, .rw, 0, .any⟩, ⟨17, 1, .w1c, 0, .any⟩]⟩,
  ⟨"TMG_QS_SEL", 0x00E00410, [], [⟨0, 20, .rw, 0, .any⟩, ⟨20, 1, .wo, 0, .any⟩]⟩,
  ⟨"TMG_QS_DEPTH", 0x00E00414, [], [⟨0, 32, .ro, 0, .any⟩]⟩,
  ⟨"TMG_QS_MAXD", 0x00E00418, [], [⟨0, 32, .ro, 0, .any⟩]⟩,
  ⟨"TMG_QS_SOJMAX", 0x00E0041C, [], [⟨0, 32, .ro, 0, .any⟩]⟩,
  ⟨"TMG_QS_VAL", 0x00E00420, [(4, 14)], [⟨0, 32, .ro, 0, .any⟩]⟩,
  ⟨"TMG_MIRROR", 0x00E00500, [(4, 64)], [⟨0, 20, .rw, 0, .any⟩, ⟨20, 8, .rw, 0, .any⟩, ⟨28, 1, .rw, 0, .any⟩]⟩]
def Reg.rows14 : List Row := Reg.rows14_0
def Reg.rows15_0 : List Row := [
  ⟨"MEM_STAT", 0x00F00000, [], [⟨0, 1, .ro, 0, .any⟩, ⟨1, 1, .ro, 0, .any⟩, ⟨2, 4, .ro, 15, .any⟩, ⟨6, 4, .ro, 15, .any⟩, ⟨10, 1, .ro, 0, .any⟩, ⟨11, 1, .ro, 0, .any⟩]⟩,
  ⟨"MEM_BAR2_WIN", 0x00F00010, [], [⟨0, 5, .rw, 15, (.range 0 17)⟩]⟩,
  ⟨"MEM_LAYOUT", 0x00F00014, [], [⟨0, 8, .ro, 255, .any⟩, ⟨8, 8, .ro, 0, .any⟩, ⟨16, 8, .ro, 0, .any⟩]⟩,
  ⟨"MEM_REGION", 0x00F00100, [(16, 16), (4, 4)], [⟨0, 32, .ro, 0, .any⟩]⟩,
  ⟨"MEM_SCRUB_CFG", 0x00F00200, [], [⟨0, 1, .rw, 1, .any⟩, ⟨1, 12, .rw, 64, .nonzero⟩, ⟨13, 12, .rw, 64, .nonzero⟩]⟩,
  ⟨"MEM_REPAIR_CFG", 0x00F00210, [], [⟨0, 8, .rw, 4, .nonzero⟩]⟩,
  ⟨"MEM_REPAIR_FREE", 0x00F00220, [(4, 4)], [⟨0, 12, .ro, 2048, .any⟩, ⟨12, 10, .ro, 512, .any⟩]⟩,
  ⟨"MEM_ERR_STAT", 0x00F00300, [], [⟨0, 1, .w1c, 0, .any⟩, ⟨1, 1, .w1c, 0, .any⟩, ⟨2, 1, .w1c, 0, .any⟩, ⟨3, 1, .w1c, 0, .any⟩, ⟨4, 1, .w1c, 0, .any⟩]⟩,
  ⟨"MEM_ERR_UE_ADDR_LO", 0x00F00304, [], [⟨0, 32, .ro, 0, .any⟩]⟩,
  ⟨"MEM_ERR_UE_ADDR_HI", 0x00F00308, [], [⟨0, 32, .ro, 0, .any⟩]⟩,
  ⟨"MEM_ERR_UE_INFO", 0x00F0030C, [], [⟨0, 2, .ro, 0, .any⟩, ⟨2, 1, .ro, 0, .any⟩, ⟨3, 2, .ro, 0, .any⟩, ⟨5, 5, .ro, 0, .any⟩, ⟨10, 8, .ro, 0, .any⟩]⟩,
  ⟨"MEM_ERR_CE_ADDR_LO", 0x00F00310, [], [⟨0, 32, .ro, 0, .any⟩]⟩,
  ⟨"MEM_ERR_CE_ADDR_HI", 0x00F00314, [], [⟨0, 32, .ro, 0, .any⟩]⟩,
  ⟨"MEM_ERR_CE_INFO", 0x00F00318, [], [⟨0, 2, .ro, 0, .any⟩, ⟨2, 1, .ro, 0, .any⟩, ⟨3, 2, .ro, 0, .any⟩, ⟨5, 5, .ro, 0, .any⟩, ⟨10, 8, .ro, 0, .any⟩]⟩,
  ⟨"MEM_IRQ_CFG", 0x00F00320, [], [⟨0, 11, .rw, 0, .any⟩, ⟨11, 1, .rw, 0, .any⟩, ⟨12, 1, .rw, 0, .any⟩, ⟨16, 16, .rw, 1024, .nonzero⟩]⟩,
  ⟨"MEM_INJ_ADDR_LO", 0x00F00400, [], [⟨0, 32, .rw, 0, .any⟩]⟩,
  ⟨"MEM_INJ_ADDR_HI", 0x00F00404, [], [⟨0, 32, .rw, 0, .any⟩]⟩,
  ⟨"MEM_INJ_CTL", 0x00F00408, [], [⟨0, 7, .rw, 0, .any⟩, ⟨7, 7, .rw, 0, .any⟩, ⟨14, 5, .rw, 0, .any⟩, ⟨19, 1, .rw, 0, .any⟩]⟩]
def Reg.rows15 : List Row := Reg.rows15_0
def Reg.rows16_0 : List Row := [
  ⟨"DMA_RETRY", 0x01000000, [], [⟨0, 3, .rw, 3, .any⟩, ⟨3, 10, .rw, 10, .nonzero⟩]⟩,
  ⟨"DMA_CH_RING_LO", 0x01010000, [(64, 4096)], [⟨0, 32, .rw, 0, (.low 6)⟩]⟩,
  ⟨"DMA_CH_RING_HI", 0x01010004, [(64, 4096)], [⟨0, 32, .rw, 0, .any⟩]⟩,
  ⟨"DMA_CH_RING_CFG", 0x01010008, [(64, 4096)], [⟨0, 5, .rw, 2, (.range 2 16)⟩, ⟨5, 1, .rw, 0, .any⟩]⟩,
  ⟨"DMA_CH_TAIL", 0x0101000C, [(64, 4096)], [⟨0, 16, .rw, 0, .any⟩]⟩,
  ⟨"DMA_CH_HEAD", 0x01010010, [(64, 4096)], [⟨0, 16, .ro, 0, .any⟩]⟩,
  ⟨"DMA_CH_CTL", 0x01010014, [(64, 4096)], [⟨0, 1, .rw, 0, .any⟩, ⟨1, 1, .wo, 0, .any⟩, ⟨2, 1, .wo, 0, .any⟩]⟩,
  ⟨"DMA_CH_STAT", 0x01010018, [(64, 4096)], [⟨0, 2, .ro, 0, .any⟩, ⟨2, 8, .ro, 0, .any⟩, ⟨10, 1, .w1c, 0, .any⟩]⟩,
  ⟨"DMA_CH_SCHED", 0x0101001C, [(64, 4096)], [⟨0, 3, .rws, 7, .any⟩, ⟨3, 4, .rws, 0, .any⟩, ⟨7, 3, .rws, 3, .any⟩, ⟨10, 1, .rws, 0, .any⟩, ⟨31, 1, .ro, 0, .any⟩]⟩,
  ⟨"DMA_CH_DWIN_LO", 0x01010020, [(64, 4096)], [⟨0, 32, .rw, 0, (.low 16)⟩]⟩,
  ⟨"DMA_CH_DWIN_HI", 0x01010024, [(64, 4096)], [⟨0, 32, .rw, 0, .any⟩]⟩,
  ⟨"DMA_CH_DWIN_SIZE", 0x01010028, [(64, 4096)], [⟨0, 21, .rw, 0, .any⟩]⟩,
  ⟨"DMA_CH_IRQ", 0x0101002C, [(64, 4096)], [⟨0, 11, .rw, 0, .any⟩, ⟨11, 1, .rw, 0, .any⟩, ⟨12, 1, .rw, 0, .any⟩]⟩,
  ⟨"DMA_CH_OWNER", 0x01010030, [(64, 4096)], [⟨0, 7, .rw, 127, .owner⟩, ⟨7, 2, .rw, 0, .any⟩, ⟨9, 6, .rw, 0, .any⟩]⟩]
def Reg.rows16 : List Row := Reg.rows16_0
def Reg.rows17_0 : List Row := [
  ⟨"HIF_LINK_STAT", 0x01100000, [], [⟨0, 3, .ro, 0, .any⟩, ⟨3, 5, .ro, 0, .any⟩, ⟨8, 1, .ro, 0, .any⟩, ⟨9, 6, .ro, 0, .any⟩]⟩,
  ⟨"HIF_FLR_STAT", 0x01100004, [], [⟨0, 6, .ro, 0, .any⟩, ⟨6, 1, .w1c, 0, .any⟩]⟩]
def Reg.rows17 : List Row := Reg.rows17_0
def Reg.rows18_0 : List Row := [
  ⟨"TRL_STAT", 0x01200000, [], [⟨0, 3, .ro, 0, .any⟩, ⟨3, 1, .ro, 0, .any⟩, ⟨4, 3, .ro, 0, .any⟩, ⟨7, 1, .ro, 0, .any⟩, ⟨8, 8, .ro, 0, .any⟩, ⟨16, 1, .ro, 0, .any⟩, ⟨17, 1, .ro, 0, .any⟩]⟩,
  ⟨"TRL_CFG", 0x01200004, [], [⟨0, 1, .rw, 0, .any⟩, ⟨1, 8, .ro, 0, .any⟩, ⟨9, 8, .ro, 0, .any⟩]⟩,
  ⟨"TRL_TB_OFF", 0x01200008, [], [⟨0, 32, .ro, 0, .any⟩]⟩,
  ⟨"TRL_LINK_CTL", 0x01200010, [(4, 4)], [⟨0, 1, .rw, 0, .any⟩, ⟨1, 1, .wo, 0, .any⟩]⟩,
  ⟨"TRL_LINK_STAT", 0x01200020, [(4, 4)], [⟨0, 3, .ro, 0, .any⟩, ⟨3, 3, .ro, 0, .any⟩, ⟨6, 1, .w1c, 0, .any⟩, ⟨7, 1, .w1c, 0, .any⟩, ⟨8, 1, .w1c, 0, .any⟩]⟩,
  ⟨"TRL_LINK_FREE", 0x01200030, [(4, 4)], [⟨0, 11, .ro, 1250, .any⟩]⟩,
  ⟨"TRL_ERR_CFG", 0x01200040, [], [⟨0, 16, .rw, 64, .any⟩]⟩,
  ⟨"TRL_ROUTE", 0x01200044, [], [⟨0, 2, .ro, 0, .any⟩, ⟨2, 2, .ro, 0, .any⟩, ⟨4, 2, .ro, 0, .any⟩, ⟨6, 2, .ro, 0, .any⟩, ⟨8, 2, .ro, 0, .any⟩, ⟨10, 2, .ro, 0, .any⟩, ⟨12, 2, .ro, 0, .any⟩, ⟨14, 2, .ro, 0, .any⟩, ⟨16, 8, .ro, 0, .any⟩]⟩,
  ⟨"TRL_STEER_SEL", 0x01200050, [], [⟨0, 20, .rw, 0, .any⟩]⟩,
  ⟨"TRL_STEER_DATA", 0x01200054, [], [⟨0, 3, .ro, 0, .any⟩, ⟨3, 1, .ro, 0, .any⟩, ⟨4, 1, .ro, 0, .any⟩]⟩]
def Reg.rows18 : List Row := Reg.rows18_0
def Reg.rows19_0 : List Row := [
  ⟨"CLP_STAT", 0x01300000, [], [⟨0, 2, .ro, 0, .any⟩, ⟨2, 3, .ro, 0, .any⟩, ⟨5, 1, .ro, 0, .any⟩, ⟨6, 1, .w1c, 0, .any⟩, ⟨7, 1, .w1c, 0, .any⟩, ⟨8, 1, .w1c, 0, .any⟩, ⟨9, 1, .w1c, 0, .any⟩]⟩,
  ⟨"CLP_CFG", 0x01300004, [], [⟨0, 1, .ro, 0, .any⟩, ⟨1, 1, .rw, 1, .any⟩]⟩,
  ⟨"CLP_CTL", 0x01300008, [], [⟨0, 1, .wo, 0, .any⟩, ⟨1, 1, .wo, 0, .any⟩]⟩,
  ⟨"CLP_OWN", 0x0130000C, [], [⟨0, 16, .ro, 65535, .any⟩]⟩,
  ⟨"CLP_LAG", 0x01300010, [], [⟨0, 16, .ro, 0, .any⟩, ⟨16, 16, .rc, 0, .any⟩]⟩,
  ⟨"CLP_SYNC", 0x01300014, [], [⟨0, 13, .rw, 1024, (.range 1 4096)⟩, ⟨13, 1, .ro, 0, .any⟩]⟩,
  ⟨"CLP_LINK_STAT", 0x01300020, [(4, 2)], [⟨0, 3, .ro, 0, .any⟩, ⟨3, 3, .ro, 0, .any⟩, ⟨6, 1, .w1c, 0, .any⟩, ⟨7, 1, .w1c, 0, .any⟩, ⟨8, 1, .w1c, 0, .any⟩]⟩,
  ⟨"CLP_LINK_CTL", 0x01300028, [(4, 2)], [⟨0, 1, .rw, 0, .any⟩, ⟨1, 1, .wo, 0, .any⟩]⟩,
  ⟨"CLP_IRQ", 0x01300030, [], [⟨0, 11, .rw, 0, .any⟩, ⟨11, 1, .rw, 0, .any⟩]⟩,
  ⟨"CLP_TAKEOVER_LO", 0x01300038, [], [⟨0, 32, .ro, 0, .any⟩]⟩,
  ⟨"CLP_TAKEOVER_HI", 0x0130003C, [], [⟨0, 32, .ro, 0, .any⟩]⟩,
  ⟨"CLP_ERR_CFG", 0x01300040, [], [⟨0, 16, .rw, 64, .any⟩]⟩]
def Reg.rows19 : List Row := Reg.rows19_0
def Reg.rows20_0 : List Row := [
  ⟨"FLT_STAT", 0x01400000, [], [⟨0, 3, .ro, 0, .any⟩, ⟨3, 5, .ro, 0, .any⟩, ⟨8, 1, .ro, 0, .any⟩, ⟨9, 1, .w1c, 0, .any⟩, ⟨10, 2, .ro, 0, .any⟩]⟩,
  ⟨"FLT_CFG", 0x01400004, [], [⟨0, 1, .rw, 0, .any⟩, ⟨1, 6, .rw, 20, (.range 5 30)⟩]⟩,
  ⟨"FLT_CTL", 0x01400008, [], [⟨0, 1, .wo, 0, .any⟩]⟩,
  ⟨"FLT_INJ", 0x0140000C, [], [⟨0, 5, .rw, 0, .any⟩, ⟨5, 11, .rw, 0, .any⟩, ⟨16, 1, .wo, 0, .any⟩]⟩,
  ⟨"FLT_IRQ", 0x01400010, [], [⟨0, 11, .rw, 0, .any⟩, ⟨11, 1, .rw, 0, .any⟩]⟩,
  ⟨"FLT_LOG_HEAD", 0x01400014, [], [⟨0, 32, .ro, 0, .any⟩]⟩,
  ⟨"FLT_AON", 0x01400018, [], [⟨0, 5, .ro, 0, .any⟩, ⟨5, 1, .w1c, 0, .any⟩]⟩,
  ⟨"FLT_POOL", 0x01400100, [(4, 34)], []⟩,
  ⟨"FLT_LOG", 0x01400400, [(16, 64), (4, 4)], [⟨0, 32, .ro, 0, .any⟩]⟩]
def Reg.rows20 : List Row := Reg.rows20_0
def Reg.rows21_0 : List Row := [
  ⟨"SGN_CTL", 0x01500000, [], [⟨0, 1, .rw, 0, .any⟩, ⟨1, 1, .wo, 0, .any⟩]⟩,
  ⟨"SGN_STAT", 0x01500004, [], [⟨0, 1, .ro, 0, .any⟩, ⟨1, 1, .ro, 0, .any⟩, ⟨2, 1, .ro, 0, .any⟩, ⟨3, 1, .w1c, 0, .any⟩, ⟨4, 1, .w1c, 0, .any⟩, ⟨5, 1, .ro, 0, .any⟩]⟩,
  ⟨"SGN_BOOT", 0x01500008, [], []⟩,
  ⟨"SGN_RESETS", 0x0150000C, [], []⟩,
  ⟨"SGN_BSEQ_LO", 0x01500010, [], [⟨0, 32, .ro, 0, .any⟩]⟩,
  ⟨"SGN_BSEQ_HI", 0x01500014, [], [⟨0, 32, .ro, 0, .any⟩]⟩,
  ⟨"SGN_K", 0x01500018, [], [⟨0, 32, .ro, 16777216, .any⟩]⟩,
  ⟨"SGN_STATIC_CFG", 0x0150001C, [], [⟨0, 19, .rw, 16000, (.range 1 262144)⟩]⟩,
  ⟨"SGN_CAL_ADDR_LO", 0x01500020, [], [⟨0, 32, .rw, 0, .any⟩]⟩,
  ⟨"SGN_CAL_ADDR_HI", 0x01500024, [], [⟨0, 32, .rw, 0, .any⟩]⟩,
  ⟨"SGN_CAL_STAT", 0x01500028, [], [⟨0, 8, .ro, 0, .any⟩]⟩,
  ⟨"SGN_CAL_VER", 0x0150002C, [], [⟨0, 32, .ro, 0, .any⟩]⟩,
  ⟨"SGN_LEDGER_LO", 0x01500030, [], [⟨0, 32, .rw, 0, (.low 16)⟩]⟩,
  ⟨"SGN_LEDGER_HI", 0x01500034, [], [⟨0, 32, .rw, 0, .any⟩]⟩,
  ⟨"SGN_LEDGER_SIZE", 0x01500038, [], [⟨0, 16, .rw, 0, .any⟩]⟩,
  ⟨"SGN_LEDGER_WR", 0x0150003C, [], [⟨0, 26, .ro, 0, .any⟩]⟩,
  ⟨"SGN_LEDGER_RD", 0x01500040, [], [⟨0, 26, .rw, 0, .any⟩]⟩,
  ⟨"SGN_IRQ", 0x01500044, [], [⟨0, 11, .rw, 0, .any⟩, ⟨11, 1, .rw, 0, .any⟩]⟩,
  ⟨"SGN_LAST", 0x01500100, [(4, 24)], [⟨0, 32, .ro, 0, .any⟩]⟩,
  ⟨"SGN_RLOG_LO", 0x01500400, [(32, 64)], [⟨0, 32, .rw, 0, (.low 6)⟩]⟩,
  ⟨"SGN_RLOG_HI", 0x01500404, [(32, 64)], [⟨0, 32, .rw, 0, .any⟩]⟩,
  ⟨"SGN_RLOG_CFG", 0x01500408, [(32, 64)], [⟨0, 1, .rw, 0, .any⟩, ⟨1, 16, .rw, 0, .any⟩]⟩,
  ⟨"SGN_RLOG_WR", 0x0150040C, [(32, 64)], [⟨0, 31, .ro, 0, .any⟩]⟩,
  ⟨"SGN_RLOG_RD", 0x01500410, [(32, 64)], [⟨0, 31, .rw, 0, .any⟩]⟩]
def Reg.rows21 : List Row := Reg.rows21_0
def Reg.rows22_0 : List Row := [
  ⟨"LPE_CFG", 0x01600000, [], [⟨0, 1, .rw, 0, .any⟩, ⟨1, 1, .rw, 0, .any⟩, ⟨2, 2, .rw, 1, .nonzero⟩]⟩,
  ⟨"LPE_WDOG_EN", 0x01600004, [], [⟨0, 9, .rw, 511, .any⟩]⟩,
  ⟨"LPE_WDOG_LIMIT", 0x01600008, [], [⟨0, 24, .rw, 10000, (.range 1000 10000000)⟩]⟩,
  ⟨"LPE_HANG_STAT", 0x0160000C, [], [⟨0, 1, .w1c, 0, .any⟩, ⟨1, 4, .ro, 0, .any⟩, ⟨5, 1, .ro, 0, .any⟩, ⟨6, 1, .w1c, 0, .any⟩, ⟨7, 1, .w1c, 0, .any⟩]⟩,
  ⟨"LPE_SNAP_ADDR_LO", 0x01600010, [], [⟨0, 32, .rw, 0, (.low 6)⟩]⟩,
  ⟨"LPE_SNAP_ADDR_HI", 0x01600014, [], [⟨0, 32, .rw, 0, .any⟩]⟩,
  ⟨"LPE_SNAP_SIZE", 0x01600018, [], [⟨0, 12, .rw, 0, .any⟩]⟩,
  ⟨"LPE_FREEZE", 0x01600020, [], [⟨0, 1, .wo, 0, .any⟩, ⟨1, 1, .wo, 0, .any⟩, ⟨2, 1, .wo, 0, .any⟩]⟩,
  ⟨"LPE_FREEZE_STAT", 0x01600024, [], [⟨0, 3, .ro, 0, .any⟩, ⟨3, 3, .ro, 0, .any⟩, ⟨6, 1, .w1c, 0, .any⟩, ⟨7, 1, .ro, 0, .any⟩]⟩,
  ⟨"LPE_DUMP_CTL", 0x01600030, [], [⟨0, 1, .wo, 0, .any⟩]⟩,
  ⟨"LPE_DUMP_LEN", 0x01600034, [], [⟨0, 32, .ro, 0, .any⟩]⟩,
  ⟨"LPE_DUMP_DATA", 0x01600038, [], [⟨0, 32, .ro, 0, .any⟩]⟩,
  ⟨"LPE_IRQ", 0x0160003C, [], [⟨0, 11, .rw, 0, .any⟩, ⟨11, 1, .rw, 0, .any⟩]⟩,
  ⟨"LPE_SAMPLE_CFG", 0x01600040, [], [⟨0, 1, .rw, 0, .any⟩, ⟨1, 16, .rw, 1000, .nonzero⟩, ⟨17, 8, .rw, 0, .any⟩]⟩,
  ⟨"LPE_SAMPLE_RING_LO", 0x01600044, [], [⟨0, 32, .rw, 0, (.low 16)⟩]⟩,
  ⟨"LPE_SAMPLE_RING_HI", 0x01600048, [], [⟨0, 32, .rw, 0, .any⟩]⟩,
  ⟨"LPE_SAMPLE_SIZE", 0x0160004C, [], [⟨0, 16, .rw, 0, .any⟩]⟩,
  ⟨"LPE_SAMPLE_WR", 0x01600050, [], [⟨0, 26, .ro, 0, .any⟩]⟩,
  ⟨"LPE_SAMPLE_RD", 0x01600054, [], [⟨0, 26, .rw, 0, .any⟩]⟩,
  ⟨"LPE_SAMPLE_LIST", 0x01600400, [(4, 256)], [⟨0, 25, .rw, 0, .any⟩]⟩]
def Reg.rows22 : List Row := Reg.rows22_0
def Reg.rows23_0 : List Row := [
  ⟨"SEC_SGN_PUB", 0x01700100, [(4, 8)], []⟩,
  ⟨"SEC_CERT_LEN", 0x01700120, [], []⟩,
  ⟨"SEC_CERT", 0x01701000, [(4, 2048)], []⟩,
  ⟨"SEC_ROOT", 0x01700200, [(64, 4), (4, 12)], []⟩,
  ⟨"SEC_KEY_STAT", 0x01700300, [], []⟩,
  ⟨"SEC_SVN", 0x01700304, [], []⟩,
  ⟨"SEC_PROV_DATA", 0x01700400, [(4, 12)], [⟨0, 32, .wo, 0, .any⟩]⟩,
  ⟨"SEC_PROV_CTL", 0x01700440, [], [⟨0, 3, .wo, 0, .any⟩, ⟨3, 2, .wo, 0, .any⟩, ⟨5, 6, .wo, 0, .any⟩, ⟨11, 1, .wo, 0, .any⟩]⟩,
  ⟨"SEC_PROV_STAT", 0x01700444, [], [⟨0, 1, .ro, 0, .any⟩, ⟨1, 2, .ro, 0, .any⟩]⟩]
def Reg.rows23 : List Row := Reg.rows23_0

/-- The rows of the aperture with index `k` (21_register_index, PF BAR0). -/
def Reg.rowsOf (k : Nat) : List Row :=
  match k with
  | 0 => Reg.rows0
  | 1 => Reg.rows1
  | 2 => Reg.rows2
  | 3 => Reg.rows3
  | 4 => Reg.rows4
  | 5 => Reg.rows5
  | 6 => Reg.rows6
  | 7 => Reg.rows7
  | 8 => Reg.rows8
  | 9 => Reg.rows9
  | 10 => Reg.rows10
  | 11 => Reg.rows11
  | 12 => Reg.rows12
  | 13 => Reg.rows13
  | 14 => Reg.rows14
  | 15 => Reg.rows15
  | 16 => Reg.rows16
  | 17 => Reg.rows17
  | 18 => Reg.rows18
  | 19 => Reg.rows19
  | 20 => Reg.rows20
  | 21 => Reg.rows21
  | 22 => Reg.rows22
  | 23 => Reg.rows23
  | _ => []

/-- The counter tables of the aperture with index `k`: low-half address and strides. -/
def Ctr.rowsOf (k : Nat) : List (Nat × List (Nat × Nat)) :=
  match k with
  | 1 => [(0x00101000, []),
      (0x00101008, []),
      (0x00101010, []),
      (0x00101018, []),
      (0x00101020, []),
      (0x00101028, []),
      (0x00101030, []),
      (0x00101038, []),
      (0x00101040, []),
      (0x00101048, [])]
  | 2 => [(0x00206000, []),
      (0x00206008, []),
      (0x00206010, []),
      (0x00206018, []),
      (0x00206020, []),
      (0x00206028, []),
      (0x00206030, []),
      (0x00206038, []),
      (0x00206040, []),
      (0x00206048, []),
      (0x00206050, []),
      (0x00206058, []),
      (0x00206060, [])]
  | 3 => [(0x00302000, []),
      (0x00302008, []),
      (0x00302010, []),
      (0x00302018, []),
      (0x00302020, []),
      (0x00302028, []),
      (0x00302030, []),
      (0x00302038, []),
      (0x00302040, []),
      (0x00302048, [])]
  | 4 => [(0x00401000, [(64, 32)]),
      (0x00401008, [(64, 32)]),
      (0x00401010, [(64, 32)]),
      (0x00401018, [(64, 32)]),
      (0x00401020, [(64, 32)]),
      (0x00401028, [(64, 32)]),
      (0x00401030, [(64, 32)]),
      (0x00401038, [(64, 32)])]
  | 5 => [(0x00501000, []),
      (0x00501008, []),
      (0x00501010, []),
      (0x00501018, []),
      (0x00501020, []),
      (0x00501028, []),
      (0x00501030, []),
      (0x00501038, []),
      (0x00501040, []),
      (0x00501048, []),
      (0x00501050, []),
      (0x00501058, [])]
  | 6 => [(0x00601000, [(128, 8), (8, 16)]),
      (0x00601400, [(8, 8)]),
      (0x00601440, [(8, 8)]),
      (0x00601480, [])]
  | 7 => [(0x00701000, []),
      (0x00701008, []),
      (0x00701010, []),
      (0x00701018, []),
      (0x00701020, []),
      (0x00701028, []),
      (0x00701030, []),
      (0x00701038, []),
      (0x00701040, []),
      (0x00701048, []),
      (0x00701050, []),
      (0x00701058, []),
      (0x00701060, []),
      (0x00701068, []),
      (0x00701070, []),
      (0x00701078, []),
      (0x00701080, []),
      (0x00702000, [(8, 256)])]
  | 8 => [(0x00801000, []),
      (0x00801008, []),
      (0x00801010, []),
      (0x00801018, []),
      (0x00801020, [])]
  | 9 => [(0x00901000, []),
      (0x00901008, []),
      (0x00901010, []),
      (0x00901018, []),
      (0x00901020, []),
      (0x00901028, []),
      (0x00901030, [])]
  | 10 => [(0x00A01000, []),
      (0x00A01008, []),
      (0x00A01010, []),
      (0x00A01018, []),
      (0x00A01020, []),
      (0x00A01028, []),
      (0x00A01030, []),
      (0x00A01038, []),
      (0x00A01040, []),
      (0x00A01048, []),
      (0x00A01050, []),
      (0x00A01058, []),
      (0x00A01060, []),
      (0x00A01068, [])]
  | 11 => [(0x00B01000, []),
      (0x00B01008, []),
      (0x00B01010, []),
      (0x00B01018, []),
      (0x00B01020, []),
      (0x00B01028, []),
      (0x00B01030, []),
      (0x00B01038, []),
      (0x00B01040, []),
      (0x00B01048, []),
      (0x00B01050, []),
      (0x00B01058, []),
      (0x00B01060, []),
      (0x00B01068, []),
      (0x00B01070, [])]
  | 12 => [(0x00C01000, [(64, 8)]),
      (0x00C01008, [(64, 8)]),
      (0x00C01010, [(64, 8)]),
      (0x00C01018, [(64, 8)]),
      (0x00C01020, [(64, 8)]),
      (0x00C01028, [(64, 8)]),
      (0x00C01400, [])]
  | 13 => [(0x00D01000, [(8, 8)]),
      (0x00D01040, []),
      (0x00D01048, []),
      (0x00D01050, []),
      (0x00D02000, [(32, 256)]),
      (0x00D02008, [(32, 256)]),
      (0x00D02010, [(32, 256)]),
      (0x00D02018, [(32, 256)])]
  | 14 => [(0x00E01000, []),
      (0x00E01008, []),
      (0x00E01010, []),
      (0x00E01018, []),
      (0x00E01020, []),
      (0x00E01028, [])]
  | 15 => [(0x00F01000, [(128, 8)]),
      (0x00F01008, [(128, 8)]),
      (0x00F01010, [(128, 8)]),
      (0x00F01018, [(128, 8)]),
      (0x00F01020, [(128, 8)]),
      (0x00F01028, [(128, 8)]),
      (0x00F01030, [(128, 8)]),
      (0x00F01038, [(128, 8)]),
      (0x00F01040, [(128, 8)])]
  | 16 => [(0x01001000, []),
      (0x01001008, []),
      (0x01001010, []),
      (0x01001018, []),
      (0x01001020, []),
      (0x01001028, []),
      (0x01001030, []),
      (0x01001038, []),
      (0x01001040, []),
      (0x01001048, []),
      (0x01001050, [])]
  | 17 => [(0x01101000, [])]
  | 18 => [(0x01201000, []),
      (0x01201008, []),
      (0x01201010, []),
      (0x01201018, []),
      (0x01201020, []),
      (0x01201028, []),
      (0x01201030, []),
      (0x01201038, []),
      (0x01201040, []),
      (0x01201048, []),
      (0x01201050, []),
      (0x01201058, []),
      (0x01201060, []),
      (0x01201068, [])]
  | 19 => [(0x01301000, []),
      (0x01301008, []),
      (0x01301010, []),
      (0x01301018, []),
      (0x01301020, []),
      (0x01301028, []),
      (0x01301030, []),
      (0x01301038, []),
      (0x01301040, []),
      (0x01301048, [])]
  | 20 => [(0x01401000, []),
      (0x01401008, []),
      (0x01401010, []),
      (0x01401018, []),
      (0x01401020, []),
      (0x01401028, []),
      (0x01401030, []),
      (0x01401038, []),
      (0x01401040, [])]
  | 21 => [(0x01501000, []),
      (0x01501008, []),
      (0x01501010, []),
      (0x01501018, []),
      (0x01502000, [(16, 64)]),
      (0x01502008, [(16, 64)])]
  | 22 => [(0x01604000, [(128, 64)]),
      (0x01604008, [(128, 64)]),
      (0x01604010, [(128, 64)]),
      (0x01604018, [(128, 64)]),
      (0x01604020, [(128, 64)]),
      (0x01604028, [(128, 64)]),
      (0x01604030, [(128, 64)]),
      (0x01604038, [(128, 64)]),
      (0x01604040, [(128, 64)]),
      (0x01604048, [(128, 64)]),
      (0x01604050, [(128, 64)]),
      (0x01604058, [(128, 64)]),
      (0x01601000, []),
      (0x01601008, []),
      (0x01601010, []),
      (0x01601018, []),
      (0x01601020, []),
      (0x01601028, []),
      (0x01601030, []),
      (0x01601038, [])]
  | _ => []

end Sys2Proof.Machine
end

