-- ==== Sys2Proof/Machine/BusErr.lean ====
section
/-!
DEFINITION. BusErr.lean: register accesses that cannot reach their block (R11, R420 to R422, R431).
-/
namespace Sys2Proof.Machine.Ops

/-- A bus error (R11): the first is latched in `TOP_BUSERR_LOG` (R422). `ap` is the aperture, 30 for BAR2. -/
def busFail (d : Dev) (fn ap addr : Nat) (write : Bool) (cause : Nat) : Dev :=
  let d := if rdB d Reg.topBuserrLogValid then wr d Reg.topBuserrLogMore 1
    else wrs d [(Reg.topBuserrLogAperture, ap), (Reg.topBuserrLogFunc, fn), (Reg.topBuserrLogWrite, b2n write),
      (Reg.topBuserrLogCause, cause), (Reg.topBuserrLogValid, 1), (Reg.topBuserrAddrLoAddr, addr % 2 ^ 32),
      (Reg.topBuserrAddrHiAddr, addr / 2 ^ 32)]
  emit d (.busError fn addr)

/-- A clock hold is in progress (R431). -/
def holding (d : Dev) : Bool := rdB d Reg.clkRootStatHolding

/-- The blocks that answer during a clock hold: TOP, CLK/PWR, CFG, GRF, HIF, FLT, LPE, SEC (R431). -/
def heldOk (k : Nat) : Bool := [0, 1, 2, 3, 17, 20, 22, 23].contains k

/-- The cause for which an access to block `k` fails: 2 in a clock hold, 0 where its gate is not ON. -/
def blockCause (d : Dev) (k : Nat) : Option Nat :=
  if holding d && !heldOk k then some 2 else if !gateOn d k then some 0 else none

/-- While the freeze state is not RUNNING, a write to a block other than TOP, CLK/PWR, LPE and SEC is discarded (R491). -/
def discards (d : Dev) (k : Nat) : Bool := rd d Reg.lpeFreezeStatState != 0 && !([0, 1, 22, 23].contains k)

/-- An access of a function reaches the device: HIF is out of `PERST_N`, and the VF exists (R340, R474); the management bridge and the
cores do not go through HIF. -/
def reaches (d : Dev) (fn : Nat) : Bool := decide (64 ≤ fn) || (!d.hif.perst && decide (fn ≤ d.hif.numVfs))

/-- An access of function `fn` to the PF BAR0 address `addr`: the effect `f`, a bus error, or a write discarded in a freeze. No
access arrives over PCIe while `PERST_N` holds it in reset, or from a VF that is not enabled (R340, R474). -/
def access (d : Dev) (fn addr : Nat) (write : Bool) (f : Dev → Dev) : Dev :=
  if !reaches d fn then d else
  match blockCause d (addr / 0x100000) with
  | some c => busFail d fn (addr / 0x100000) addr write c
  | none => if write ∧ discards d (addr / 0x100000) then tick d Ctr.lpeFrozenWr else f d

end Sys2Proof.Machine.Ops
end

