-- ==== Sys2Proof/Machine/Codes.lean ====
section
/-!
DEFINITION. Codes.lean: the check codes and digests that the spec fixes: CRC-32C (R48), CRC-16 of node words (R176),
SHA-256 (R246, R447, R452), the inner SEC-DED code (R324) and the outer code over GF(256) (R325).
-/
namespace Sys2Proof.Machine.Codes
open Sys2Proof.Machine.Ops

/-- `n` steps of a reflected CRC register with polynomial `poly`. -/
def crcSteps (poly : Nat) : Nat → Nat → Nat
  | 0, r => r
  | n + 1, r => crcSteps poly n (if r % 2 = 1 then (r / 2) ^^^ poly else r / 2)

/-- The reflected CRC register after a byte string. -/
def crcRefl (poly : Nat) (bs : Bytes) (r : Nat) : Nat :=
  bs.foldl (fun r b => crcSteps poly 8 (r ^^^ b.toNat)) r

/-- CRC-32C with the parameters of R48: polynomial 0x1EDC6F41 reflected, all-ones start and final XOR. -/
def crc32c (bs : Bytes) : Nat := crcRefl 0x82F63B78 bs 0xFFFFFFFF ^^^ 0xFFFFFFFF

def rotr (n x : Nat) : Nat := (x / 2 ^ n + x * 2 ^ (32 - n)) % 2 ^ 32
def add32 (a b : Nat) : Nat := (a + b) % 2 ^ 32

/-- The largest `x` below `2^n` with `x^k ≤ m`, one bit at a time from the top. -/
def rootBits (k m : Nat) : Nat → Nat → Nat
  | 0, x => x
  | n + 1, x => rootBits k m n (if (x + 2 ^ n) ^ k ≤ m then x + 2 ^ n else x)

/-- The first 32 bits of the fraction of the `k`-th root of `p`. -/
def rootFrac (k p : Nat) : Nat := rootBits k (p * 2 ^ (32 * k)) 40 0 % 2 ^ 32

/-- The first 64 primes: the numbers from 2 to 311 with no smaller divisor. -/
def primes64 : List Nat :=
  (List.range 312).filter fun p => 2 ≤ p && (List.range 18).all fun q => q < 2 || p ≤ q || p % q != 0

/-- The round constants of SHA-256: the fractions of the cube roots of the first 64 primes. -/
def shaK : List Nat := primes64.map (rootFrac 3)

/-- The start of SHA-256: the fractions of the square roots of the first eight primes. -/
def shaInit : List Nat := (primes64.take 8).map (rootFrac 2)

/-- The message schedule: the sixteen words of a block, newest first, extended by `n` words. -/
def shaExtend : Nat → List Nat → List Nat
  | 0, ws => ws
  | n + 1, ws =>
    let g := fun i => ws.getD i 0
    let s0 := rotr 7 (g 14) ^^^ rotr 18 (g 14) ^^^ (g 14 / 8)
    let s1 := rotr 17 (g 1) ^^^ rotr 19 (g 1) ^^^ (g 1 / 1024)
    shaExtend n (add32 (add32 (g 15) s0) (add32 (g 6) s1) :: ws)

/-- One round over the eight working words. -/
def shaRound (h : List Nat) (kw : Nat × Nat) : List Nat :=
  match h with
  | [a, b, c, d, e, f, g, hh] =>
    let s1 := rotr 6 e ^^^ rotr 11 e ^^^ rotr 25 e
    let ch := (e &&& f) ^^^ ((e ^^^ 0xFFFFFFFF) &&& g)
    let t1 := add32 (add32 hh s1) (add32 (add32 ch kw.1) kw.2)
    let s0 := rotr 2 a ^^^ rotr 13 a ^^^ rotr 22 a
    let mj := (a &&& b) ^^^ (a &&& c) ^^^ (b &&& c)
    [add32 t1 (add32 s0 mj), a, b, c, add32 d t1, e, f, g]
  | _ => h

def shaBlock (h : List Nat) (blk : Bytes) : List Nat :=
  let w0 := tab 16 (fun i => beNat (slice blk (4 * i) 4))
  let ws := (shaExtend 48 w0.reverse).reverse
  List.zipWith add32 h ((List.zip shaK ws).foldl shaRound h)

def shaBlocks : Nat → List Nat → Bytes → List Nat
  | 0, h, _ => h
  | n + 1, h, bs => shaBlocks n (shaBlock h (bs.take 64)) (bs.drop 64)

/-- SHA-256 of a byte string, 32 bytes in the standard's order (R4). -/
def sha256 (bs : Bytes) : Bytes :=
  let pad := (119 - bs.length % 64) % 64
  let m := bs ++ [(0x80 : Byte)] ++ zeros pad ++ beBytes 8 (8 * bs.length)
  (shaBlocks (m.length / 64) shaInit m).flatMap (beBytes 4)

/-- Column codes of the 64 data bits of a stored word (R324): the bytes of weight 3 in rising order, then eight of weight 5. -/
def secCols : List Nat :=
  ((List.range 256).filter fun b => popcount 8 b == 3) ++ [0x1F, 0x2F, 0x37, 0x3B, 0x3D, 0x3E, 0x4F, 0x57]

/-- The column code of physical bit `i` of a stored word, 64 to 71 being the check bits (R324). -/
def secCol (i : Nat) : Nat := if i < 64 then secCols.getD i 0 else 2 ^ (i - 64)

/-- The syndrome of a stored word whose bits `fl` are flipped: the code is linear (R324). -/
def secSyndrome (fl : List Nat) : Nat := fl.foldl (fun s i => s ^^^ secCol i) 0

/-- What the inner decoder makes of a stored word with flipped bits (R324): the bits still wrong and whether it corrected;
`none` = uncorrectable. -/
def secDecode (fl : List Nat) : Option (List Nat × Bool) :=
  let s := secSyndrome fl
  if s = 0 then some (fl, false)
  else match (List.range 72).find? fun i => secCol i == s with
    | some i => some (if i ∈ fl then fl.filter (· != i) else i :: fl, true)
    | none => none

/-- Multiplication in GF(256) with polynomial 0x11D (R325), by the bits of `a`. -/
def gfMul (a b : Nat) : Nat :=
  ((List.range 8).foldl (fun (p : Nat × Nat) i =>
    (if bit a i then p.1 ^^^ p.2 else p.1, if bit p.2 7 then ((p.2 * 2) ^^^ 0x11D) % 256 else p.2 * 2)) (0, b)).1

/-- A power of alpha = 2. -/
def gfPow : Nat → Nat
  | 0 => 1
  | n + 1 => gfMul 2 (gfPow n)

/-- The inverse of a non-zero element. -/
def gfInv (a : Nat) : Nat := ((List.range 256).find? fun b => gfMul a b == 1).getD 0

/-- The coefficient of symbol `k` in syndrome `i`: alpha^(i (35 - k)) (R325). -/
def rsCoef (i k : Nat) : Nat := gfPow (i * (35 - k) % 255)

/-- The four syndromes of an error pattern given as (symbol, value). -/
def rsSyndromes (e : List (Nat × Nat)) : List Nat :=
  tab 4 fun i => e.foldl (fun s p => s ^^^ gfMul (rsCoef i p.1) p.2) 0

/-- Solves a linear system over GF(256) given as rows of coefficients with the right side last, one unknown per step:
the solution, newest unknown last; `none` where there is none. -/
def gfSolve : Nat → List (List Nat) → Option (List Nat)
  | 0, rows => if rows.all fun r => r.getD 0 0 == 0 then some [] else none
  | n + 1, rows =>
    match rows.find? fun r => r.getD 0 0 != 0 with
    | none => none
    | some pv =>
      let inv := gfInv (pv.getD 0 0)
      let pv' := pv.map (gfMul inv)
      let rest := (rows.erase pv).map fun r =>
        (List.zipWith (fun a b => a ^^^ gfMul (r.getD 0 0) b) r pv').drop 1
      match gfSolve n rest with
      | none => none
      | some xs =>
        let t := pv'.drop 1
        let v := (List.zipWith gfMul (t.take n) xs).foldl (fun a b => a ^^^ b) (t.getD n 0)
        some (v :: xs)

/-- The values at the symbols `ps` whose syndromes are `syn`. -/
def rsSolve (syn ps : List Nat) : Option (List (Nat × Nat)) :=
  (gfSolve ps.length (tab 4 fun i => ps.map (rsCoef i) ++ [syn.getD i 0])).map fun xs => ps.zip xs

/-- Pairs of symbols. -/
def rsPairs (qs : List Nat) : List (List Nat) := qs.flatMap fun a => (qs.filter fun b => a < b).map fun b => [a, b]

/-- What the outer decoder takes as the error of a codeword (R325, R326 step 3): the erased symbols `er` and at most
`(4 - er) / 2` further ones; `none` = uncorrectable. -/
def rsDecode (er : List Nat) (e : List (Nat × Nat)) : Option (List (Nat × Nat)) :=
  let syn := rsSyndromes e
  let others := (List.range 36).filter fun k => !er.contains k
  let cands : List (List Nat) := [[]] ++
    (if er.length ≤ 2 then others.map fun k => [k] else []) ++
    (if er.length = 0 then rsPairs others else [])
  if er.length > 4 then none
  else cands.foldl (fun r c => match r with
    | some x => some x
    | none => rsSolve syn (er ++ c)) none

end Sys2Proof.Machine.Codes
end

