-- ==== Sys2Proof/Machine/Window.lean ====
section
/-!
DEFINITION. Window.lean: the cells of the window store: tumbling, sliding and decaying windows and their aggregates
(R125 to R134). A cell is its stored bytes; the functions here read and update them.
-/
namespace Sys2Proof.Machine.Window
open Sys2Proof.Machine.Ops

/-- Bytes of a cell (R125). -/
def cellSize (d : WinDesc) : Nat := if d.kind = 1 then 16 * cdiv (8 + 4 * d.b) 16 else 16

/-- The stored value of an empty aggregate (R134). -/
def empty (agg : Nat) : Nat := if agg = 2 then 0xFFFFFFFF else 0

/-- What reading an aggregate gives: `none` is a missing feature (R134). -/
def readAgg (agg v : Nat) : Option Nat := if agg ≥ 2 ∧ v = empty agg then none else some v

/-- The aggregate with `x` added, and whether it saturated (R134). -/
def add (agg a x : Nat) : Nat × Bool :=
  if agg ≤ 1 then (min (a + x) 0xFFFFFFFF, decide (a + x > 0xFFFFFFFF))
  else if agg = 2 then (min a x, false) else (max a x, false)

/-- The bytes of a cell that is set empty (R131 to R135). -/
def emptyCell (d : WinDesc) : Bytes :=
  match d.kind with
  | 0 => zeros 8 ++ leBytes 4 (empty d.agg) ++ leBytes 4 (empty d.agg)
  | 1 => padTo (cellSize d) (zeros 8 ++ (tab d.b fun _ => leBytes 4 (empty d.agg)).flatten)
  | _ => zeros 16

/-- The decay constants Tab[j] (R133). -/
def tabDecay : List Nat := [65536, 62757, 60097, 57549, 55109, 52773, 50535, 48393,
  46341, 44376, 42495, 40693, 38968, 37316, 35734, 34219]

/-- `a / b` rounded half to even. -/
def divHalfEven (a b : Nat) : Nat :=
  let q := a / b
  let r := a % b
  if 2 * r > b ∨ (2 * r = b ∧ q % 2 = 1) then q + 1 else q

/-- The decayed value of a cell at event time `t`, and the steps elapsed (R133). -/
def decayed (d : WinDesc) (t t0 v : Nat) : Nat × Nat :=
  let n := (t - t0) >>> (d.hl - 4)
  let s := n / 16
  (if s ≥ 32 then 0 else divHalfEven ((v >>> s) * tabDecay.getD (n % 16) 0) 65536, n)

/-- What an access does to its counters beside the value: an update was discarded, an aggregate saturated. -/
structure Res where
  cell : Bytes
  val : Option Nat
  late : Bool
  sat : Bool
  deriving DecidableEq, Repr

/-- The sub-bucket indices that a PART 0 read combines (R132). -/
def slideIdx (d : WinDesc) (k kn : Nat) : List Nat :=
  (List.range d.b).filterMap fun i =>
    if i ≤ k ∧ k - i ≤ kn ∧ kn < k - i + d.b then some (k - i) else none

def sub (d : WinDesc) (c : Bytes) (q : Nat) : Nat := le c (8 + 4 * (q % d.b)) 4
def setSub (d : WinDesc) (c : Bytes) (q v : Nat) : Bytes := splice c (8 + 4 * (q % d.b)) (leBytes 4 v)

/-- Reads part `part` of a cell at event time `t` (R131 to R134): the value and whether a combination saturated. -/
def read (d : WinDesc) (c : Bytes) (t : Nat) (part : Bool) : Option Nat × Bool :=
  match d.kind with
  | 0 =>
    let k := t / d.w
    let ix := le c 0 8
    let a := le c 8 4
    let p := le c 12 4
    let e := empty d.agg
    let v := if ix = k then (if part then p else a) else if ix + 1 = k then (if part then a else e) else e
    (readAgg d.agg v, false)
  | 1 =>
    let k := t / (d.w / d.b)
    let kn := le c 0 8
    if part then
      (if k ≤ kn ∧ kn < k + d.b then readAgg d.agg (sub d c k) else readAgg d.agg (empty d.agg), false)
    else
      let r := (slideIdx d k kn).foldl (fun (a : Nat × Bool) q =>
        let z := add d.agg a.1 (sub d c q)
        (z.1, a.2 || z.2)) (empty d.agg, false)
      (readAgg d.agg r.1, r.2)
  | _ =>
    let v := (decayed d t (le c 0 8) (le c 8 4)).1
    (some (if part then v / 256 else v), false)

/-- The sub-buckets K + 1 to k set empty (R132). -/
def clearSubs (d : WinDesc) (c : Bytes) (kn k : Nat) : Bytes :=
  (List.range (min (k - kn) d.b)).foldl (fun c i => setSub d c (k - i) (empty d.agg)) c

/-- Updates a cell with `x` at event time `t` (R131 to R134). -/
def update (d : WinDesc) (c : Bytes) (t x : Nat) : Bytes × Bool × Bool :=
  match d.kind with
  | 0 =>
    let k := t / d.w
    let ix := le c 0 8
    let a := le c 8 4
    let e := empty d.agg
    if ix > k then (c, true, false)
    else
      let cur := if ix = k then a else e
      let prev := if ix = k then le c 12 4 else if ix + 1 = k then a else e
      let z := add d.agg cur x
      (leBytes 8 k ++ leBytes 4 z.1 ++ leBytes 4 prev, false, z.2)
  | 1 =>
    let k := t / (d.w / d.b)
    let kn := le c 0 8
    let c := if k > kn then splice (clearSubs d c kn k) 0 (leBytes 8 k) else c
    let kn := max k kn
    if kn < k + d.b then
      let z := add d.agg (sub d c k) x
      (setSub d c k z.1, false, z.2)
    else (c, true, false)
  | _ =>
    let t0 := le c 0 8
    let v := le c 8 4
    let r := decayed d t t0 v
    let nv := min (r.1 + 256 * x) 0xFFFFFFFF
    let nt := if t0 = 0 ∧ v = 0 then t else if t ≤ t0 then t0 else t0 + (r.2 <<< (d.hl - 4))
    (leBytes 8 nt ++ leBytes 4 nv ++ zeros 4, false, decide (r.1 + 256 * x > 0xFFFFFFFF))

end Sys2Proof.Machine.Window
end

