-- ==== Sys2Proof/Machine/Fea.lean ====
section
/-!
DEFINITION. Fea.lean: the feature programs (R117 to R124): instruction words, metadata and flow items, the ALU.
A feature vector is the map of its valid features.
-/
namespace Sys2Proof.Machine

namespace Fea
open Sys2Proof.Machine.Ops

/-- The fields of an instruction word (R121). -/
def op (w : Nat) : Nat := bits w 0 6
def dst (w : Nat) : Nat := bits w 6 11
def cnt (w : Nat) : Nat := bits w 17 6

/-- Writes a lane result: a missing result makes the feature invalid. -/
def wr (fs : Map Nat) (i : Nat) (v : Option Nat) : Map Nat :=
  match v with
  | some x => set fs i x
  | none => del fs i

/-- A 32-bit number as binary32, round half to even; `neg` gives the sign (CVTU, CVTS). -/
def natToF32 (neg : Bool) (a : Nat) : Nat :=
  if a = 0 then 0 else
  let e := Nat.log2 a
  let m := if e ≤ 23 then a <<< (23 - e) else Window.divHalfEven a (2 ^ (e - 23))
  b2n neg * 2 ^ 31 + ((e + 127) * 2 ^ 23 + m - 2 ^ 23)

/-- LOG2 of R124. -/
def log2Feat (a : Nat) : Option Nat :=
  if a = 0 then none else
  let e := Nat.log2 a
  let r := a - 2 ^ e
  let m := if e ≥ 8 then r >>> (e - 8) else r <<< (8 - e)
  some (e * 256 + m)

/-- The two-operand and one-operand results of R124 (SEL apart); `none` is invalid. -/
def alu (o sh : Nat) (a b : Nat) : Option Nat :=
  match o with
  | 0x10 => some ((a + b) % 2 ^ 32)
  | 0x11 => some ((a + 2 ^ 32 - b) % 2 ^ 32)
  | 0x12 => some (a &&& b)
  | 0x13 => some (a ||| b)
  | 0x14 => some (a ^^^ b)
  | 0x15 => some (a >>> sh)
  | 0x16 => some ((a <<< sh) % 2 ^ 32)
  | 0x17 => some (min a b)
  | 0x18 => some (max a b)
  | 0x19 => some (a * b % 2 ^ 32)
  | 0x1A => if b = 0 then none else some (a / b)
  | 0x1B => some (natToF32 false a)
  | 0x1C => some (if a < 2 ^ 31 then natToF32 false a else natToF32 true (2 ^ 32 - a))
  | 0x1D => log2Feat a
  | 0x1F => some (b2n (decide (a < b)))
  | _ => none

/-- The operations that read operand B. -/
def twoOp (o : Nat) : Bool := !(o == 0x15 || o == 0x16 || o == 0x1B || o == 0x1C || o == 0x1D)

/-- One lane of an ALU instruction. -/
def aluLane (fs : Map Nat) (w i : Nat) : Option Nat :=
  let a := find? fs (bits w 32 11 + i)
  let b := find? fs (bits w 43 11 + (if bit w 59 then 0 else i))
  let o := op w
  if o = 0x1E then (if a.isSome then a else b)
  else match a, b with
    | some x, some y => alu o (bits w 54 5) x y
    | some x, none => if twoOp o then none else alu o (bits w 54 5) x 0
    | none, _ => none

/-- HASH (R121): CRC-32C over features A to A + CNT. -/
def hash (fs : Map Nat) (w : Nat) : Nat :=
  Codes.crc32c ((tab (cnt w + 1) fun i => leBytes 4 (getD fs (bits w 32 11 + i) 0)).flatten)

/-- One lane of an instruction (R121). -/
def lane (e : FeaEnv) (fs : Map Nat) (w i : Nat) : Option Nat :=
  match op w with
  | 0x01 => some (bits w 32 32)
  | 0x02 => find? e.fb (bits w 32 7 + i)
  | 0x03 => if bits w 32 9 + i < e.fr.length then some (byteAt e.fr (bits w 32 9 + i)) else none
  | 0x04 => (e.metas.getD (bits w 32 8) none)
  | 0x05 =>
    let d := bits w 48 16
    match e.flow with
    | none => some d
    | some l =>
      match l.getD (bits w 32 8) .inval with
      | .val v => some v
      | .inval => none
      | .dflt => some d
  | 0x07 => e.winRes.getD (bits w 32 8) none
  | _ => aluLane fs w i

/-- One instruction other than WIN: all lanes read before any lane writes (R121). -/
def instr (e : FeaEnv) (fs : Map Nat) (w : Nat) : Map Nat :=
  match op w with
  | 0x00 => fs
  | 0x06 => fs
  | 0x08 => set fs (dst w) (hash fs w)
  | _ => (List.range (cnt w + 1)).foldl (fun g i => wr g (dst w + i) (lane e fs w i)) fs

/-- The request of a WIN instruction, read at its own station (R126, R127). -/
def winReq (fs : Map Nat) (w : Nat) : WinReq :=
  { rd := bit w 23, up := bit w 24, part := bit w 25, desc := bits w 32 8,
    keyf := find? fs (bits w 40 11), valf := find? fs (bits w 51 11), dst := dst w }

/-- Runs PRE or POST instructions and collects the window requests in program order. -/
def run (e : FeaEnv) (p : List Nat) (fs : Map Nat) : Map Nat × List WinReq :=
  p.foldl (fun (s : Map Nat × List WinReq) w =>
    if op w = 0x06 then (s.1, s.2 ++ [winReq s.1 w]) else (instr e s.1 w, s.2)) (fs, [])

end Fea
end Sys2Proof.Machine
end

