-- ==== Sys2Proof/Machine/Num.lean ====
section
/-!
DEFINITION. Num.lean: number formats (R146 to R150), conversions (R151 to R157), adaptive scales (R161) and the
tables of the link and activation functions (R181, R204), all by exact integer arithmetic.
-/
namespace Sys2Proof.Machine.Fmt
open Sys2Proof.Machine.Ops

/-- `x * 2^k` rounded half to even. -/
def shiftHalfEven (x : Nat) (k : Int) : Nat :=
  if k ≥ 0 then x * 2 ^ k.toNat else Window.divHalfEven x (2 ^ (-k).toNat)

/-- `a / b` of integers, `b > 0`, rounded half to even. -/
def divHalfEvenInt (a : Int) (b : Nat) : Int :=
  if a ≥ 0 then Window.divHalfEven a.toNat b else -(Window.divHalfEven (-a).toNat b : Int)

/-- An integer times `2^k` rounded half to even. -/
def scaleInt (x k : Int) : Int :=
  if x ≥ 0 then shiftHalfEven x.toNat k else -(shiftHalfEven (-x).toNat k : Int)

def clampInt (x lo hi : Int) : Int := max lo (min hi x)

/-- The floating-point formats of R146: mantissa width, exponent width, bias, largest finite code without its sign,
canonical NaN where the format has one. -/
structure FFmt where
  mw : Nat
  ew : Nat
  bias : Int
  maxCode : Nat
  nan : Option Nat
  deriving DecidableEq, Repr

def e4m3 : FFmt := ⟨3, 4, 7, 0x7E, none⟩
def e5m2 : FFmt := ⟨2, 5, 15, 0x7B, some 0x7F⟩
def fp16 : FFmt := ⟨10, 5, 15, 0x7BFF, some 0x7E00⟩
def bf16 : FFmt := ⟨7, 8, 127, 0x7F7F, some 0x7FC0⟩
def f32 : FFmt := ⟨23, 8, 127, 0x7F7FFFFF, some 0x7FC00000⟩
def e2m1 : FFmt := ⟨1, 2, 1, 0x7, none⟩

/-- The magnitude of a finite code as a mantissa and an exponent of two. -/
def codeMag (f : FFmt) (c : Nat) : Nat × Int :=
  let e := bits c f.mw f.ew
  let m := bits c 0 f.mw
  if e = 0 then (m, 1 - f.bias - f.mw) else (2 ^ f.mw + m, (e : Int) - f.bias - f.mw)

/-- The value of a code (R146). Formats with a NaN have infinities at exponent field all ones. -/
def decode (f : FFmt) (c : Nat) : Num :=
  let neg := bit c (f.mw + f.ew)
  if f.nan.isSome ∧ bits c f.mw f.ew = 2 ^ f.ew - 1 then
    (if bits c 0 f.mw = 0 then .inf neg else .nan)
  else let p := codeMag f c; .fin neg p.1 p.2

/-- `a * 2^i ≤ b * 2^j`. -/
def dyLe (a : Nat) (i : Int) (b : Nat) (j : Int) : Bool :=
  let k := min i j
  decide (a * 2 ^ (i - k).toNat ≤ b * 2 ^ (j - k).toNat)

/-- What one conversion gives: the code, and the counts it adds to (R153 to R155). -/
structure Conv where
  code : Nat
  sat : Bool := false
  flush : Bool := false
  nanZero : Bool := false
  deriving DecidableEq, Repr

/-- A finite value into a floating-point format (R152 to R154). -/
def toFloat (f : FFmt) (neg : Bool) (m : Nat) (e : Int) : Conv :=
  let sgnBit := b2n neg * 2 ^ (f.mw + f.ew)
  if m = 0 then { code := sgnBit } else
  let ex := (Nat.log2 m : Int) + e
  let qe := max ex (1 - f.bias) - f.mw
  let n := shiftHalfEven m (e - qe)
  let mx := codeMag f f.maxCode
  if !dyLe n qe mx.1 mx.2 then { code := sgnBit + f.maxCode, sat := true }
  else if n = 0 then { code := sgnBit, flush := true }
  else if n < 2 ^ f.mw then { code := sgnBit + n }
  else
    let n' := if n = 2 ^ (f.mw + 1) then 2 ^ f.mw else n
    let qe' := if n = 2 ^ (f.mw + 1) then qe + 1 else qe
    { code := sgnBit + (qe' + f.mw + f.bias).toNat * 2 ^ f.mw + (n' - 2 ^ f.mw) }

/-- A finite value into a `w`-bit integer format (R152 to R154). -/
def toIntFmt (w : Nat) (neg : Bool) (m : Nat) (e : Int) : Conv :=
  let n := shiftHalfEven m e
  let x : Int := if neg then -n else n
  let lo : Int := -(2 ^ (w - 1) : Nat)
  let hi : Int := (2 ^ (w - 1) : Nat) - 1
  if x > hi then { code := uns w hi, sat := true }
  else if x < lo then { code := uns w lo, sat := true }
  else { code := uns w x, flush := decide (n = 0) && decide (m ≠ 0) }

/-- Target formats by the FMT code of R158: integer width, or a floating-point format. -/
def fmtOf (k : Nat) : Nat ⊕ FFmt :=
  match k with
  | 0 => .inl 8 | 1 => .inl 4 | 2 => .inr e4m3 | 3 => .inr e5m2 | 4 => .inr fp16 | 5 => .inr bf16 | _ => .inr f32

/-- Bits of a code of the format (R146). -/
def fmtBits (k : Nat) : Nat := match k with | 0 => 8 | 1 => 4 | 2 => 8 | 3 => 8 | 4 => 16 | 5 => 16 | _ => 32

/-- The target's top exponent Q (R161). -/
def topExp (k : Nat) : Int := match k with | 0 => 6 | 1 => 2 | 2 => 8 | 3 => 15 | 4 => 15 | _ => 127

/-- One conversion of a value under scale exponent `s` (R151 to R155). -/
def convert (fmt : Nat) (s : Int) (v : Num) : Conv :=
  match fmtOf fmt, v with
  | .inl w, .nan => { code := uns w 0, nanZero := true }
  | .inl w, .inf neg => { code := uns w (if neg then -(2 ^ (w - 1) : Nat) else (2 ^ (w - 1) : Nat) - 1), sat := true }
  | .inl w, .fin neg m e => toIntFmt w neg m (e - s)
  | .inr f, .nan => match f.nan with | some c => { code := c } | none => { code := 0, nanZero := true }
  | .inr f, .inf neg => { code := b2n neg * 2 ^ (f.mw + f.ew) + f.maxCode, sat := true }
  | .inr f, .fin neg m e => toFloat f neg m (e - s)

/-- The value of a code in the target's unscaled units: val(q) (R152). -/
def codeVal (fmt code : Nat) : Num :=
  match fmtOf fmt with
  | .inl w => let x := sgn w code; .fin (decide (x < 0)) x.natAbs 0
  | .inr f => decode f code

/-- A value scaled by `2^k`. -/
def scale (v : Num) (k : Int) : Num :=
  match v with
  | .fin n m e => .fin n m (e + k)
  | v => v

/-- An integer times `2^e` as a value. -/
def ofInt (x e : Int) : Num := .fin (decide (x < 0)) x.natAbs e

/-- A finite value as an integer over `2^e`. -/
def toDy (v : Num) : Int × Int :=
  match v with
  | .fin n m e => (if n then -m else m, e)
  | _ => (0, 0)

/-- The exact sum of dyadic numbers. -/
def dyAdd (a b : Int × Int) : Int × Int :=
  let k := min a.2 b.2
  (a.1 * 2 ^ (a.2 - k).toNat + b.1 * 2 ^ (b.2 - k).toNat, k)

/-- `floor(d^2 * 2^24)` of the conversion error `d = y - val(q)` (R165). -/
def sqErr (y q : Num) : Nat :=
  let a := toDy y
  let b := toDy q
  let d := dyAdd a (-b.1, b.2)
  let sq := d.1.natAbs * d.1.natAbs
  let k := 2 * d.2 + 24
  if k ≥ 0 then sq * 2 ^ k.toNat else sq / 2 ^ (-k).toNat

/-- The exponent of a non-zero finite magnitude, floor(log2). -/
def expOf (v : Num) : Option Int :=
  match v with
  | .fin _ m e => if m = 0 then none else some ((Nat.log2 m : Int) + e)
  | _ => none

/-- A saturating 64-bit count. -/
def sat64 (x : Nat) : Nat := min x (2 ^ 64 - 1)

/-- One conversion recorded in its tensor record (R161, R164, R165). A missing feature converts as MISS says (R155);
`missing` marks it. -/
def convRec (r : TensorRec) (v : Num) (missing : Bool) : TensorRec × Conv :=
  let v := if missing then (if r.desc.miss then Num.nan else .fin false 0 0) else v
  let c := if missing && !r.desc.miss then { code := 0 : Conv } else convert r.desc.fmt r.scale v
  let k := r.total + 1
  let fin := match v with | .fin _ _ _ => !missing | _ => false
  let hit := r.desc.mseEn && decide (k % (r.desc.sample + 1) = 0) && fin
  let am := if missing then none else expOf v
  ({ r with
      count := r.count + 1
      isat := r.isat + b2n c.sat
      amax := match r.amax, am with | some a, some b => some (max a b) | some a, none => some a | none, b => b
      sat := sat64 (r.sat + b2n c.sat)
      nanZero := sat64 (r.nanZero + b2n c.nanZero)
      flush := sat64 (r.flush + b2n c.flush)
      total := k
      mseCnt := sat64 (r.mseCnt + b2n hit)
      sse := if hit then sat64 (r.sse + sqErr (scale v (-r.scale)) (codeVal r.desc.fmt c.code)) else r.sse }, c)

/-- The end of a scale interval (R161): the record with its new scale, and the required scale when it lay beyond the
clamp (true = above +31). -/
def endInterval (r : TensorRec) : TensorRec × Option Bool :=
  let t0 : Int := match r.held, r.amax with
    | false, some e => e - topExp r.desc.fmt + r.desc.head
    | _, _ => r.scale
  let t := if !r.held && decide (r.isat > r.desc.satTol) then max t0 (r.scale + 1) else t0
  let d := clampInt (t - r.scale) (-r.desc.slew) r.desc.slew
  ({ r with
      scale := clampInt (r.scale + d) (-32) 31
      count := 0, isat := 0, amax := none
      range := if t < -32 ∨ t > 31 then sat64 (r.range + 1) else r.range },
   if t > 31 then some true else if t < -32 then some false else none)

/-- 2^100 * e^(-2^i / 1024), i = 0 to 15. -/
def expTab : List Nat := [
  1266413264455136587431875831736,
  1265177136427944023442842475268,
  1262708498896955737732895771685,
  1257785664992813950470626777493,
  1247997499292459201687831112359,
  1228649091445085782176454540476,
  1190847532937741949444227531525,
  1118697728260915653098498845171,
  987247280118681460679461554646,
  768868954841543716467025524051,
  466342594412604466517458581545,
  171557853026949511541522521126,
  23217830630867384191445370059,
  425249401614758308779738744,
  142655281779657483642359,
  16053737059698896]

/-- 2^100 * e^(-n/1024), within the precision that fixes every rounded result of R181 and R204. -/
def expNeg (n : Nat) : Nat :=
  (List.range 16).foldl (fun r i => if bit n i then r * expTab.getD i 0 / 2 ^ 100 else r) (2 ^ 100)

/-- The integer nearest to 32,768 / (1 + e^(-z/1024)) (R181, R204). -/
def sigma (z : Int) : Nat :=
  let t := expNeg z.natAbs
  let d := 2 ^ 100 + t
  (2 * 32768 * (if z ≥ 0 then 2 ^ 100 else t) + d) / (2 * d)

/-- The integer nearest to 32,768 * tanh(z/1024), clamped to -32,767 to 32,767 (R204). -/
def tau (z : Int) : Int :=
  let t := expNeg (2 * z.natAbs)
  let d := 2 ^ 100 + t
  let q : Nat := min ((2 * 32768 * (2 ^ 100 - t) + d) / (2 * d)) 32767
  if z ≥ 0 then (q : Int) else -(q : Int)

/-- The integer nearest to 65,536 * e^(-d/1024) (R181). -/
def expE (d : Nat) : Nat := (65536 * expNeg d + 2 ^ 99) / 2 ^ 100

end Sys2Proof.Machine.Fmt
end

