-- ==== Sys2Proof/Machine/Esp.lean ====
section
/-!
DEFINITION. Esp.lean: the evaluation of trees and ensembles (R173 to R181), labels (R190) and the refit of leaves
(R192), as functions of the model and the features.
-/
namespace Sys2Proof.Machine.Esp
open Sys2Proof.Machine.Ops

/-! Fields of a node word (R173). -/
def feat (w : Nat) : Nat := bits w 0 11
def kind (w : Nat) : Nat := bits w 11 3
def defLeft (w : Nat) : Bool := bit w 14
def leaf (w : Nat) : Bool := bit w 15
def left (w : Nat) : Nat := bits w 16 16
def right (w : Nat) : Nat := bits w 32 16
def value (w : Nat) : Nat := bits w 48 32
def check (w : Nat) : Nat := bits w 80 16

/-- CRC-16 of R176, one byte at a time. -/
def crc16 (bs : Bytes) : Nat :=
  bs.foldl (fun r b =>
    (List.range 8).foldl (fun r _ => if bit r 15 then ((r * 2) ^^^ 0x1021) % 65536 else r * 2 % 65536)
      (r ^^^ (b.toNat * 256))) 0xFFFF

/-- The CHECK of node `i` of tree `t` (R176). -/
def nodeCheck (t i w : Nat) : Nat := crc16 (leBytes 2 t ++ leBytes 2 i ++ leBytes 10 (w % 2 ^ 80))

/-- A node word with its CHECK computed. -/
def withCheck (t i w : Nat) : Nat := w % 2 ^ 80 + nodeCheck t i w * 2 ^ 80

/-- `x < t` as binary32 (R174): -0 equals +0, infinities are ordinary, a NaN has no order. -/
def f32Lt (x t : Nat) : Bool :=
  let key := fun c : Nat => if bit c 31 then -((c % 2 ^ 31 : Nat) : Int) else (c : Int)
  decide (key x < key t)

def f32Nan (x : Nat) : Bool := bits x 23 8 == 255 && bits x 0 23 != 0

/-- Whether a feature goes left at an internal node (R174). -/
def goesLeft (w : Nat) (x : Option Nat) : Bool :=
  match x with
  | none => defLeft w
  | some x =>
    let t := value w
    match kind w with
    | 0 => decide (x < t)
    | 1 => decide (sgn 32 x < sgn 32 t)
    | 2 => if f32Nan x then defLeft w else f32Lt x t
    | 3 => decide (x < 32) && bit t x
    | _ => x != t

/-- The walk of a tree (R170, R174): the local index of the leaf reached; `none` when a node fails its check (R177). -/
def walk (tno : Nat) (t : Tree) (fs : Map Nat) : Nat → Nat → Option Nat
  | 0, _ => none
  | fuel + 1, i =>
    let w := t.nodes.getD i 0
    if check w ≠ nodeCheck tno i w then none
    else if leaf w then some i
    else walk tno t fs fuel (if goesLeft w (find? fs (feat w)) then left w else right w)

/-- The leaves that an ensemble reaches, in tree order; `none` when a node check fails. -/
def leaves (e : Ensemble) (fs : Map Nat) : Option (List Nat) :=
  ((List.range e.trees.length).map fun i =>
    let t := e.trees.getD i default
    walk i t fs (t.depth + 1) 0).foldr (fun a r => match a, r with | some a, some r => some (a :: r) | _, _ => none)
    (some [])

/-- The leaf value at a local index. -/
def leafVal (t : Tree) (i : Nat) : Int := sgn 32 (value (t.nodes.getD i 0))

/-- The margins of the K classes (R179). -/
def margins (e : Ensemble) (ls : List Nat) : List Int :=
  tab e.k fun k => (e.trees.zip ls).foldl
    (fun a p => if p.1.cls = k then a + leafVal p.1 p.2 else a) (e.base.getD k 0)

/-- The class with the largest margin; a tie goes to the lowest (R181). -/
def winner (ms : List Int) : Nat :=
  ((List.range ms.length).foldl (fun (b : Nat × Option Int) k =>
    let m := ms.getD k 0
    match b.2 with
    | none => (k, some m)
    | some x => if m > x then (k, some m) else b) (0, none)).1

/-- z of R181. -/
def zOf (leafExp acc : Int) : Int := Fmt.scaleInt acc (leafExp + 10)

/-- IDENTITY (R181): the score and whether it was clamped. -/
def identity (leafExp acc : Int) : Nat × Bool :=
  let s := Fmt.scaleInt acc (leafExp + 15)
  ((Fmt.clampInt s 0 65535).toNat, decide (s < 0 ∨ s > 65535))

/-- SIGMOID (R181). -/
def sigmoid (leafExp acc : Int) : Nat := Fmt.sigma (Fmt.clampInt (zOf leafExp acc) (-16384) 16383)

/-- SOFTMAX (R181): every p_k. -/
def softmax (leafExp : Int) (ms : List Int) : List Nat :=
  let zc := zOf leafExp (ms.getD (winner ms) 0)
  let es := ms.map fun m => Fmt.expE (min (zc - zOf leafExp m) 16384).toNat
  es.map fun x => Window.divHalfEven (x * 32768) es.sum

/-- What the link unit gives VRD (R181): the winning class, the score where the link has one, every p_k, and whether
a score was clamped. -/
structure Linked where
  cls : Nat
  score : Option Nat
  ps : List Nat
  sat : Bool
  deriving DecidableEq, Repr

def link (e : Ensemble) (ms : List Int) : Linked :=
  let c := winner ms
  match e.link with
  | 1 => let r := identity e.leafExp (ms.getD c 0); ⟨c, some r.1, [], r.2⟩
  | 2 => ⟨c, some (sigmoid e.leafExp (ms.getD 0 0)), [], false⟩
  | 3 => let ps := softmax e.leafExp ms; ⟨c, some (ps.getD c 0), ps, false⟩
  | _ => ⟨c, none, [], false⟩

/-- Gradient and Hessian of each class for a label (R190), the SQUARED ones of every class from acc_0 (log entry 147); `none` when the label's value is out of range. -/
def gradHess (e : Ensemble) (ms : List Int) (y : Int) : Option (List (Int × Nat)) :=
  match e.loss with
  | 0 => some (tab e.k fun _ => (Fmt.scaleInt (ms.getD 0 0) (e.leafExp + 15) - y, 32768))
  | 1 => let p := sigmoid e.leafExp (ms.getD 0 0)
         some [((p : Int) - y, Window.divHalfEven (p * (32768 - p)) 32768)]
  | _ =>
    if y < 0 ∨ y ≥ e.k then none else
    let ps := softmax e.leafExp ms
    some ((List.range e.k).map fun k =>
      let p := ps.getD k 0
      ((p : Int) - (if (k : Int) = y then 32768 else 0), Window.divHalfEven (p * (32768 - p)) 32768))

/-- The refitted value of a leaf (R192). -/
def refitLeaf (e : Ensemble) (leaf g : Int) (h n : Nat) : Int :=
  let den := 65536 * (h + e.lambda)
  if n < e.minLeafN ∨ den = 0 then leaf else
  let num := -((e.eta : Int) * g) * 2 ^ (-e.leafExp).toNat
  let d := Fmt.clampInt (Fmt.divHalfEvenInt num den) (-e.maxStep) e.maxStep
  Fmt.clampInt (leaf + d) (-(2 ^ 31 : Nat)) ((2 ^ 31 : Nat) - 1)

end Sys2Proof.Machine.Esp
end

