-- ==== Sys2Proof/Machine/Epochs.lean ====
section
/-!
DEFINITION. Epochs.lean: the live epochs and what they hold (R273 to R276), contexts (R26), and the status and report of
a graft port (R269 to R271, R280).
-/
namespace Sys2Proof.Machine.Ops

/-- The current epoch's number; 0 before a base image (R273). -/
def curNum (d : Dev) : Nat := match d.epochs.head? with | some e => e.num | none => 0

/-- A base image has been loaded (`GRF_EPOCH.VALID`). -/
def loaded (d : Dev) : Bool := !d.epochs.isEmpty

def epoch? (d : Dev) (x : Nat) : Option Epoch := d.epochs.find? fun e => e.num == x
/-- What epoch `x` uses. -/
def cfgOf (d : Dev) (x : Nat) : EpochCfg := match epoch? d x with | some e => e.cfg | none => default
/-- What the current epoch uses. -/
def curCfg (d : Dev) : EpochCfg := match d.epochs.head? with | some e => e.cfg | none => default
/-- The model that a slot holds in epoch `x`. -/
def modelOf (d : Dev) (x slot : Nat) : Option Model := find? (cfgOf d x).models slot
/-- The slot is active in a pipe in epoch `x`. -/
def activeIn (d : Dev) (x slot pipe : Nat) : Bool := bit (getD (cfgOf d x).active slot 0) pipe
/-- A register field of epoch `x`'s own copy (R294). -/
def epF (d : Dev) (x : Nat) (f : Fld) : Nat := getD (cfgOf d x).regs f.key f.rst

/-- The pipes whose packets a model runs on: its slot's, and those of the host for a flow model (R256; log entry 29). -/
def runPipes (c : EpochCfg) (slot : Nat) (m : Model) : Nat := getD c.active (if m.flowKind then m.host else slot) 0

/-- A live epoch other than the current one holds a model in the slot. -/
def heldByOld (d : Dev) (slot : Nat) : Bool := d.epochs.tail.any fun e => (find? e.cfg.models slot).isSome

/-- `CFG_SLOT_s.STATE`: 0 EMPTY, 1 RESIDENT, 2 ACTIVE, 3 DRAINING (R250). A flow model, whose load names a host in place of pipes (R248),
is RESIDENT. -/
def slotState (d : Dev) (slot : Nat) : Nat :=
  match find? (curCfg d).models slot with
  | some _ => if getD (curCfg d).active slot 0 ≠ 0 then 2 else 1
  | none => if heldByOld d slot then 3 else 0

/-- The tenant behind a function: the PF, the management bridge and the cores act as tenant 0 (R28, R499). -/
def tenantOf (fn : Nat) : Nat := if fn = 64 then 0 else fn

/-- The function may name the slot: the PF names any, a VF its own (R249). -/
def ownsSlot (d : Dev) (fn slot : Nat) : Bool :=
  tenantOf fn == 0 || (rdB d (Reg.cfgSlotAssigned slot) && rd d (Reg.cfgSlotOwner slot) == fn)

/-- The slot's refit policy is enabled (R263). -/
def polOn (d : Dev) (slot : Nat) : Bool := rdB d (Reg.cfgRefitPolEnable slot)

/-- Contexts in use: units of work and runs that hold one (R26). -/
def ctxUsed (d : Dev) : Nat := (d.units.filter fun p => p.2.hasCtx).length + d.runs.length

/-- The contexts of the device (R26). -/
def ctxTotal : Nat := 262144
def ctxFree (d : Dev) : Nat := ctxTotal - ctxUsed d

/-- Pins of epoch `x`: contexts and queued runs (R275). -/
def pins (d : Dev) (x : Nat) : Nat :=
  (d.units.filter fun p => p.2.hasCtx && p.2.epoch == x && !p.2.expired).length +
  (d.runs.filter fun r => r.epoch == x).length + (d.runQueue.filter fun r => r.epoch == x).length

/-- Raises a port's completion interrupt. -/
def portIrq (d : Dev) (p : Nat) : Dev :=
  if p < 64 ∧ rdB d (portF p Reg.grfPortIrqEn) then msix d p (rd d (portF p Reg.grfPortIrqVector)) else d

/-- The 64-byte report of R271 with what follows it. -/
def reportBytes (status item tag epoch member boundary retired : Nat) (more : Bytes) : Bytes :=
  leBytes 1 status ++ [0] ++ leBytes 2 item ++ leBytes 4 tag ++ leBytes 1 epoch ++ leBytes 1 member ++ zeros 6 ++
  leBytes 8 boundary ++ leBytes 8 retired ++ zeros 32 ++ more

/-- Writes a port's report to its buffer, where one is given (R271). -/
def sendReport (d : Dev) (addr : Nat) (bytes : Bytes) : Dev :=
  if addr = 0 then d else emit d (.hostWrite addr bytes)

/-- The report address of a port; that of CFG's own graft (R472). The other internal ports have none. -/
def reportAddr (d : Dev) (p : Nat) : Nat :=
  if p < 64 then rd64 d (portF p Reg.grfReportLoAddr) (portF p Reg.grfReportHiAddr)
  else if p = 65 then rd64 d Reg.cfgBootRptLoAddr Reg.cfgBootRptHiAddr
  else 0

/-- A failed graft is counted by its code (R289): `REFUSED` for 0x10 to 0x22, `EPOCH_FULL` besides for 0x13. -/
def countFail (d : Dev) (code : Nat) : Dev :=
  if code = 0x30 then tick d Ctr.grfFaultAbort
  else if code = 0x31 then tick d Ctr.grfPartnerAbort
  else tickIf (code == 0x13) (tick d Ctr.grfRefused) Ctr.grfEpochFull

/-- A port reads a failed graft: code, BUSY and STAGE, the failing item (R280). -/
def portFailed (d : Dev) (p code item : Nat) : Dev :=
  wrs d [(portF p Reg.grfStatusCode, code), (portF p Reg.grfStatusBusy, 0), (portF p Reg.grfStatusStage, 0),
    (portF p Reg.grfStatusItem, if item < 256 then item else 0)]

end Sys2Proof.Machine.Ops
end

