-- ==== Sys2Proof/Machine/Meter.lean ====
section
/-!
DEFINITION. Meter.lean: what Signet counts and charges: activity events (R438), the attributed energy and its field (R442
to R445), chains and the request log (R447, R448), the observation budget (R483); and the verdict record that carries the
energy (R290).
-/
namespace Sys2Proof.Machine.Ops

/-- The operating point that a DVFS domain runs at: CLK_MX 0, CLK_ESP 1, CLK_SPRIG 2; 7 in divided mode (R416, R438). -/
def dvfsPoint (d : Dev) (k : Nat) : Nat := if rdB d (Reg.clkDvfsCfgMode k) then rd d (Reg.clkDvfsStatPoint k) else 7

/-- The DVFS sequencer starts its next step towards TARGET unless one is in progress (R417). -/
def dvfsStart (d : Dev) (k : Nat) : Dev :=
  let p := rd d (Reg.clkDvfsStatPoint k)
  let t := rd d (Reg.clkDvfsCtlTarget k)
  if rdB d (Reg.clkDvfsStatBusy k) || p == t then d
  else { wr d (Reg.clkDvfsStatBusy k) 1 with
    clk := { d.clk with dvfsNext := set d.clk.dvfsNext k (if p < t then p + 1 else p - 1) } }

/-- TARGET is set, and the sequencer walks to it (R417). -/
def dvfsAim (d : Dev) (k target : Nat) : Dev := dvfsStart (wr d (Reg.clkDvfsCtlTarget k) target) k

/-- The DVFS domain whose point scales an event (R438). -/
def evtDom (j : Nat) : Option Nat :=
  if j = 10 ∨ j = 11 then some 1 else if j = 12 ∨ j = 13 then some 0 else if j = 22 then some 2 else none

/-- The coefficient of event `j` in U, scaled (R438); zero without a calibration table (R440). -/
def coef (d : Dev) (j : Nat) : Nat :=
  let c := d.sgn.cal.coef.getD j 0
  match evtDom j with
  | none => c
  | some k => c * d.sgn.cal.vscale.getD (8 * k + dvfsPoint d k) 0 / 32768

/-- SGN's gate reads ON and a session runs (R445, R453). -/
def sgnOn (d : Dev) : Bool := gateOn d 21 && d.sgn.session

/-- `n` events of index `j` happen: they enter the D of the interval (R438, R446). -/
def meter (d : Dev) (j n : Nat) : Dev :=
  if sgnOn d then { d with sgn := { d.sgn with d := d.sgn.d + coef d j * n } } else d

/-- The effect `f` of a step that works for unit `u`: the events that it counts are charged to the unit too (R442). -/
def chargedTo (d : Dev) (u : Nat) (f : Dev → Dev) : Dev :=
  let d' := f d
  modUnit d' u fun r => { r with energy := r.energy + (d'.sgn.d - d.sgn.d) }

/-- The step `f` of the unit `u` where it is in flight, its events charged to it. -/
def forUnit (d : Dev) (u : Nat) (f : Dev → UnitRec → Dev) : Dev := chargedTo d u fun d => withUnit d u (f d)

/-- Several events: index and number. -/
def meters (d : Dev) (l : List (Nat × Nat)) : Dev := l.foldl (fun d e => meter d e.1 e.2) d

/-- `a / b` of naturals, rounded half to even. -/
def divRhe (a b : Nat) : Nat :=
  let q := a / b
  let r := a % b
  if 2 * r > b ∨ (2 * r = b ∧ q % 2 = 1) then q + 1 else q

/-- The least exponent of R445 from `e` on, in at most `n` tries. -/
def encFrom (x : Nat) : Nat → Nat → Option (Nat × Nat)
  | _, 0 => none
  | e, n + 1 => let m := divRhe x (2 ^ (e + 16)); if m ≤ 2047 then some (e, m) else encFrom x (e + 1) n

/-- The 16-bit ENERGY field of an energy in U, and whether it saturates (R445). -/
def encEnergy (x : Nat) : Nat × Bool :=
  match encFrom x 0 32 with
  | some (e, m) => (e * 2048 + m, false)
  | none => (0xFFFF, true)

/-- The value of an ENERGY field in pJ, and the 2^e of its step (R445, R451). -/
def decEnergy (f : Nat) : Nat := (f % 2048) * 2 ^ (f / 2048)
def stepEnergy (f : Nat) : Nat := 2 ^ (f / 2048)

/-- The attributed energy in U of dynamic part `dyn` and occupancy `occ` in ns (R442). -/
def attributed (d : Dev) (dyn occ : Nat) : Nat := divRhe (dyn * rd d Reg.sgnKK) (2 ^ 24) + occ * d.sgn.sigma

/-- A chain's value at the start of a session (R447). -/
def chainSeed (d : Dev) (tenant slot : Nat) : Bytes :=
  Codes.sha256 ([0x53, 0x47, 0x4E, 0x43] ++ leBytes 4 d.sgn.boot ++ leBytes 4 d.sgn.resets ++ leBytes 1 tenant ++ [0] ++
    leBytes 2 slot)

def chainKey (tenant slot : Nat) : Nat := tenant * 512 + slot

/-- A chain; one that has had no request holds its seed. -/
def chainOf (d : Dev) (tenant slot : Nat) : Chain :=
  (find? d.sgn.chains (chainKey tenant slot)).getD
    { seq := 0, val := chainSeed d tenant slot, fields := [], logLost := 0, runs := 0, flowEnergy := 0, hopEnergy := 0 }

def setChain (d : Dev) (tenant slot : Nat) (c : Chain) : Dev :=
  { d with sgn := { d.sgn with chains := set d.sgn.chains (chainKey tenant slot) c } }

/-- The observation bucket brought up to date: tenths of a byte (R483). -/
def budget (d : Dev) : Dev :=
  let n := min 655360 (d.lpe.tokens + (now d - d.lpe.tokT) * rd d Reg.lpeCfgBudgetPct * 16)
  { d with lpe := { d.lpe with tokens := n, tokT := now d } }

/-- A write of `n` bytes of streamed observation: whether it may be made (R483). -/
def spend (d : Dev) (n : Nat) : Dev × Bool :=
  let d := budget d
  if d.lpe.tokens < 10 * n then (tick d Ctr.lpeBudgetDrop, false)
  else ({ d with lpe := { d.lpe with tokens := d.lpe.tokens - 10 * n } }, true)

/-- One request-log entry of a tenant (R448): written, or lost for a full ring or the budget. -/
def requestLog (d : Dev) (tenant slot kind seq : Nat) (rec : Bytes) : Dev :=
  if !rdB d (Reg.sgnRlogCfgEn tenant) then d else
  let n := rd d (Reg.sgnRlogCfgSize tenant) * 2048
  let w := rd d (Reg.sgnRlogWrWr tenant)
  let lost := fun (d : Dev) =>
    let c := chainOf d tenant slot
    tick (setChain d tenant slot { c with logLost := c.logLost + 1 }) Ctr.sgnLogLost
  -- one entry stays free, so that WR = RD means an empty ring (log entry 9)
  if n = 0 ∨ (w + 1) % n = rd d (Reg.sgnRlogRdRd tenant) then lost d
  else
    let r := spend d 32
    if !r.2 then lost r.1
    else
      let a := rd64 r.1 (Reg.sgnRlogLoAddr tenant) (Reg.sgnRlogHiAddr tenant) / 64 * 64
      emit (wr r.1 (Reg.sgnRlogWrWr tenant) ((w + 1) % n))
        (.hostWrite (a + 32 * w) (rec ++ leBytes 8 seq ++ leBytes 2 slot ++ leBytes 1 kind ++ zeros 5))

/-- A verdict record as its 128 bits (R290). -/
def verdictNat (v : Verdict) : Nat :=
  put v.action 0 4 + put (b2n v.compat) 4 1 + put v.flags 5 7 + put v.cls 12 8 + put v.colour 20 2 + put v.queue 22 20 +
  put v.mirror 42 6 + put v.score 48 16 + put v.slot 64 8 + put v.epoch 72 8 + put v.energy 80 16 + put v.tag 96 18

def verdictBytes (v : Verdict) : Bytes := leBytes 16 (verdictNat v)

/-- A record that is zero throughout. -/
def noVerdict : Verdict :=
  { action := 0, compat := false, flags := 0, cls := 0, colour := 0, queue := 0, mirror := 0, score := 0, slot := 0
    epoch := 0, energy := 0, tag := 0 }

/-- A chained request is finalised: its field enters the chain, the tenant's sums, ATTR_SUM and the request log; the
record is logged with the field in it. Answers the field (R441 to R448). -/
def finalise (d : Dev) (tenant slot kind dyn occ : Nat) (v : Verdict) : Dev × Verdict :=
  if !sgnOn d then (d, { v with energy := 0 }) else
  let f := encEnergy (attributed d dyn occ)
  let v := { v with energy := f.1 }
  let c := chainOf d tenant slot
  let d := setChain d tenant slot { c with seq := c.seq + 1, fields := c.fields ++ [f.1] }
  let e := decEnergy f.1
  let d := { d with sgn := { d.sgn with attr := d.sgn.attr + e, occ := d.sgn.occ + occ } }
  let d := tickIf f.2 (tick (count d (Ctr.sgnTEnergy tenant) e) (Ctr.sgnTReqs tenant)) Ctr.sgnEnergySat
  (requestLog d tenant slot kind (c.seq + 1) (verdictBytes v), v)

/-- The attributed energy in whole pJ, as the sums that carry no ENERGY field take it (log entry 10). -/
def attributedPj (d : Dev) (dyn occ : Nat) : Nat := divRhe (attributed d dyn occ) (2 ^ 16)

/-- A flow-model run is finalised: not chained; FLOW_ENERGY and FLOW_RUNS of its flow slot (R441, R451). Its energy stays
out of ATTR_SUM, which equals the sum of the ENERGY_SUM of the slot records. -/
def finaliseRun (d : Dev) (tenant slot dyn occ : Nat) : Dev :=
  if !sgnOn d then d else
  let c := chainOf d tenant slot
  let d' := setChain d tenant slot { c with runs := c.runs + 1, flowEnergy := c.flowEnergy + attributedPj d dyn occ }
  { d' with sgn := { d'.sgn with occ := d'.sgn.occ + occ } }

/-- What a unit of another member has cost here: HOP_ENERGY of its chain (R444). -/
def finaliseHop (d : Dev) (tenant slot dyn occ : Nat) : Dev :=
  if !sgnOn d then d else
  let c := chainOf d tenant slot
  setChain d tenant slot { c with hopEnergy := c.hopEnergy + attributedPj d dyn occ }

/-- The context's occupancy of a unit (R442). -/
def occupancy (d : Dev) (r : UnitRec) : Nat := if r.hasCtx then now d - r.ctxT else 0

end Sys2Proof.Machine.Ops
end

