-- ==== Sys2Proof/Machine/Link.lean ====
section
/-!
DEFINITION. Link.lean: the flit (R48), and the sending side of the Trellis and Clasp link layer (R367 to R370). Links 0 to 3
are Trellis links, 4 and 5 Clasp links.
-/
namespace Sys2Proof.Machine.Ops

/-- A flit of 80 bytes: header, payload, reserved zeros, CRC (R48). -/
def flitBytes (hdr : Nat) (payload : Bytes) : Bytes :=
  let b := leBytes 8 hdr ++ padTo 64 payload ++ zeros 4
  b ++ leBytes 4 (Codes.crc32c b)

/-- A flit of 80 bytes whose CRC is good (R48). -/
def flitOk (f : Bytes) : Bool := f.length == 80 && le f 76 4 == Codes.crc32c (f.take 76)

/-- What each of `n` lanes carries of a flit: bit `i` of byte `b` is flit bit `8 b + i`, and lane `k` carries the flit bits from
`(640 / n) k` on, lowest first (R47). -/
def laneWords (n : Nat) (f : Bytes) : List Nat := tab n fun k => bits (leNat f) (640 / n * k) (640 / n)

/-- The flit that the lanes of a slot carried (R47). -/
def flitOfLanes (ws : List Nat) : Bytes :=
  let w := 640 / ws.length
  leBytes 80 (ws.foldr (fun x a => x % 2 ^ w + 2 ^ w * a) 0)

/-- The flit of a slot on a link of `n` lanes; none where the slot carried nothing or came over another number of lanes. -/
def slotFlit (n : Nat) (lanes : Option (List Nat)) : Option Bytes :=
  match lanes with
  | some ws => if ws.length = n then some (flitOfLanes ws) else none
  | none => none

/-- The state of a link, 0 DOWN to 5 RETRAIN (R62, R371). -/
def linkState (d : Dev) (l : Nat) : Nat :=
  if l < 4 then rd d (Reg.trlLinkStatState l) else rd d (Reg.clpLinkStatState (l - 4))
def setLinkState (d : Dev) (l v : Nat) : Dev :=
  if l < 4 then wr d (Reg.trlLinkStatState l) v else wr d (Reg.clpLinkStatState (l - 4)) v

/-- The link-layer state of a link. -/
def link (d : Dev) (l : Nat) : Link :=
  if l < 4 then getD d.trl.links l default else getD d.clp.links (l - 4) default
def setLink (d : Dev) (l : Nat) (x : Link) : Dev :=
  if l < 4 then { d with trl := { d.trl with links := set d.trl.links l x } }
  else { d with clp := { d.clp with links := set d.clp.links (l - 4) x } }

/-- Records a flit that leaves the device on the 8 lanes of a link (R47, R367). -/
def emitFlit (d : Dev) (l : Nat) (b : Bytes) : Dev :=
  emit (meter d 21 1) (if l < 4 then .trlFlit l (laneWords 8 b) else .clpFlit (l - 4) (laneWords 8 b))

/-- The rank of a waiting flit in the order in which flits leave (R370); the lowest goes first. HANDOVER and RESULT flits share a rank,
ahead of it those that a schedule reserves. -/
def flitRank (l : Nat) (f : OutFlit) : Nat :=
  let order := if l < 4 then [[3], [4], [12], [], [7, 8], [11], [5], [6], [10], [9]] else [[3], [13], [5], [6], [14]]
  if l < 4 ∧ f.res = true then 3 else (firstIdx (fun c => c.contains f.ty) order).getD 15

/-- The header of R368 without its SEQ and ACK. -/
def linkHdr (ty src dst handle : Nat) (first last : Bool) : Nat :=
  put ty 0 4 + put src 4 3 + put dst 7 4 + put (b2n first) 11 1 + put (b2n last) 12 1 + put handle 29 18

/-- A header with its SEQ and ACK placed. -/
def withSeq (hdr seq ack : Nat) : Nat := hdr + put seq 13 8 + put ack 21 8

/-- The waiting flit that leaves next: the first of the best rank, and the rest. -/
def nextFlit (l : Nat) (w : List OutFlit) : Option (OutFlit × List OutFlit) :=
  let best := (w.map (flitRank l)).foldl min 99
  match firstIdx (fun f => flitRank l f == best) w with
  | none => none
  | some i => (w[i]?).map fun f => (f, w.eraseIdx i)

/-- This device's ID (R372). -/
def ownId (d : Dev) : Nat := d.straps.trlId

/-- A link sends messages: it is ACTIVE, and a Trellis link's device belongs to the Trellis fabric; with `TRL_CFG.ENABLE` = 0 it sends
TRAIN and IDLE flits alone (R371, R372). -/
def linkSends (d : Dev) (l : Nat) : Bool := linkState d l == 4 && (decide (4 ≤ l) || rdB d Reg.trlCfgEnable)

/-- The SEQ of the latest flit received in order, as the ACK of every flit carries it (R368). -/
def ackOf (k : Link) : Nat := (k.expSeq + 255) % 256

/-- Sends a flit that SEQ does not count, with the SEQ of the next flit: IDLE 0, NAK 3, and TRAIN 1 and PARAM 2, which leave before
the link is ACTIVE (R369). -/
def sendBare (d : Dev) (l ty : Nat) (payload : Bytes) : Dev :=
  emitFlit d l (flitBytes (withSeq (linkHdr ty (ownId d) 15 0 true true) (link d l).txSeq (ackOf (link d l))) payload)

/-- Sends waiting flits while fewer than 128 counted flits are unacknowledged (R369); at most `n` of them. -/
def pump (l : Nat) : Nat → Dev → Dev
  | 0, d => d
  | n + 1, d =>
    let k := link d l
    if !linkSends d l ∨ k.held.length ≥ 128 then d else
    match nextFlit l k.wait with
    | none => d
    | some (f, rest) =>
      let b := flitBytes (withSeq f.hdr k.txSeq (ackOf k)) f.pay
      let k := { k with wait := rest, held := k.held ++ [(k.txSeq, b)], txSeq := (k.txSeq + 1) % 256 }
      pump l n (emitFlit (setLink d l k) l b)

/-- Sends a message of the device `src` on a link as flits of 64 payload bytes with FIRST and LAST, in reserved slots where `res`;
nothing on a link that sends no messages. -/
def sendFrom (d : Dev) (l ty src dst handle : Nat) (res : Bool) (msg : Bytes) : Dev :=
  if !linkSends d l then d else
  let n := max 1 (chunks64 msg.length)
  let fl := tab n fun i =>
    ({ ty, hdr := linkHdr ty src dst handle (i == 0) (i + 1 == n), pay := slice msg (64 * i) 64, res } : OutFlit)
  let k := link d l
  pump l (n + k.wait.length) (setLink d l { k with wait := k.wait ++ fl })

/-- Sends a message of this device on a link. -/
def sendOn (d : Dev) (l ty dst handle : Nat) (msg : Bytes) : Dev := sendFrom d l ty (ownId d) dst handle false msg

/-- Sends a NAK that names the SEQ expected (R369). -/
def sendNak (d : Dev) (l : Nat) : Dev := if linkSends d l then sendBare d l 3 (leBytes 1 (link d l).expSeq) else d

/-- This device belongs to a group (R372). -/
def inGroup (d : Dev) : Bool := gateOn d 18 && rdB d Reg.trlCfgEnable

/-- The PARAM flit's payload on a Trellis or Clasp link (R371): PART, group, ID, strap of the link's kind (log entry 12). -/
def paramBytes (d : Dev) (l : Nat) : Bytes :=
  leBytes 2 (rd d Reg.topIdPart) ++ leBytes 1 (rd d Reg.trlCfgGroup) ++ leBytes 1 (ownId d) ++
    leBytes 1 (b2n (if l < 4 then d.straps.trlMaster else d.straps.pairRole))

/-- The route to a member: its link, where the table gives one (R372). -/
def routeTo (d : Dev) (id : Nat) : Option Nat :=
  let f := [Reg.trlRouteLink0, Reg.trlRouteLink1, Reg.trlRouteLink2, Reg.trlRouteLink3, Reg.trlRouteLink4,
    Reg.trlRouteLink5, Reg.trlRouteLink6, Reg.trlRouteLink7].getD (id % 8) Reg.trlRouteLink0
  if bit (rd d Reg.trlRouteValid) (id % 8) then some (rd d f) else none

/-- A member counts as live for hops, steering, floods and labels (R373, R385). -/
def memberLive (d : Dev) (id : Nat) : Bool :=
  bit (rd d Reg.trlStatLive) id && !(match find? d.trl.members id with | some m => m.isolated | none => false)

/-- Sends a message to one member along its route. -/
def sendTo (d : Dev) (id ty handle : Nat) (msg : Bytes) : Dev :=
  match routeTo d id with
  | some l => sendOn d l ty id handle msg
  | none => d

/-- The links over which the other live members are reached. -/
def groupLinks (d : Dev) : List Nat :=
  (List.range 4).filter fun l => (List.range 8).any fun id => id != ownId d && memberLive d id && routeTo d id == some l

/-- Sends a message to every member (DST 15). -/
def sendAll (d : Dev) (ty : Nat) (msg : Bytes) : Dev := each (groupLinks d) d fun d l => sendOn d l ty 15 0 msg

/-- The Clasp link that carries mirror messages: the first that is ACTIVE. -/
def clpLink (d : Dev) : Option Nat := [4, 5].find? fun l => linkState d l == 4

/-- Sends a message to the Clasp partner. -/
def sendPartner (d : Dev) (ty : Nat) (msg : Bytes) : Dev :=
  match clpLink d with
  | some l => sendOn d l ty (ownId d) 0 msg
  | none => d

/-- The Stem link leaves ACTIVE (R63): requests still in the FIFO are discarded with their positions; what the pipes compute on, and every
update awaited, is discarded at its position. -/
def stmLeave (d : Dev) : Dev :=
  let gone := d.stm.fifo
  let d := each gone d delUnit
  let kept := d.stm.rsps.filter fun r => match r.unit with | some u => !gone.contains u | none => true
  { d with stm := { d.stm with
      fifo := [], opened := none, dropping := false, dropTag := none, naks := [], credRet := 0, expSeq := none
      async := d.stm.async.map fun a => { a with off := true }
      rsps := kept.map fun r => { r with discard := true } } }

/-- FLOOD flits that wait in this device's flood queue (R383). -/
def floodsWaiting (d : Dev) : Nat :=
  ((List.range 4).map fun l => ((link d l).wait.filter fun f => f.ty == 9).length).sum

end Sys2Proof.Machine.Ops
end

