-- ==== Sys2Proof/Machine/Flt.lean ====
section
/-!
DEFINITION. Flt.lean: the fault manager: pools and the map from logical to physical units (R398, R399), the report of a
fault (R397, R404, R408), skeleton service (R405), and the removal of a unit (R400, R401).
-/
namespace Sys2Proof.Machine.Ops

/-- Units of a pool, active and in all (R398). -/
def poolActive (k : Nat) : Nat := if k = 0 then 32 else if k ≤ 16 then 32 else if k = 17 then 64 else if k ≤ 25 then 4 else 1
def poolTotal (k : Nat) : Nat := if k = 0 then 34 else if k ≤ 16 then 33 else if k = 17 then 68 else if k ≤ 25 then 4 else 1

/-- The key of a unit of a pool. -/
def unitKey (pool n : Nat) : Nat := pool * 128 + n

/-- The physical unit behind a logical one (R399). -/
def physOf (d : Dev) (pool l : Nat) : Nat := getD d.flt.phys (unitKey pool l) l

/-- A logical unit has been removed (R400). -/
def unitRemoved (d : Dev) (pool l : Nat) : Bool := d.flt.removed.contains (unitKey pool l)

/-- The logical unit that a physical one serves. -/
def logicalOf (d : Dev) (pool p : Nat) : Option Nat :=
  lowest (poolActive pool) fun l => physOf d pool l == p && !unitRemoved d pool l

/-- The physical unit has failed since reset. -/
def unitFailed (d : Dev) (pool p : Nat) : Bool := d.flt.failed.contains (unitKey pool p)

/-- Spares left in a pool: units that have not failed and serve no logical unit (R398). -/
def spares (d : Dev) (pool : Nat) : List Nat :=
  (List.range (poolTotal pool)).filter fun p =>
    !unitFailed d pool p && (logicalOf d pool p).isNone &&
    !(d.flt.grafts.any fun g => g.pool == some pool && g.spare == some p)

/-- The spares of a pool that count: those of a domain that is ON (R398, R426). -/
def sparesUp (d : Dev) (pool : Nat) : List Nat :=
  (spares d pool).filter fun p =>
    if pool = 0 then domOn d (if p < 17 then 11 else 12)
    else if pool ≤ 16 then domOn d (if pool ≤ 8 then 9 else 10) else true

/-- A pool has a remap that has not committed. -/
def poolBusy (d : Dev) (pool : Nat) : Bool := d.flt.grafts.any fun g => g.pool == some pool

/-- The pool of a fault and the unit's number in it (R397, R398); `none` = no pool. -/
def poolOf (cls unit : Nat) : Option (Nat × Nat) :=
  match cls with
  | 1 => some (0, unit)
  | 2 => some (1 + unit / 33, unit % 33)
  | 3 => some (17, unit)
  | 4 => some (18 + unit / 4, unit % 4)
  | 5 => some (26 + unit, 0)
  | _ => none

/-- `FLT_STAT.STATE`. -/
def fltState (d : Dev) : Nat := rd d Reg.fltStatState

/-- HOLD, HANDOVER and SKELETON give skeleton service (R405). -/
def skeleton (d : Dev) : Bool := 3 ≤ fltState d && fltState d ≤ 5
/-- FAILED accepts no work (R407). -/
def fltFailed (d : Dev) : Bool := fltState d == 6

/-- `FAULT_N` is asserted (R409). -/
def faultN (d : Dev) : Bool := rdB d Reg.fltStatFaultPend || decide (3 ≤ fltState d)

/-- Writes a record into the fault log (R408). -/
def fltLog (d : Dev) (cls pool unit action epoch : Nat) : Dev :=
  let k := rd d Reg.fltLogHeadSeq % 64
  let t := now64 d
  let w2 := put cls 0 8 + put pool 8 8 + put unit 16 16
  let w3 := put (fltState d) 0 8 + put action 8 8 + put epoch 16 8
  let d := wrs d [(Reg.fltLogWord k 0, t), (Reg.fltLogWord k 1, t / 2 ^ 32), (Reg.fltLogWord k 2, w2),
    (Reg.fltLogWord k 3, w3), (Reg.fltLogHeadSeq, rd d Reg.fltLogHeadSeq + 1), (Reg.fltStatFaultPend, 1)]
  irq (tick d Ctr.fltFaults) Reg.fltIrqEn Reg.fltIrqVector

/-- The state machine enters FAILED (R404, R407): every INLINE port is held with its link down, the Stem link goes DOWN. -/
def enterFailed (d : Dev) (cls : Nat) : Dev :=
  let d := if rd d Reg.stmStatState = 4 then stmLeave d else d
  let d := wrs d [(Reg.fltStatState, 6), (Reg.fltStatCause, cls), (Reg.fltAonCause, cls), (Reg.fltAonValid, 1),
    (Reg.stmStatState, 0)]
  each (List.range 32) d fun d n => wr d (Reg.prtPortStatLinkUp n) 0

/-- The state machine enters HOLD; FLT grafts in staging are released unless the hold is thermal (R404). -/
def enterHold (d : Dev) (cls : Nat) : Dev :=
  let before := fltState d
  let d := { d with flt := { d.flt with before := before, holdT := now d, grafts := if cls = 0x0A then d.flt.grafts else [] } }
  let d := if cls = 0x0A then d else wr d Reg.fltStatRemaps 0
  tick (wrs d [(Reg.fltStatState, 3), (Reg.fltStatCause, cls)]) Ctr.fltHoldEntry

/-- The Clasp partner is in service: SYNC or PAIRED (R386). -/
def paired (d : Dev) : Bool := rd d Reg.clpStatState == 1 || rd d Reg.clpStatState == 2

/-- The other participants of a group graft: the live members of the group by ID, and 8 more than the ID for a Clasp partner: this device's,
and those of the live members where two groups pair (R283, R385, R393; log entry 156). -/
def groupMates (d : Dev) : List Nat :=
  let live := if inGroup d && !rdB d Reg.trlStatIsolated then (List.range 8).filter fun id => id != ownId d && memberLive d id else []
  live ++ (if paired d then (8 + ownId d) :: live.map (8 + ·) else [])

/-- Sends a message to every other participant (R283). -/
def sendMates (d : Dev) (ty : Nat) (msg : Bytes) : Dev :=
  let d := if inGroup d && !rdB d Reg.trlStatIsolated then sendAll d ty msg else d
  if paired d then sendPartner d ty msg else d

/-- A GRAFT message (log entry 12): 0 PREPARE, 1 reply, 2 COMMIT, 3 ABORT, 4 acknowledgement; status or epoch; the participant that a reply
or an acknowledgement is of; TAG; time. -/
def groupMsg (kind arg who tag t : Nat) : Bytes :=
  leBytes 1 kind ++ leBytes 1 arg ++ leBytes 1 who ++ zeros 1 ++ leBytes 4 tag ++ leBytes 8 t

/-- The number of this device as a participant: in the second of two groups that pair it is the partner of a member of the first (R393). -/
def partNo (d : Dev) : Nat := if paired d && (!inGroup d || d.straps.pairRole) then 8 + ownId d else ownId d

/-- A participant answers the coordinator: the master of its group, or over Clasp the partner, which is it or hands the answer on (R283, R393). -/
def answerCoord (d : Dev) (msg : Bytes) : Dev :=
  if inGroup d && !(paired d && d.straps.pairRole) && rdB d Reg.trlStatMasterValid && rd d Reg.trlStatMaster != ownId d then
    sendTo d (rd d Reg.trlStatMaster) 5 0 msg
  else if paired d then sendPartner d 5 msg else d

/-- A member of the first of two groups that pair hands GRAFT and PAYLOAD messages on to its partner (R393). -/
def relays (d : Dev) : Bool :=
  inGroup d && paired d && !d.straps.pairRole && !(rdB d Reg.trlStatMasterValid && rd d Reg.trlStatMaster == ownId d)
def relay (d : Dev) (ty : Nat) (msg : Bytes) : Dev := if relays d then sendPartner d ty msg else d

/-- A graft fails: the port's status, the counter, the report, the interrupt (R271, R280); a policy keeps READY with LAST_CODE
(R263), CFG's own graft gives MODELS_CODE (R472), a participant's copy its reply (R283). -/
def graftFailed (d : Dev) (g : Graft) (code item member : Nat) (more : Bytes) : Dev :=
  let d := countFail d code
  let d := if g.port < 64 then portFailed d g.port code item
    else if g.port = 64 then
      { wr d (Reg.cfgRefitStatLastCode g.slot) code with refit := modify d.refit g.slot fun r => { r with queued := false } }
    else if g.port = 65 then wr d Reg.cfgBootStatModelsCode code
    else if g.port = 66 then answerCoord d (groupMsg 1 code (partNo d) g.tag 0)
    else d
  portIrq (sendReport d (reportAddr d g.port) (reportBytes code item g.tag 0 member 0 0 more)) g.port

/-- GRF holds no graft in staging or at READY any more. -/
def clearCur (d : Dev) : Dev :=
  { d with grf := { d.grf with cur := none, replies := [], prepDl := none, commitAt := none, partDl := none } }

/-- A coordinator's group graft ends: ABORT goes to every participant (R283). -/
def abortMates (d : Dev) (g : Graft) : Dev :=
  if g.group ∧ g.port ≠ 66 ∧ d.grf.prepDl.isSome then sendMates d 5 (groupMsg 3 0 0 g.tag 0) else d

/-- Ends the software graft in staging or at READY with a code (R282, R283). -/
def abortSoft (d : Dev) (code member : Nat) : Dev :=
  match d.grf.cur with
  | none => d
  | some g => clearCur (graftFailed (abortMates d g) g code 0xFFFF member [])

/-- Starts an FLT graft (R403): the software graft in progress is aborted, the state is REMAP. At most two are staged at the same time;
a further one waits for the commit of one of them (R269, R404). -/
def startRemap (d : Dev) (g : FltGraft) : Dev :=
  let d := abortSoft d 0x30 0xFF
  let d := { d with flt := { d.flt with grafts := d.flt.grafts ++ [g] } }
  wrs d [(Reg.fltStatState, 1), (Reg.fltStatRemaps, min d.flt.grafts.length 2)]

/-- The epoch that the FLT graft in staging last will begin (R273). -/
def fltEpoch (d : Dev) : Nat := (curNum d + d.flt.grafts.length) % 256

/-- A layout of the PARTITION section whose LOST names the unit (R333). -/
def layoutFor (d : Dev) (lost : Nat) : Option Layout := d.mem.layouts.find? fun l => l.lost == lost

/-- Another unit of either medium is already lost (R333). -/
def lostBesides (d : Dev) (lost : Nat) : Bool :=
  let one := fun (f : Fld) (base : Nat) => (List.range 4).any fun u => !bit (rd d f) u && base + u != lost
  let inForce := rd d Reg.memLayoutLost
  one Reg.memStatDiesLive 0 || one Reg.memStatStacksLive 0x10 || (inForce != 0xFF && inForce != lost)

/-- A fault in a pool (R399, R400, R404). The log is written with the state that the fault leaves. -/
def poolFault (d : Dev) (code cls pool n unit : Nat) : Dev :=
  let st := fltState d
  let l := logicalOf d pool n
  let had := poolBusy d pool
  let mark := fun (d : Dev) => { d with flt := { d.flt with failed := unitKey pool n :: d.flt.failed } }
  if st ≥ 3 then fltLog d code pool unit (if st = 3 then 4 else 0) 0xFF
  else match l with
  | none => fltLog (mark d) code pool unit 4 0xFF
  | some l =>
    let sp := (sparesUp d pool).head?
    let d := mark d
    if st = 1 ∧ (had ∨ sp.isNone) then fltLog (enterHold d cls) code pool unit 4 0xFF
    else
      let d := startRemap d { pool := some pool, logical := l, phys := n, spare := sp, lost := none, t := now d,
                              ready := false, cls }
      fltLog d code pool unit (if sp.isSome then 1 else 2) (fltEpoch d)

/-- Capacity is removed without a graft: LOST records it, and a device that is NORMAL becomes DEGRADED (R404). -/
def degrade (d : Dev) : Dev :=
  let d := wr d Reg.fltStatLost 1
  if fltState d = 0 then wr d Reg.fltStatState 2 else d

/-- The loss of a die or a stack (R402): `unit` is 0 to 3 or 0x10 to 0x13. -/
def mediumFault (d : Dev) (code cls unit : Nat) : Dev :=
  let st := fltState d
  if st ≥ 3 then fltLog d code 0xFF unit (if st = 3 then 4 else 0) 0xFF
  else if (layoutFor d unit).isSome ∧ !lostBesides d unit then
    let d := startRemap d { pool := none, logical := 0, phys := unit, spare := none, lost := some unit, t := now d,
                            ready := false, cls }
    fltLog d code 0xFF unit 3 (fltEpoch d)
  else if cls = 8 then fltLog (enterHold d cls) code 0xFF unit 4 0xFF
  else fltLog (degrade d) code 0xFF unit 4 0xFF

/-- The device is in a freeze: faults are logged and acted on at RESUME, but for CLOCK (R490). -/
def frozen (d : Dev) : Bool := 2 ≤ rd d Reg.lpeFreezeStatState

/-- A fault acts (R397 to R404). `code` is the class that the log gives: 0x0D for an injected fault. -/
def faultActs (d : Dev) (code cls unit : Nat) : Dev :=
  match poolOf cls unit with
  | some (pool, n) =>
    if unitFailed d pool n then fltLog d code pool unit 0 0xFF else poolFault d code cls pool n unit
  | none =>
    let st := fltState d
    match cls with
    | 6 => fltLog (if st < 3 then degrade d else d) code 0xFF unit (if 4 ≤ st then 0 else 4) 0xFF
    | 7 => fltLog d code 0xFF unit 0 0xFF
    | 8 => mediumFault d code cls unit
    | 9 => mediumFault d code cls unit
    | 10 => fltLog (if st < 3 then enterHold d cls else d) code 0xFF unit 4 0xFF
    | 11 => fltLog (if st = 6 then d else enterFailed d cls) code 0xFF unit 4 0xFF
    | 12 => fltLog (if st = 6 then d else enterFailed d cls) code 0xFF unit 4 0xFF
    | _ => d

/-- A detector reports a fault (R397). -/
def fault (d : Dev) (code cls unit : Nat) : Dev :=
  if frozen d ∧ cls ≠ 11 ∧ 1 ≤ cls ∧ cls ≤ 12 then
    let d := fltLog d code (match poolOf cls unit with | some (p, _) => p | none => 0xFF) unit 0 0xFF
    { d with flt := { d.flt with frozen := d.flt.frozen ++ [⟨cls, unit, code == 0x0D⟩] } }
  else faultActs d code cls unit

/-- Faults that waited for the end of a freeze act (R490). -/
def faultsResume (d : Dev) : Dev :=
  let l := d.flt.frozen
  let d := { d with flt := { d.flt with frozen := [] } }
  each l d fun d r => faultActs d (if r.injected then 0x0D else r.cls) r.cls r.unit

/-- The unit of a SCHEDULE entry: its pool and its logical number in it (R247). -/
def schedUnit (e : SchedEnt) : Option (Nat × Nat) :=
  match e.kind with
  | 1 => some (1 + e.unit / 32, e.unit % 32)
  | 2 => some (0, e.unit)
  | _ => none

/-- The pipes in which a slot of the current epoch uses a unit (R400). A turn lane or a pipe touches what it names. -/
def usesUnit (m : Model) (pool l : Nat) : Nat :=
  (List.range 8).foldl (fun a p =>
    if m.sched.any fun e => schedUnit e == some (pool, l) && (e.pipe == p || e.pipe == 0xFF) then a + 2 ^ p else a) 0

/-- The logical units that a pass of a unit in `pipe` reaches (R403): those of its SCHEDULE entries, the turn lanes of the pipe where
the pass has a recurrent turn, and the pipe itself. -/
def passUnits (m : Model) (pipe pass : Nat) : List (Nat × Nat) :=
  let turns := m.turn.isSome && pass == 0 && (m.slotSec.passes.getD 0 ⟨false, false, 0xFF, 0xFF⟩).turn
  ((m.sched.filter fun e => e.pipe == pipe && e.pass == pass).filterMap schedUnit) ++
    (if turns then (List.range 4).map fun l => (18 + pipe, l) else []) ++ [(26 + pipe, 0)]

/-- A pass of a unit reaches a logical unit whose remap has not committed, or that its epoch still names (R282, R403). -/
def reachesFailed (d : Dev) (x : Nat) (m : Model) (pipe pass : Nat) : Bool :=
  (passUnits m pipe pass).any fun u =>
    (d.flt.grafts.any fun g => g.pool == some u.1 && g.logical == u.2) || d.flt.stale.contains (unitKey u.1 u.2, x)

/-- A slot is affected in a pipe: a removed unit without which its schedule cannot run (R401). -/
def affectedIn (d : Dev) (slot pipe : Nat) : Bool := bit (getD d.flt.affected slot 0) pipe

/-- Adds affected pipes of a slot. -/
def markAffected (d : Dev) (slot pipes : Nat) : Dev :=
  if pipes = 0 then d
  else { d with flt := { d.flt with affected := set d.flt.affected slot (getD d.flt.affected slot 0 ||| pipes) } }

/-- The least turn unit time with `k` lanes, in tenths of ns (R400). -/
def turnTuNeed (slack k : Nat) : Nat := 80 + 8 * (cdiv (10 * slack) (8 * k) + 1)

/-- The boundary of an FLT graft (R399 to R401): the map changes; what the removal of a unit affects. -/
def commitRemap (d : Dev) (g : FltGraft) : Dev :=
  match g.pool with
  | none => d
  | some pool =>
    let live := d.epochs.map fun e => (unitKey pool g.logical, e.num)
    let d := { d with flt := { d.flt with stale := live ++ d.flt.stale } }
    let models := (curCfg d).models
    match g.spare with
    | some s =>
      let d := { d with flt := { d.flt with phys := set d.flt.phys (unitKey pool g.logical) s } }
      let d := tick d Ctr.fltRemapSpare
      -- a placement without a reload copy cannot be reloaded (R399)
      each models d fun d p => if p.2.reload then d else markAffected d p.1 (usesUnit p.2 pool g.logical)
    | none =>
      let d := { d with flt := { d.flt with removed := unitKey pool g.logical :: d.flt.removed } }
      let d := tick (wr d Reg.fltStatLost 1) Ctr.fltRemapRemove
      if pool ≤ 16 then each models d fun d p => markAffected d p.1 (usesUnit p.2 pool g.logical)
      else if pool = 17 then
        each (List.range 8) d fun d k =>
          let f := Reg.sprClassMaskCores (2 * k + g.logical / 32)
          wr d f (rd d f &&& (2 ^ 32 - 1 - 2 ^ (g.logical % 32)))
      else if pool ≤ 25 then
        let pipe := pool - 18
        let k := 4 - ((List.range 4).filter fun l => unitRemoved d pool l).length
        each models d fun d p => match p.2.turn with
          | some t =>
            if k = 0 ∨ 10 * t.tu < turnTuNeed t.slack k then
              markAffected d p.1 (getD (curCfg d).active p.1 0 &&& 2 ^ pipe)
            else d
          | none => d
      else
        let pipe := pool - 26
        let look := rd d Reg.stmPipesMask
        if bit look pipe then wr d Reg.stmPipesMask (look - 2 ^ pipe)
        else each d.prt.pipeOf d fun d p => if p.2 = pipe then wr d (Reg.prtPortStatLinkUp p.1) 0 else d

/-- The state after an FLT graft has committed (R404): once every one has, NORMAL or DEGRADED; a lost slot policy of
PARTNER with a PAIRED partner leads to HOLD (R401). -/
def remapDone (d : Dev) (cls : Nat) : Dev :=
  let d := wr d Reg.fltStatRemaps (min d.flt.grafts.length 2)
  if fltState d ≠ 1 ∨ !d.flt.grafts.isEmpty then d
  else if rdB d Reg.fltStatLost then
    let d := wr d Reg.fltStatState 2
    if rdB d Reg.fltCfgLossPol ∧ rd d Reg.clpStatState = 2 ∧ !d.flt.affected.isEmpty then
      enterHold d cls
    else d
  else wr d Reg.fltStatState 0

end Sys2Proof.Machine.Ops
end

