-- ==== Sys2Proof/Machine/Mem.lean ====
section
/-!
DEFINITION. Mem.lean: device memory: addresses and maps (R316), the layout in force (R319, R320), reads and writes under
the codes (R323 to R327, R336, R337).
-/
namespace Sys2Proof.Machine

/-- What a byte of device memory that nothing has written reads as: SRAM_INIT and HBM_INIT write zeros (R334). -/
def Memory.unlisted : BitVec 8 := 0

/-- The canonical form of a memory: addresses rise strictly and no entry holds what an unlisted byte reads as. -/
def Memory.wf (m : List Host.Cell) : Bool := Ops.sorted m && m.all fun c => c.2 != Memory.unlisted

namespace Ops

/-- One byte. -/
def byteGet (m : List Host.Cell) (a : Nat) : Byte := getD m a Memory.unlisted
/-- One byte written, in canonical form. -/
def bytePut (m : List Host.Cell) (a : Nat) (b : Byte) : List Host.Cell := setDef m a Memory.unlisted b
/-- `n` bytes from address `a`. -/
def bytesGet (m : List Host.Cell) : Nat → Nat → Bytes
  | _, 0 => []
  | a, n + 1 => byteGet m a :: bytesGet m (a + 1) n
/-- Bytes written from address `a` up. -/
def bytesPut (m : List Host.Cell) (a : Nat) : Bytes → List Host.Cell
  | [] => m
  | b :: bs => bytesPut (bytePut m a b) (a + 1) bs

/-- A region of bytes that becomes zero: nothing in it is listed. -/
def bytesClear (m : List Host.Cell) (a n : Nat) : List Host.Cell := m.filter fun c => !(a ≤ c.1 && c.1 < a + n)

/-- Raw contents, without the codes. -/
def memGet (d : Dev) (a n : Nat) : Bytes := bytesGet d.mem.cells a n
def memPut (d : Dev) (a : Nat) (bs : Bytes) : Dev := { d with mem := { d.mem with cells := bytesPut d.mem.cells a bs } }
def rawClear (d : Dev) (a n : Nat) : Dev := { d with mem := { d.mem with cells := bytesClear d.mem.cells a n } }

/-- The device has SRAM below 8 GiB and HBM from there to 72 GiB (R316). -/
def isSram (a : Nat) : Bool := a < 0x200000000

/-- The units of a medium that live, ascending: not lost, nor the one for whose loss the layout in force stands (R316, R333), which an
injected fault may name (R397). -/
def liveUnits (d : Dev) (sram : Bool) : List Nat :=
  (List.range 4).filter fun u => bit (rd d (if sram then Reg.memStatDiesLive else Reg.memStatStacksLive)) u &&
    rd d Reg.memLayoutLost != (if sram then u else 0x10 + u)

/-- The map in force has three units (R316). -/
def map3 (d : Dev) (sram : Bool) : Bool := rdB d (if sram then Reg.memStatSramMap else Reg.memStatHbmMap)

/-- The address lies in the range of the map in force (R316). -/
def mapped (d : Dev) (a : Nat) : Bool :=
  if isSram a then decide (a < if map3 d true then 0x180000000 else 0x200000000)
  else decide (a - 0x200000000 < if map3 d false then 0xC00000000 else 0x1000000000)

/-- The unit that an address maps to: die 0 to 3, or stack 4 to 7 (R316). -/
def unitAt (d : Dev) (a : Nat) : Nat :=
  let s := isSram a
  let g := (if s then a else a - 0x200000000) / 256
  let u := if map3 d s then (liveUnits d s).getD (g % 3) 0 else g % 4
  if s then u else 4 + u

/-- A unit of R316 has been lost (R332). -/
def unitGone (d : Dev) (u : Nat) : Bool :=
  if u < 4 then !bit (rd d Reg.memStatDiesLive) u else !bit (rd d Reg.memStatStacksLive) (u - 4)

/-- A medium serves fabric clients: it is initialised, and HBM has its domain ON (R334, R426). -/
def mediumUp (d : Dev) (a : Nat) : Bool :=
  if isSram a then rdB d Reg.memStatSramInit else rdB d Reg.memStatHbmInit && powered d 5

/-- HBM serves flow models and records: its domain is ON, and no stack is lost beside the one that the map leaves out (R402, R426). -/
def hbmUp (d : Dev) : Bool :=
  domOn d 5 && decide ((if map3 d false then 3 else 4) ≤ ((List.range 4).filter fun u => bit (rd d Reg.memStatStacksLive) u).length)

/-- A read or write at the address reaches memory (R318). -/
def reachable (d : Dev) (a : Nat) : Bool := mapped d a && mediumUp d a

/-- The layout in force (R320): the one of the PARTITION section whose LOST `MEM_LAYOUT` reads. -/
def layout? (d : Dev) : Option Layout :=
  if rd d Reg.memLayoutCount = 0 then none else layoutFor d (rd d Reg.memLayoutLost)

/-- Base and size in bytes of a region of the layout in force; (0, 0) where there is none. -/
def region (d : Dev) (id : Nat) : Nat × Nat :=
  match layout? d with
  | none => (0, 0)
  | some l => match l.regions.find? fun r => r.id == id with
    | some r => (r.base, r.size * 65536)
    | none => (0, 0)

/-- The offset of an address in its unit (R316). -/
def unitOff (d : Dev) (a : Nat) : Nat :=
  let s := isSram a
  let x := if s then a else a - 0x200000000
  x / 256 / (if map3 d s then 3 else 4) * 256 + x % 256

/-- The unit as a fault report names it (R397): a die 0 to 3, a stack 0x10 to 0x13. -/
def unitName (u : Nat) : Nat := if u < 4 then u else 0x10 + u % 4

/-- The counter of a unit, 0 to 7, in a per-unit family (R339). -/
def unitCtr (c : Nat → Nat) (u : Nat) : Nat := c u

/-- What a block read finds (R326). -/
structure BlkRead where
  /-- Lines poisoned. -/
  bad : List Nat
  /-- Inner corrections, by word ascending: the word and its syndrome. -/
  fixes : List (Nat × Nat)
  /-- Lines that the outer code has corrected, ascending. -/
  outer : List Nat
  ueWords : Nat
  /-- Error values that stay in the data after a miscorrection: (line, byte, value). -/
  delta : List (Nat × Nat × Nat)
  deriving DecidableEq, Repr

/-- Some correction was made. -/
def BlkRead.corrected (r : BlkRead) : Bool := !r.fixes.isEmpty || !r.outer.isEmpty

/-- The line of the latest correction, which the CE record names (R336): outer corrections follow inner ones. The check bits of a stored
word belong to no line, and its first one stands for them (log entry 154: DESIGN CHOICE). -/
def BlkRead.lastLine (r : BlkRead) : Nat :=
  match r.outer.getLast?, r.fixes.getLast? with
  | some j, _ => j
  | none, some (_, s) => ((List.range 64).find? fun i => Codes.secCol i == s).getD 0 / 16
  | none, none => 0

/-- Decodes the error pattern of a block (R326 steps 1 to 3). -/
def blkDecode (e : BlkErr) : BlkRead :=
  let word := fun w => (e.flips.filter fun p => p.1 == w).map (·.2)
  let dec := fun w => Codes.secDecode (word w)
  let ws := (List.range 18).filter fun w => !(word w).isEmpty
  let erased := ws.filter fun w => (dec w).isNone
  let fixed := ws.filter fun w => match dec w with | some (_, true) => true | _ => false
  -- the bits still wrong in a word: all of them where the word is erased
  let rest := fun w => match dec w with | some (r, _) => r | none => word w
  let symErr := fun j => (List.range 36).filterMap fun k =>
    let lane := 2 * j + k % 2
    let v : Nat := ((rest (k / 2) : List Nat).filter fun b => b / 8 == lane && b < 64).foldl (fun (a b : Nat) => a ^^^ 2 ^ (b % 8)) 0
    if v = 0 then none else some (k, v)
  let er := erased.flatMap fun w => [2 * w, 2 * w + 1]
  let line := fun j =>
    if e.ue.contains j then (none : Option (List (Nat × Nat)))
    else Codes.rsDecode er (symErr j)
  let bad := (List.range 4).filter fun j => (line j).isNone
  let outer := (List.range 4).filter fun j => match line j with
    | some x => !er.isEmpty || x.any fun p => p.2 != 0
    | none => false
  let delta := (List.range 4).flatMap fun j => match line j with
    | none => []
    | some x => (List.range 32).filterMap fun k =>
        let v := (symErr j).foldl (fun a p => if p.1 = k then a ^^^ p.2 else a) 0 ^^^
          x.foldl (fun a p => if p.1 = k then a ^^^ p.2 else a) 0
        if v = 0 then none else some (j, k, v)
  { bad, fixes := fixed.map fun w => (w, Codes.secSyndrome (word w)), outer, ueWords := erased.length, delta }

/-! ### Errors found (R329 to R332, R336) -/

/-- A repair starts, unless it is under way (R329, R330). -/
def startRepair (d : Dev) (u : Nat) (col : Bool) (idx : Nat) : Dev :=
  if d.mem.repairs.contains ⟨u, col, idx⟩ then d else { d with mem := { d.mem with repairs := d.mem.repairs ++ [⟨u, col, idx⟩] } }

/-- An inner correction in the block at `a` counts for its row and its column position; THRESH of them start a repair, and the count begins
anew (R329, R330). Columns are repaired in dies only. -/
def noteFix (d : Dev) (a : Nat) (x : Nat × Nat) : Dev :=
  let u := unitAt d a
  let off := unitOff d a / 128 * 128
  let th := rd d Reg.memRepairCfgThresh
  let row := Config.memRow u off
  let rows := getD d.mem.rowCorr u []
  let n := getD rows row 0 + 1
  let full := decide (th ≤ n)
  let d := { d with mem := { d.mem with rowCorr := set d.mem.rowCorr u (if full then del rows row else set rows row n) } }
  let d := if full then startRepair d u false row else d
  if 4 ≤ u then d else
  let col := Config.memColumn u off x.1 x.2
  let cols := getD d.mem.colCorr u []
  let at' := if (getD cols col []).contains row then getD cols col [] else row :: getD cols col []
  let full := decide (th ≤ at'.length)
  let d := { d with mem := { d.mem with colCorr := set d.mem.colCorr u (if full then del cols col else set cols col at') } }
  if full then startRepair d u true col else d

/-- A die or stack is declared lost (R332): FLT is told. -/
def unitLost (d : Dev) (u : Nat) : Dev :=
  if 8 ≤ u ∨ unitGone d u then d else
  let f := if u < 4 then Reg.memStatDiesLive else Reg.memStatStacksLive
  let d := wr (wr d f (rd d f - 2 ^ (u % 4))) Reg.memErrStatUnitLost 1
  if u < 4 then fault d 8 8 u else fault d 9 9 (unitName u)

/-- More than 1,024 codewords of a unit that prove uncorrectable within 1 ms lose it (R332). -/
def noteUe (d : Dev) (a : Nat) : Dev :=
  let u := unitAt d a
  let ts := set ((getD d.mem.ueTimes u []).filter fun p => decide (now d ≤ p.2 + 1000000)) (a / 32) (now d)
  let d := { d with mem := { d.mem with ueTimes := set d.mem.ueTimes u ts } }
  if 1024 < ts.length then unitLost d u else d

/-- The sum of the corrections over all units (R336). -/
def ceTotal (d : Dev) : Nat :=
  ((List.range 8).map fun u => ctr d (unitCtr Ctr.memCeInner u) + ctr d (unitCtr Ctr.memCeOuter u)).sum

/-- Records an uncorrectable codeword (R331, R332, R336): the UE record, the counter, the interrupt, the report to FLT. -/
def recordUe (d : Dev) (a src ueWords : Nat) : Dev :=
  let u := unitAt d a
  let d := tick d (unitCtr Ctr.memUe u)
  let d := if rdB d Reg.memErrStatUe then wr d Reg.memErrStatUeLost 1
    else
      let d := wrs d [(Reg.memErrStatUe, 1), (Reg.memErrUeAddrLoAddr, a / 32 * 32), (Reg.memErrUeAddrHiAddr, a / 2 ^ 32),
        (Reg.memErrUeInfoSource, src), (Reg.memErrUeInfoMedium, b2n (!isSram a)), (Reg.memErrUeInfoUnit, u % 4),
        (Reg.memErrUeInfoUeWords, ueWords)]
      irq d Reg.memIrqCfgUeEn Reg.memIrqCfgVector
  noteUe (fault d 7 7 (unitName u)) a

/-- Records the corrections of a block at `b` (R336): the line of the latest one; the syndrome of the latest inner one. CE_EN raises the
vector each time the sum of the corrections reaches a multiple of CE_THRESH. -/
def recordCe (d : Dev) (b src : Nat) (r : BlkRead) : Dev :=
  let a := b + 32 * r.lastLine
  let u := unitAt d a
  let before := ceTotal d
  let d := count (count d (unitCtr Ctr.memCeInner u) r.fixes.length) (unitCtr Ctr.memCeOuter u) r.outer.length
  let d := wrs d [(Reg.memErrStatCe, 1), (Reg.memErrCeAddrLoAddr, a), (Reg.memErrCeAddrHiAddr, a / 2 ^ 32),
    (Reg.memErrCeInfoSource, src), (Reg.memErrCeInfoMedium, b2n (!isSram a)), (Reg.memErrCeInfoUnit, u % 4),
    (Reg.memErrCeInfoUeWords, r.ueWords)]
  let d := match r.fixes.getLast? with | some x => wr d Reg.memErrCeInfoSyndrome x.2 | none => d
  let th := max 1 (rd d Reg.memIrqCfgCeThresh)
  let d := if before / th < ceTotal d / th then irq d Reg.memIrqCfgCeEn Reg.memIrqCfgVector else d
  each r.fixes d fun d x => noteFix d b x

/-! ### Reads (R326) -/

/-- An access to the address is served: the medium is up, the address mapped, its unit not lost (R332, R334). -/
def served (d : Dev) (a : Nat) : Bool := reachable d a && !unitGone d (unitAt d a)

/-- Decodes block `b` for an access of source `src` to `lines` of it (R326): it corrects, writes back and records, an uncorrectable line only
if it is one of `lines`. Answers the lines that are uncorrectable; all of them where the access is not served. -/
def readLines (d : Dev) (b src : Nat) (lines : List Nat) : Dev × List Nat :=
  if !served d (128 * b) then (d, [0, 1, 2, 3]) else
  match find? d.mem.blk b with
  | none => (d, [])
  | some e =>
    let r := blkDecode e
    let d := if r.corrected then recordCe d (128 * b) src r else d
    let d := each (r.bad.filter lines.contains) d fun d j => recordUe d (128 * b + 32 * j) src r.ueWords
    if !r.corrected then (d, r.bad) else
    -- the corrected block is written back; a line that stays uncorrectable keeps its mark
    let e' : BlkErr := if r.ueWords > 2
      then { e with flips := e.flips.filter fun p => (Codes.secDecode ((e.flips.filter fun q => q.1 == p.1).map (·.2))).isNone }
      else { flips := [], ue := r.bad }
    let cells := r.delta.foldl (fun m (p : Nat × Nat × Nat) =>
      let x := 128 * b + 32 * p.1 + p.2.1
      bytePut m x (byteGet m x ^^^ BitVec.ofNat 8 p.2.2)) d.mem.cells
    let blk := if e'.flips.isEmpty ∧ e'.ue.isEmpty then del d.mem.blk b else set d.mem.blk b e'
    ({ d with mem := { d.mem with cells, blk } }, r.bad)

/-- Reads the block that holds address `a`: the poisoned lines. `src` is the SOURCE of the records: 0 read, 1 scrub. A row in which the
controller meets an uncorrectable codeword is read again, meets it again and is repaired (R329, R330; log entry 153). -/
def readBlock (d : Dev) (a src : Nat) : Dev × List Nat :=
  let r := readLines d (a / 128) src [0, 1, 2, 3]
  if r.2.isEmpty || !served d a then r
  else (startRepair r.1 (unitAt d a) false (Config.memRow (unitAt d a) (unitOff d a / 128 * 128)), r.2)

/-- The blocks that `n` bytes at `a` touch. -/
def blocksOf (a n : Nat) : List Nat := if n = 0 then [] else (List.range ((a + n - 1) / 128 - a / 128 + 1)).map (a / 128 + ·)

/-- The event of 64 bytes of a medium (R438). -/
def memEvt (a : Nat) : Nat := if isSram a then 17 else 18

/-- Reads `n` bytes at `a` (R326): the bytes, and whether a line among them is poisoned. -/
def memRead (d : Dev) (a n : Nat) : Dev × Bytes × Bool :=
  let d := meter d (memEvt a) (cdiv n 64)
  let r := (blocksOf a n).foldl (fun (x : Dev × Bool) b =>
    let y := readBlock x.1 (b * 128) 0
    let hit := y.2.any fun j => decide (b * 128 + 32 * j < a + n ∧ a < b * 128 + 32 * j + 32)
    (y.1, x.2 || hit)) (d, false)
  (r.1, memGet r.1 a n, r.2)

/-- `n` bytes of device memory as a number. -/
def memReadLe (d : Dev) (a n : Nat) : Dev × Nat := let r := memRead d a n; (r.1, leNat r.2.1)

/-! ### Writes (R327, R337) -/

/-- Whether the write covers line `l` (address / 32) whole. -/
def coversLine (a n l : Nat) : Bool := decide (a ≤ 32 * l ∧ 32 * l + 32 ≤ a + n)

/-- The errors of a block after a write has replaced `whole` lines of it: their bits and marks go. Every stored word holds symbols of each
line and is encoded anew, so its check bits are right again (log entry 154: DESIGN CHOICE where other lines hold errors). -/
def coverErr (e : BlkErr) (whole : List Nat) : Option BlkErr :=
  if whole.isEmpty then some e else
  let e' : BlkErr := { flips := if whole.length = 4 then [] else e.flips.filter fun p => decide (p.2 < 64) && !whole.contains (p.2 / 16)
                       ue := e.ue.filter fun j => !whole.contains j }
  if e'.flips.isEmpty ∧ e'.ue.isEmpty then none else some e'

/-- The lines of block `b` that `n` bytes at `a` cover whole. -/
def wholeLines (a n b : Nat) : List Nat := (List.range 4).filter fun j => coversLine a n (4 * b + j)

/-- A write that lands in block `b` takes an armed injection (R337): bits of a stored word flip. -/
def injectInto (d : Dev) (b : Nat) : Dev :=
  if rdB d Reg.memInjCtlArm ∧ rd64 d Reg.memInjAddrLoAddr Reg.memInjAddrHiAddr / 128 = b then
    let w := rd d Reg.memInjCtlWord
    let x := rd d Reg.memInjCtlBitA
    let y := rd d Reg.memInjCtlBitB
    let e := getD d.mem.blk b { flips := [], ue := [] }
    let flip := fun (l : List (Nat × Nat)) (p : Nat × Nat) => if l.contains p then l.erase p else l ++ [p]
    let fl := flip e.flips (w, x)
    let fl := if x = y then fl else flip fl (w, y)
    let blk := if fl.isEmpty ∧ e.ue.isEmpty then del d.mem.blk b else set d.mem.blk b { e with flips := fl }
    wr { d with mem := { d.mem with blk } } Reg.memInjCtlArm 0
  else d

/-- What a write of `bs` at `a` does to the codes of block `b`, and the pieces of it that land (R327): lines that it covers whole are
replaced; a narrower write decodes the block first and is discarded in an uncorrectable line. Nothing lands in a lost unit, nor before the
medium is up (R332, R334). -/
def writeBlock (d : Dev) (b a : Nat) (bs : Bytes) : Dev × List (Nat × Bytes) :=
  let n := bs.length
  if !served d (128 * b) then (d, []) else
  let touched := (List.range 4).filter fun j => decide (128 * b + 32 * j < a + n ∧ a < 128 * b + 32 * j + 32)
  let whole := wholeLines a n b
  let part := touched.filter fun j => !whole.contains j
  let r := if part.isEmpty then (d, []) else readLines d b 2 part
  let lost := part.filter r.2.contains
  let d := each lost r.1 fun d j => tick d (unitCtr Ctr.memPartialUe (unitAt d (128 * b + 32 * j)))
  let land := touched.filter fun j => !lost.contains j
  if land.isEmpty then (d, []) else
  let blk := match find? d.mem.blk b with
    | none => d.mem.blk
    | some e => match coverErr e whole with | some e' => set d.mem.blk b e' | none => del d.mem.blk b
  (injectInto { d with mem := { d.mem with blk } } b, land.map fun j =>
    let lo := max a (128 * b + 32 * j)
    let hi := min (a + n) (128 * b + 32 * j + 32)
    (lo, (bs.drop (lo - a)).take (hi - lo)))

/-- A write of `bs` at `a` under the codes: the device, and the pieces that land. -/
def codeWrite (d : Dev) (a : Nat) (bs : Bytes) : Dev × List (Nat × Bytes) :=
  (blocksOf a bs.length).foldl (fun x b => let r := writeBlock x.1 b a bs; (r.1, x.2 ++ r.2)) (d, [])

/-- Stores bytes at `a` under R327. -/
def memStore (d : Dev) (a : Nat) (bs : Bytes) : Dev :=
  let r := codeWrite d a bs
  each r.2 r.1 fun d p => memPut d p.1 p.2

/-- Writes bytes at `a`: the store, metered (R438). -/
def memWrite (d : Dev) (a : Nat) (bs : Bytes) : Dev := memStore (meter d (memEvt a) (cdiv bs.length 64)) a bs

/-- A number written as `n` bytes, and the sum of a number and what stands there, through `f`. -/
def memPutLe (d : Dev) (a n x : Nat) : Dev := memWrite d a (leBytes n x)
def memUpdate (d : Dev) (a n : Nat) (f : Nat → Nat) : Dev := let r := memReadLe d a n; memPutLe r.1 a n (f r.2)

/-- Zeroes `n` bytes at `a`: nothing there is listed, and the lines that it covers whole hold no error. -/
def memClear (d : Dev) (a n : Nat) : Dev :=
  let d := rawClear d a n
  let blk := d.mem.blk.filterMap fun p => (coverErr p.2 (wholeLines a n p.1)).map fun e => (p.1, e)
  let t := rd64 d Reg.memInjAddrLoAddr Reg.memInjAddrHiAddr / 128
  let d := { d with mem := { d.mem with blk } }
  if a ≤ 128 * t ∧ 128 * t + 128 ≤ a + n then injectInto d t else d

end Ops
end Sys2Proof.Machine
end

