-- ==== Sys2Proof/Machine/SprQ.lean ====
section
/-!
DEFINITION. SprQ.lean: the queues of the task dispatcher (R227, R229) and the state of a sprig core (R239).
-/
namespace Sys2Proof.Machine.Ops

/-- A sprig core; one that has never been loaded holds nothing. -/
def core (d : Dev) (c : Nat) : Core := getD d.spr.cores c default
def setCore (d : Dev) (c : Nat) (x : Core) : Dev := { d with spr := { d.spr with cores := set d.spr.cores c x } }

/-- `SPR_CORE_STAT_c.STATE`: 0 OFF, 1 RUN, 2 DRAINING, 3 DRAINED, 4 FAULT. -/
def coreState (d : Dev) (c : Nat) : Nat := rd d (Reg.sprCoreStatState c)
def setCoreState (d : Dev) (c v : Nat) : Dev := wr d (Reg.sprCoreStatState c) v

def taskQueue (d : Dev) (k : Nat) : List Task := getD d.spr.queues k []

/-- Puts a task of class `k` into its queue; SEQ counts from 1 (R229). A full queue, or a gated SPR, takes none (R227). -/
def postTask (d : Dev) (t : Task) : Dev × Bool :=
  if !gateOn d 12 then (d, false)
  else if (taskQueue d t.cls).length ≥ 1024 then (tick d (Ctr.sprQfull t.cls), false)
  else
    let n := getD d.spr.seq t.cls 0 + 1
    let d := { d with spr := { d.spr with
      queues := set d.spr.queues t.cls (taskQueue d t.cls ++ [{ t with seq := n }])
      seq := set d.spr.seq t.cls n } }
    (tick d (Ctr.sprPosted t.cls), true)

/-- SEQ of the latest task of a class. -/
def lastSeq (d : Dev) (k : Nat) : Nat := getD d.spr.seq k 0

/-- A class is ordered: LOG and TABLE (R227, R228). -/
def orderedClass (k : Nat) : Bool := k == 2 || k == 5

/-- A task of class `k` is with a core. -/
def classBusy (d : Dev) (k : Nat) : Bool :=
  d.spr.cores.any fun p =>
    (match p.2.given with | some t => t.cls == k | none => false) ||
    (match p.2.claimed with | some (t, _) => t.cls == k | none => false)

/-- The core may be given a task of class `k` (class mask and image, R227). -/
def eligible (d : Dev) (k c : Nat) : Bool :=
  bit (rd d (Reg.sprClassMaskCores (2 * k + c / 32))) (c % 32) && bit (core d c).classes k

/-- `SPR_CLASS_STAT.EMPTY`: no eligible core in RUN serves the class. -/
def classEmpty (d : Dev) (k : Nat) : Bool := !((List.range 64).any fun c => eligible d k c && coreState d c == 1)

end Sys2Proof.Machine.Ops
end

