-- ==== Sys2Proof/Machine/FlwTable.lean ====
section
/-!
DEFINITION. FlwTable.lean: the flow table: geometry and hash (R91, R92), entries (R94), the learn log (R109, R110),
insertion, hits and contests (R99 to R102), the freeing of an entry (R108), UE_HOLD (R112), digests (R113), and the changes
that a pair mirrors (R386 to R389).
-/
namespace Sys2Proof.Machine.Ops

/-- Buckets: 2^n (R91). -/
def buckets (d : Dev) : Nat := 2 ^ rd d Reg.flwCfgBucketLog2
/-- Index of the first overflow entry, and the number of entries. -/
def ovfBase (d : Dev) : Nat := 4 * buckets d
def ovfSize : Nat := 16384

/-- *h* of a key of 40 bytes (R92). -/
def flowHash (d : Dev) (key : Bytes) : Nat :=
  Codes.crc32c (leBytes 4 (rd d Reg.flwSeedLoSeed) ++ leBytes 4 (rd d Reg.flwSeedHiSeed) ++ key)

def bucketOf (d : Dev) (key : Bytes) : Nat := flowHash d key % buckets d

/-- The bucket of an entry, or 2^n + its overflow group (R113). -/
def homeOf (_d : Dev) (i : Nat) : Nat := i / 4

def ent? (d : Dev) (i : Nat) : Option FlowEnt := find? d.flw.ents i
def sideOf (d : Dev) (i : Nat) : SideRec := getD d.flw.sides i ⟨0, 0, 0⟩
def genOf (d : Dev) (i : Nat) : Nat := getD d.flw.gen i 0
def origin (d : Dev) : Nat := rd64 d Reg.flwTimeOriginLoTime Reg.flwTimeOriginHiTime
def horizon (d : Dev) : Nat := rd d Reg.flwOrderCfgHorizon
/-- The frontier *F* (R103). -/
def frontier (d : Dev) : Nat := now d - horizon d

/-- LAST_SEEN of an event time (R94). -/
def seenAt (d : Dev) (t : Nat) : Nat := ((t : Int) - origin d) % (2 ^ 48 : Int) |>.toNat

/-- FLAGS of an entry (R94). -/
def flagsOf (e : FlowEnt) : Nat :=
  put (b2n e.valid) 0 1 + put (b2n e.recent) 1 1 + put (b2n e.stateOwned) 2 1 + put (b2n e.sw) 3 1 +
  put (b2n e.noAge) 4 1 + put (b2n e.ueHold) 5 1

/-- The 128 bytes of an entry (R94). -/
def entBytes (e : FlowEnt) : Bytes :=
  padTo 40 e.key ++ leBytes 6 e.lastSeen ++ leBytes 1 e.learnEpoch ++ leBytes 1 (e.tenant % 64) ++ leBytes 1 e.src ++
  leBytes 1 e.altSrc ++ leBytes 1 (flagsOf e) ++ leBytes 1 (put e.cstate 0 2 + put e.moves 2 4) ++ leBytes 4 e.srcT ++
  leBytes 4 e.contestT ++ leBytes 1 e.stateSlot ++ zeros 3 ++ padTo 64 e.state

/-- The 16 bytes of a side record (R95). -/
def sideBytes (s : SideRec) : Bytes := leBytes 8 s.cache ++ leBytes 4 s.pkts ++ leBytes 4 s.bytes

/-- The entry that 128 bytes hold. -/
def entOfBytes (b : Bytes) : FlowEnt :=
  let f := le b 50 1
  let c := le b 51 1
  { key := slice b 0 40, lastSeen := le b 40 6, learnEpoch := le b 46 1, tenant := le b 47 1 % 64, src := le b 48 1
    altSrc := le b 49 1, valid := bit f 0, recent := bit f 1, stateOwned := bit f 2, sw := bit f 3, noAge := bit f 4
    ueHold := bit f 5, cstate := c % 4, moves := bits c 2 4, srcT := le b 52 4, contestT := le b 56 4
    stateSlot := le b 60 1, state := slice b 64 64 }

def sideOfBytes (b : Bytes) : SideRec := ⟨le b 0 8, le b 8 4, le b 12 4⟩

/-- FLW is read-only: the device is STANDBY (R387). -/
def standby (d : Dev) : Bool := rd d Reg.clpStatRole == 2

/-- The device owns the flow group of a key (R386). -/
def ownsFlow (d : Dev) (key : Bytes) : Bool :=
  !rdB d Reg.clpCfgMode || bit (rd d Reg.clpOwnMask) (flowHash d key / 2 ^ 28)

/-- Changes are mirrored: SYNC or PAIRED, the device is ACTIVE and is not the one that joins (R389, R392); none in HANDOVER (R406). -/
def mirroring (d : Dev) : Bool :=
  fltState d != 4 && (rd d Reg.clpStatState == 1 || rd d Reg.clpStatState == 2) && rd d Reg.clpStatRole == 1 &&
  !(match d.clp.join with | some (surv, _) => !surv | none => false)

/-- A change of entry `i` that an ENTRY delta carries, with the bytes that it leaves (R389). -/
def mirrorEntry (d : Dev) (i : Nat) (e : FlowEnt) : Dev :=
  if mirroring d && ownsFlow d e.key then
    let b := (match ent? d i with | some e => entBytes e | none => zeros 128) ++ sideBytes (sideOf d i)
    { d with clp := { d.clp with dirty := d.clp.dirty ++ [⟨i, some b, now d⟩] } }
  else d

/-- A change that a STATE delta carries: coalesced with one that waits for the same entry (R389). -/
def mirrorState (d : Dev) (i : Nat) : Dev :=
  match ent? d i with
  | none => d
  | some e =>
    if !(mirroring d && ownsFlow d e.key) then d
    else if d.clp.dirty.any fun x => x.idx == i && x.data.isNone then tick d Ctr.clpCoalesced
    else { d with clp := { d.clp with dirty := d.clp.dirty ++ [⟨i, none, now d⟩] } }

/-- Posts a LOG task when the ring is not empty and none is queued or claimed (R109). -/
def logPost (d : Dev) : Dev :=
  if rd d Reg.flwLogWrIndex ≠ rd d Reg.flwLogRdIndex ∧ (taskQueue d 2).isEmpty ∧ !classBusy d 2 then
    (postTask d { cls := 2, src := 2, tenant := 0, slot := 0, epoch := curNum d, arg0 := rd d Reg.flwLogRdIndex
                  arg1 := 0, seq := 0 }).1
  else d

/-- Writes a learn-log record, or loses it (R109, R110). `home` is the bucket or group that the record changes. -/
def logRecord (d : Dev) (t idx kind tenant before after : Nat) (key : Bytes) : Dev :=
  let seq := d.flw.logSeq + 1
  let home := if kind = 7 then idx else homeOf d idx
  let d := { d with flw := { d.flw with
    logSeq := seq
    lastChange := if kind = 7 then d.flw.lastChange else set d.flw.lastChange home (seq % 2 ^ 32) } }
  let n := rd d Reg.flwLogCfgEntries
  let w := rd d Reg.flwLogWrIndex
  if (w + 1) % n = rd d Reg.flwLogRdIndex then wr (tick d Ctr.flwLogLost) Reg.flwLogStatOverrun 1
  else
    let b := leBytes 8 seq ++ leBytes 8 t ++ leBytes 4 idx ++ leBytes 1 kind ++ leBytes 1 tenant ++ leBytes 1 before ++
      leBytes 1 after ++ padTo 40 key
    logPost (wr (memWrite d ((region d 5).1 + 64 * w) b) Reg.flwLogWrIndex ((w + 1) % n))

/-- The addresses of entry `i` and of its side record (R91). -/
def tableBase (d : Dev) : Nat := rd64 d Reg.flwTableBaseLoAddr Reg.flwTableBaseHiAddr
def sideBase (d : Dev) : Nat := rd64 d Reg.flwSideBaseLoAddr Reg.flwSideBaseHiAddr
def entAddr (d : Dev) (i : Nat) : Nat := tableBase d + 128 * i
def sideAddr (d : Dev) (i : Nat) : Nat := sideBase d + 16 * i

/-- Entry `i` and its side record as the device holds them. -/
def setEnt (d : Dev) (i : Nat) (e : FlowEnt) : Dev := { d with flw := { d.flw with ents := set d.flw.ents i e } }
def setSide (d : Dev) (i : Nat) (s : SideRec) : Dev := { d with flw := { d.flw with sides := set d.flw.sides i s } }

/-- Writes entry `i`, whole lines, and its side record, a narrow write, under the codes (R327): what does not land changes nothing. -/
def putEnt (d : Dev) (i : Nat) (e : FlowEnt) : Dev :=
  let r := codeWrite d (entAddr d i) (entBytes e)
  if r.2.isEmpty then r.1 else setEnt r.1 i e
def putSide (d : Dev) (i : Nat) (s : SideRec) : Dev :=
  let r := codeWrite d (sideAddr d i) (sideBytes s)
  if r.2.isEmpty then r.1 else setSide r.1 i s

/-- The pending writes of an entry that its current contents granted. -/
def pendOf (d : Dev) (i : Nat) : List PendWr := (getD d.flw.pend i []).filter fun w => w.gen == genOf d i

/-- The state that a turn reads at time `x`: what the latest granted write that lands by then has computed, or the entry's
state; `none` while such a write has not been computed yet (R106). -/
def stateAt (d : Dev) (i x : Nat) : Option Bytes :=
  match ((pendOf d i).filter fun w => decide (w.land ≤ x)).getLast? with
  | some w => w.val
  | none => some (match ent? d i with | some e => e.state | none => zeros 64)

/-- The packets that wait for the state of entry `i` at their release time take it as soon as it is known (R106). -/
def settle (d : Dev) (i : Nat) : Dev :=
  { d with units := d.units.map fun p =>
      if p.2.readOf == some i then match stateAt d i p.2.release with
        | some s => (p.1, { p.2 with state := s, carry := s, readOf := none })
        | none => p
      else p }

/-- Removes the pending write of a unit: it will write nothing, and BUSY stands (R223, R278). -/
def dropPend (d : Dev) (i u : Nat) : Dev :=
  settle { d with flw := { d.flw with pend := set d.flw.pend i ((getD d.flw.pend i []).filter fun w => w.unit != u) } } i

/-- The turn read time of a unit whose turn on entry `i` is still to start, on the entry's present contents. -/
def turnWaits (d : Dev) (r : UnitRec) (i : Nat) : Option Nat :=
  if r.zeroState ∨ r.copy.isSome ∨ r.pass ≠ 0 ∨ r.entry ≠ some (i, genOf d i) then none
  else if r.stage = .looked ∨ r.stage = .featured then r.turn.map (·.1) else none

/-- Packets whose reads of entry `i` fall at times of which `f` holds keep its state as they see it (R106, R115): the entry is about to
change. -/
def keepCopies (d : Dev) (i : Nat) (f : Nat → Bool) : Dev :=
  let st := fun (x : Nat) => (stateAt d i x).getD (match ent? d i with | some e => e.state | none => zeros 64)
  { d with units := d.units.map fun p =>
      if p.2.readOf == some i && f p.2.release then (p.1, { p.2 with state := st p.2.release, carry := st p.2.release, readOf := none })
      else match turnWaits d p.2 i with
        | some x => if f x then (p.1, { p.2 with copy := some (st x) }) else p
        | none => p }

/-- What is pending on entry `i` is discarded (R108); reads before now have seen the entry as it was. -/
def discardPend (d : Dev) (i : Nat) : Dev :=
  let d := keepCopies d i (fun x => decide (x ≤ now d))
  settle { d with flw := { d.flw with busy := del d.flw.busy i, pend := del d.flw.pend i } } i

/-- Zeroes the place of entry `i` and of its side record in memory (R327). -/
def zeroEnt (d : Dev) (i : Nat) : Dev :=
  let r := codeWrite d (entAddr d i) (zeros 128)
  let d := if r.2.isEmpty then r.1 else { rawClear r.1 (entAddr r.1 i) 128 with flw := { r.1.flw with ents := del r.1.flw.ents i } }
  let r := codeWrite d (sideAddr d i) (zeros 16)
  if r.2.isEmpty then r.1 else { rawClear r.1 (sideAddr r.1 i) 16 with flw := { r.1.flw with sides := del r.1.flw.sides i } }

/-- Frees entry `i`: it is zeroed, and a write that is pending on it will be discarded (R101, R108). Its side record goes with it (log
entry 140: DESIGN CHOICE). -/
def freeEnt (d : Dev) (i : Nat) : Dev :=
  let d := zeroEnt (keepCopies d i (fun x => decide (x ≤ now d))) i
  { d with flw := { d.flw with busy := del d.flw.busy i, gen := set d.flw.gen i (genOf d i + 1) } }

/-- Valid entries of a tenant (`FLW_TENANT_CNT_t`). -/
def tenantCount (d : Dev) (t : Nat) : Nat := (d.flw.ents.filter fun p => p.2.tenant == t).length

/-- The entry that holds a key: its bucket, unless UE_HOLD is set there, and the overflow store (R92, R112). -/
def lookup (d : Dev) (key : Bytes) : Option Nat :=
  let b := bucketOf d key
  let hit := fun i => match ent? d i with | some e => e.key == key | none => false
  if !d.flw.ueHold.contains b ∧ (List.range 4).any (fun w => hit (4 * b + w)) then
    (List.range 4).findSome? fun w => if hit (4 * b + w) then some (4 * b + w) else none
  else d.flw.ents.findSome? fun p => if ovfBase d ≤ p.1 ∧ p.2.key = key then some p.1 else none

/-- The lowest free way of a bucket, then the lowest free overflow entry (R99). -/
def freeSlot (d : Dev) (b : Nat) : Option Nat :=
  match lowest 4 fun w => (ent? d (4 * b + w)).isNone with
  | some w => some (4 * b + w)
  | none => (lowest ovfSize fun j => (ent? d (ovfBase d + j)).isNone).map (ovfBase d + ·)

/-- The tenant of a key (word 9, R93). -/
def keyTenant (key : Bytes) : Nat := le key 36 1 % 64

/-- Where an insertion goes, or why it fails: 3 FULL, 4 QUOTA, 5 UE (R99, R111). -/
def place (d : Dev) (key : Bytes) : Nat ⊕ Nat :=
  let b := bucketOf d key
  let t := keyTenant key
  let m := rd d (Reg.flwTenantCfgMax t)
  if d.flw.ueHold.contains b then .inr 5
  else if m ≠ 0 ∧ m ≤ tenantCount d t then .inr 4
  else match freeSlot d b with
    | some i => .inl i
    | none => .inr 3

/-- An entry as a learn sets it (R100). -/
def learnt (d : Dev) (key : Bytes) (t src epoch : Nat) : FlowEnt :=
  { key, lastSeen := seenAt d t, learnEpoch := epoch, tenant := keyTenant key, src, altSrc := 0, valid := true
    recent := true, stateOwned := false, sw := false, noAge := false, ueHold := false, cstate := 0, moves := 0
    srcT := t % 2 ^ 32, contestT := 0, stateSlot := 0, state := zeros 64 }

/-- Counts a tenant's event in the Loupe block, which counts while LPE's gate is ON (R481). -/
def lpeTick (d : Dev) (a : Nat) : Dev := tickIf (gateOn d 22) d a

/-- The address of a window cell (R125). -/
def cellAddr (d : Dev) (w : WinDesc) (i : Nat) : Nat :=
  rd64 d Reg.feaWinBaseLoAddr Reg.feaWinBaseHiAddr + w.base + i * Window.cellSize w

/-- Sets every flow-keyed cell of entry `i` empty, in every live epoch's descriptors of the tenant (R135). -/
def clearCells (d : Dev) (tenant i : Nat) : Dev :=
  let ds := (d.epochs.flatMap fun e =>
    (e.cfg.descs.map (·.2)).filter fun w => w.key == 0 && w.tenant == tenant && decide (i < w.cells)).eraseDups
  count (each ds d fun d w => memWrite d (cellAddr d w i) (Window.emptyCell w)) Ctr.feaWinClear ds.length

/-- Sets entry `i` as new, with a zero side record (R95, R100), logs it, mirrors it. -/
def insertAt (d : Dev) (i : Nat) (e : FlowEnt) (t kind : Nat) : Dev :=
  let d := lpeTick (putSide (putEnt d i e) i ⟨0, 0, 0⟩) (Ctr.lpeTLearn e.tenant)
  let d := { d with flw := { d.flw with busy := del d.flw.busy i } }
  mirrorEntry (meter (logRecord d t i kind e.tenant 0 e.src e.key) 6 1) i e

/-- LAST_SEEN, PKTS and BYTES of a hit (R94, R95). -/
def touch (d : Dev) (i : Nat) (e : FlowEnt) (t len : Nat) : Dev :=
  let s := sideOf d i
  putSide (putEnt d i { e with lastSeen := seenAt d t }) i
    { s with pkts := min (s.pkts + 1) 0xFFFFFFFF, bytes := min (s.bytes + chunks64 len) 0xFFFFFFFF }

/-- The entry fields and the log record of a hit by source `s` at `t` under R101 and R102: the entry, the log kind, the
counter. A same-source hit, PINNED and CPU change no field. -/
def contest (d : Dev) (e : FlowEnt) (s t : Nat) : FlowEnt × Option Nat × Option Nat :=
  let w := rd d Reg.flwContestCfgWindow
  let since := fun (x : Nat) => (((t : Int) - x) % (2 ^ 32 : Int)).toNat
  if s = e.src ∨ e.cstate = 3 then (e, none, none)
  else if e.cstate = 2 then (e, none, some Ctr.flwPinHold)
  else if e.cstate = 1 ∧ e.recent ∧ since e.contestT < 16 * w then
    let e := { e with moves := min 15 (e.moves + 1), altSrc := s, recent := true }
    match rd d (Reg.flwTenantCfgFlap e.tenant) with
    | 0 => ({ e with cstate := 2 }, some 5, some Ctr.flwFlap)
    | 1 => ({ e with cstate := 3 }, some 5, some Ctr.flwFlap)
    | _ => ({ e with cstate := 1, src := s, srcT := t % 2 ^ 32 }, some 5, some Ctr.flwFlap)
  else if e.recent ∧ since e.srcT < w then
    ({ e with cstate := 1, moves := 1, altSrc := s, contestT := t % 2 ^ 32, recent := true }, some 4, some Ctr.flwMove)
  else
    ({ e with src := s, srcT := t % 2 ^ 32, recent := true, cstate := 0, moves := 0 }, some 6, some Ctr.flwSrcChange)

/-- A hit of entry `i` (R101). -/
def hit (d : Dev) (i : Nat) (e : FlowEnt) (s t len : Nat) : Dev :=
  if standby d then d else
  let r := contest d e s t
  let d := meter (touch d i r.1 t len) 6 1
  let d := match r.2.2 with | some c => tick d c | none => d
  match r.2.1 with
  | some k => mirrorEntry (logRecord d t i k e.tenant e.src s e.key) i e
  | none => mirrorState d i

/-- Frees entry `i` and logs it: kind 2 AGE or 3 DELETE (R101). -/
def dropEnt (d : Dev) (i kind : Nat) : Dev :=
  match ent? d i with
  | none => d
  | some e => mirrorEntry (logRecord (freeEnt d i) (frontier d) i kind e.tenant e.src e.src e.key) i e

/-- A bucket read that the outer code cannot correct: UE_HOLD (R112); its pending writes are discarded (R108). The flag is set in the entries
of the bucket and replaces no line: the codeword stays uncorrectable (R326). The record carries F, the bucket's first way and zeros for the
tenant, both sources and KEY (log entry 141: DESIGN CHOICE). -/
def holdBucket (d : Dev) (b : Nat) : Dev :=
  let d := { d with flw := { d.flw with ueHold := b :: d.flw.ueHold } }
  let d := each (List.range 4) d fun d w =>
    let i := 4 * b + w
    match ent? d i with
    | none => d
    | some e =>
      let e' := { e with ueHold := true }
      mirrorEntry (setEnt (discardPend d i) i e') i e'
  tick (logRecord d (frontier d) (4 * b) 8 0 0 0 (zeros 40)) Ctr.flwBucketUe

/-- Reads a bucket under the codes (R326, R112). -/
def readBucket (d : Dev) (b : Nat) : Dev :=
  if d.flw.ueHold.contains b then d else
  let r := (List.range 4).foldl (fun (x : Dev × Bool) w =>
    let y := readBlock x.1 (entAddr x.1 (4 * b + w)) 0
    (y.1, x.2 || !y.2.isEmpty)) (d, false)
  if r.2 then holdBucket r.1 b else r.1

/-- The digest of a bucket, or of an overflow group as 2^n + g (R113). -/
def digest (d : Dev) (home : Nat) : Nat :=
  Codes.crc32c ((List.range 4).flatMap fun w => match ent? d (4 * home + w) with
    | some e => 1 :: padTo 40 e.key
    | none => zeros 41)

/-- The flow table and its side records are zeroed. -/
def clearTable (d : Dev) : Dev :=
  let d := each [0, 1] d fun d k => memClear d (region d k).1 (region d k).2
  let gen := d.flw.ents.foldl (fun g p => set g p.1 (genOf d p.1 + 1)) d.flw.gen
  { d with flw := { d.flw with ents := [], sides := [], ueHold := [], busy := [], gen } }

/-- A table graft starts an empty table (R115): pending writes are discarded; steering entries too (R382). Packets of draining epochs
finish on the copies in their contexts. -/
def startTable (d : Dev) : Dev :=
  let d := clearTable (each d.flw.ents d fun d p => keepCopies d p.1 fun _ => true)
  let d := { d with flw := { d.flw with lastChange := [], scanPos := 0, walkPos := 0 } }
  wr64 { d with trl := { d.trl with steer := [] } } Reg.flwTimeOriginLoTime Reg.flwTimeOriginHiTime (now64 d)

/-- An insertion failure floods the unit's key to the group (R99, R383). -/
def flood (d : Dev) (key : Bytes) (t len : Nat) : Dev :=
  if !(inGroup d) || (groupLinks d).isEmpty then d
  else if floodsWaiting d ≥ 1024 then tick (tick d Ctr.flwFlood) Ctr.trlFloodDrop
  else sendAll (tick d Ctr.flwFlood) 9 (padTo 40 key ++ leBytes 8 t ++ leBytes 2 len)

end Sys2Proof.Machine.Ops
end

