-- ==== Sys2Proof/Machine/Mxt.lean ====
section
/-!
DEFINITION. Mxt.lean: the layers of the matrix tiles (R198 to R206), the recurrent turns (R212 to R215), head labels
and head refit (R221, R222), as functions of the model and exact inputs. A dyadic number is a pair (m, e): m * 2^e.
-/
namespace Sys2Proof.Machine.Mxt
open Sys2Proof.Machine.Ops

abbrev Dy := Int × Int

def dyMul (a b : Dy) : Dy := (a.1 * b.1, a.2 + b.2)
def dySum (l : List Dy) : Dy := l.foldl Fmt.dyAdd (0, 0)
def dyNum (a : Dy) : Num := Fmt.ofInt a.1 a.2
/-- `round_half_even(a * 2^k)`. -/
def rhe (a : Dy) (k : Int) : Int := Fmt.scaleInt a.1 (a.2 + k)
/-- `a < b`. -/
def dyLt (a b : Dy) : Bool := decide ((Fmt.dyAdd b (-a.1, a.2)).1 > 0)
/-- The argument of sigma and tau: clamp(round_half_even(1024 a)) (R204, R212). -/
def zArg (a : Dy) : Int := Fmt.clampInt (rhe a 10) (-16384) 16383

/-- The value of weight code `c` of output `o`, input `i`, without WEXP (R200 to R202). -/
def weightVal (l : Layer) (o i c : Nat) : Dy :=
  match l.path, l.wfmt with
  | 0, _ => (sgn 8 c, 0)
  | 1, 0 => (sgn 4 c, 0)
  | 1, _ => Fmt.toDy (Fmt.decode Fmt.fp16 ((l.books.getD o []).getD c 0))
  | 2, _ => Fmt.toDy (Fmt.decode Fmt.e4m3 c)
  | _, f =>
    let kp := 32 * cdiv (l.kA + l.kB) 32
    let x := l.scales.getD ((o * kp + i) / 32) 0
    let e : Dy := match f with
      | 0 => (sgn 8 c, -6)
      | 1 => Fmt.toDy (Fmt.decode Fmt.e2m1 c)
      | _ => (sgn 4 c, 0)
    dyMul e (1, (x : Int) - 127)

/-- The exact products of output `o` (R200, R202). -/
def products (l : Layer) (acts : List Dy) (o : Nat) : List Dy :=
  let ws := l.w.getD o []
  (List.range acts.length).map fun i => dyMul (weightVal l o i (ws.getD i 0)) (acts.getD i (0, 0))

/-- Rounds to F32; past the largest finite value it saturates (R202). -/
def toF32 (a : Dy) : Dy × Bool :=
  let c := Fmt.toFloat Fmt.f32 (decide (a.1 < 0)) a.1.natAbs a.2
  (Fmt.toDy (Fmt.decode Fmt.f32 c.code), c.sat)

/-- Consecutive groups of `g` elements. -/
def groups (g : Nat) : Nat → List Dy → List (List Dy)
  | 0, _ => []
  | n + 1, l => if l.isEmpty then [] else l.take g :: groups g n (l.drop g)

/-- The output of column `o` before activation (R202, R203) and the accumulator saturations. -/
def column (l : Layer) (acts : List Dy) (o : Nat) : Dy × Nat :=
  let ps := products l acts o
  if l.path = 3 then
    let f := (groups (32 * 2 ^ l.group) ps.length ps).foldl (fun (f : Dy × Nat) g =>
      let r := toF32 (Fmt.dyAdd f.1 (dySum g))
      (r.1, f.2 + b2n r.2)) ((0, 0), 0)
    match l.bias with
    | none => f
    | some b =>
      let r := toF32 (Fmt.dyAdd f.1 (Fmt.toDy (Fmt.decode Fmt.f32 (b.getD o 0))))
      (r.1, f.2 + b2n r.2)
  else
    let s := dySum ps
    let b : Dy := match l.bias with | none => (0, 0) | some b => (sgn 32 (b.getD o 0), l.bexp)
    (Fmt.dyAdd (s.1, s.2 + l.wexp) b, 0)

/-- Every output before activation, with the number of saturations. -/
def outputs (l : Layer) (acts : List Dy) : List Dy × Nat :=
  let cs := (List.range l.n).map (column l acts)
  (cs.map (·.1), (cs.map (·.2)).sum)

/-- ACT of R204 (SOFTMAX apart). -/
def activate (act : Nat) (v : Dy) : Dy :=
  match act with
  | 1 => if v.1 < 0 then (0, 0) else v
  | 2 => (Fmt.sigma (zArg v), -15)
  | 3 => (Fmt.tau (zArg v), -15)
  | _ => v

/-- The output with the largest value, ties to the lowest (R205). -/
def winner (vs : List Dy) : Nat :=
  ((List.range vs.length).foldl (fun (b : Nat × Option Dy) k =>
    let v := vs.getD k (0, 0)
    match b.2 with
    | none => (k, some v)
    | some x => if dyLt x v then (k, some v) else b) (0, none)).1

/-- The final layer (R205): winning class, score, every p_k, and a clamped score. -/
def final (l : Layer) (vs : List Dy) : Esp.Linked :=
  let c := winner vs
  match l.act with
  | 2 => ⟨0, some (Fmt.sigma (zArg (vs.getD 0 (0, 0)))), [], false⟩
  | 4 =>
    let zs := vs.map fun v => rhe v 10
    let es := zs.map fun z => Fmt.expE (min (zs.getD c 0 - z) 16384).toNat
    let ps := es.map fun x => Window.divHalfEven (x * 32768) es.sum
    ⟨c, some (ps.getD c 0), ps, false⟩
  | _ =>
    let s := rhe (vs.getD c (0, 0)) 15
    ⟨c, some (Fmt.clampInt s 0 65535).toNat, [], decide (s < 0 ∨ s > 65535)⟩

/-- The eight bytes per output of a head record (R220). -/
def headOut (l : Layer) (v : Dy) (ps : List Nat) (o : Nat) : Nat :=
  match l.loss with
  | 0 => uns 48 (rhe v 15)
  | 1 => uns 48 (zArg v)
  | _ => ps.getD o 0

/-- Elements of a recurrent state (R208). -/
def stateN (fmt : Nat) : Nat := if fmt = 0 then 64 else 32

/-- The code of element `j` of a stored state (R208). -/
def stateCode (fmt : Nat) (st : Bytes) (j : Nat) : Nat :=
  if fmt = 0 then byteAt st j else le st (2 * j) 2

/-- The exact value of element `j` under scale `sh` (R208). -/
def stateVal (fmt : Nat) (sh : Int) (st : Bytes) (j : Nat) : Dy :=
  let v := Fmt.toDy (Fmt.codeVal fmt (stateCode fmt st j))
  (v.1, v.2 + sh)

/-- The new state before conversion: GRU (R212) or DSSM (R213). -/
def turn (d : TurnDesc) (n : Nat) (v : List Dy) (h : Nat → Dy) : List Dy :=
  let p := fun i => d.params.getD i 0
  let u := fun i : Nat => ((sgn 16 (p i), d.uexp) : Dy)
  let g := fun i => v.getD i (0, 0)
  (List.range n).map fun j =>
    if d.form = 1 then
      let z := Fmt.sigma (zArg (Fmt.dyAdd (g j) (dyMul (u j) (h j))))
      let r := Fmt.sigma (zArg (Fmt.dyAdd (g (n + j)) (dyMul (u (n + j)) (h j))))
      let c := Fmt.tau (zArg (Fmt.dyAdd (g (2 * n + j)) (dyMul (r, -15) (dyMul (u (2 * n + j)) (h j)))))
      let s := Fmt.dyAdd (dyMul (z, 0) (h j)) (((32768 : Int) - z) * c, -15)
      (s.1, s.2 - 15)
    else Fmt.dyAdd (dyMul (p j, -16) (h j)) (g j)

/-- The bytes of a state whose element codes are given, 64 bytes (R94, R208). -/
def stateBytes (fmt : Nat) (codes : List Nat) : Bytes :=
  padTo 64 (codes.flatMap (leBytes (if fmt = 0 then 1 else 2)))

/-- `round_half_even(a * 2^k / b)`. -/
def ratio (a k : Int) (b : Nat) : Int :=
  if k ≥ 0 then Fmt.divHalfEvenInt (a * 2 ^ k.toNat) b else Fmt.divHalfEvenInt a (b * 2 ^ (-k).toNat)

/-- A refitted weight code and whether it was clamped (R222). -/
def refitWeight (l : Layer) (w gw : Int) (wsum : Nat) : Int × Bool :=
  let d := Fmt.clampInt (ratio (-((l.eta : Int) * gw)) (-63 - l.wexp) wsum) (-l.maxStep) l.maxStep
  (Fmt.clampInt (w + d) (-128) 127, decide (w + d < -128 ∨ w + d > 127))

/-- A refitted bias (R222). -/
def refitBias (l : Layer) (b gb : Int) (wsum : Nat) : Int :=
  Fmt.clampInt (b + ratio (-((l.eta : Int) * gb)) (-31 - l.bexp) wsum) (-(2 ^ 31 : Nat)) ((2 ^ 31 : Nat) - 1)

end Sys2Proof.Machine.Mxt
end

