-- ==== Sys2Proof/Machine/Infer.lean ====
section
/-!
DEFINITION. Infer.lean: tensor records and conversions (R155 to R165), and what a pass computes on the engines: the ensemble
(R177 to R182), the layers (R199 to R206), the recurrent turn (R208 to R215).
-/
namespace Sys2Proof.Machine.Ops

/-- The key of a tensor record (R159): the activation that created it, the pipe, the tensor. -/
def recKey (m : Model) (pipe t : Nat) : Nat := (m.acts.getD pipe m.loadNo * 8 + pipe) * 256 + t

/-- A new tensor record (R159). -/
def newRec (t : TensorDesc) : TensorRec :=
  { desc := t, scale := t.s0, held := false, count := 0, isat := 0, amax := none, sat := 0, nanZero := 0, flush := 0
    range := 0, sse := 0, mseCnt := 0, total := 0 }

def tensorRec (d : Dev) (m : Model) (pipe t : Nat) : TensorRec :=
  (find? d.qnt (recKey m pipe t)).getD (newRec (m.tensors.getD t default))

/-- An error in a tensor's record that cannot be corrected (R166): S0 and zero statistics in its place, and a memory fault, whose UNIT is the
pipe (log entry 144: DESIGN CHOICE). -/
def recordError (d : Dev) (m : Model) (pipe t : Nat) : Dev :=
  match find? d.qnt (recKey m pipe t) with
  | some r => fault { d with qnt := set d.qnt (recKey m pipe t) { newRec r.desc with held := r.held } } 7 7 pipe
  | none => d

/-- The effect of a fault in a tensor's record; the other faults are the caller's. -/
def recordFault (d : Dev) (m : Model) (pipe : Nat) (f : Option PassFault) : Dev :=
  match f with
  | some (.record t) => recordError d m pipe t
  | _ => d

/-- Sends a scale change to the Clasp partner (R162, R389); the order of the fields in the message is the model's
(log entry 12). -/
def mirrorScale (d : Dev) (pipe slot t : Nat) (s : Int) : Dev :=
  if mirroring d then
    sendPartner d 14 ([2] ++ leBytes 1 pipe ++ leBytes 1 slot ++ leBytes 1 t ++ leBytes 1 (uns 8 s) ++ zeros 3 ++
      leBytes 8 (now64 d))
  else d

/-- Ends the scale interval of a record that has come to its length (R161, R162). -/
def scaleEnd (d : Dev) (pipe slot t : Nat) (r : TensorRec) : Dev × TensorRec :=
  if !r.desc.adapt then (d, { r with count := 0, isat := 0, amax := none })
  else if r.count < 2 ^ r.desc.intvLog2 then (d, r)
  else
    let x := Fmt.endInterval r
    let d := match x.2 with
      | none => d
      | some high => wrs (tick d Ctr.qntScaleRange) [(Reg.qntEvtStatScaleRange, 1), (Reg.qntEvtStatPipe, pipe),
          (Reg.qntEvtStatSlot, slot), (Reg.qntEvtStatTensor, t), (Reg.qntEvtStatHigh, b2n high)]
    let d := if x.1.scale = r.scale then d else mirrorScale (tick d Ctr.qntScaleChange) pipe slot t x.1.scale
    (d, x.1)

/-- Converts a vector under a tensor (R152 to R156): the sources in order, `none` = a missing feature. Answers the vector
and whether an element saturated. -/
def convVec (d : Dev) (m : Model) (pipe slot t : Nat) (src : List (Option Num)) : Dev × TVec × Bool :=
  let r := tensorRec d m pipe t
  let z := src.foldl (fun (a : TensorRec × List Fmt.Conv) s =>
    let c := Fmt.convRec a.1 (s.getD .nan) s.isNone
    (c.1, c.2 :: a.2)) (r, [])
  let cs := z.2.reverse
  let poison := src.any fun s => match s with | none => r.desc.miss | some .nan => true | some _ => false
  let cnt := fun (f : Fmt.Conv → Bool) => (cs.filter f).length
  let d := count (count (count d Ctr.qntSatTotal (cnt (·.sat))) Ctr.qntNanZero (cnt (·.nanZero))) Ctr.qntFlush
    (cnt (·.flush))
  let d := tickIf poison d Ctr.qntPoison
  let e := scaleEnd d pipe slot t z.1
  let d := { e.1 with qnt := set e.1.qnt (recKey m pipe t) e.2 }
  let vals := cs.map fun c => let v := Fmt.toDy (Fmt.codeVal r.desc.fmt c.code); ((v.1, v.2 + r.scale) : Mxt.Dy)
  (d, ⟨vals, cs.map (·.code), r.scale, poison⟩, cs.any (·.sat))

/-- Converts a new recurrent state (R157, R168, R214): a NaN element is stored as 0 and counted. -/
def convState (d : Dev) (m : Model) (pipe t : Nat) (src : List Num) : Dev × List Nat × Bool :=
  let r := tensorRec d m pipe t
  let z := src.foldl (fun (a : TensorRec × List Fmt.Conv) s =>
    match s with
    | .nan => ({ a.1 with total := a.1.total + 1, nanZero := Fmt.sat64 (a.1.nanZero + 1) },
        { code := 0, sat := false, nanZero := true, flush := false } :: a.2)
    | v => let c := Fmt.convRec a.1 v false; (c.1, c.2 :: a.2)) (r, [])
  let cs := z.2.reverse
  let cnt := fun (f : Fmt.Conv → Bool) => (cs.filter f).length
  let d := count (count (count d Ctr.qntSatTotal (cnt (·.sat))) Ctr.qntNanZero (cnt (·.nanZero))) Ctr.qntFlush (cnt (·.flush))
  let d := tickIf (src.any (· == .nan)) d Ctr.qntPoison
  let d := { d with qnt := set d.qnt (recKey m pipe t) { z.1 with count := 0, isat := 0, amax := none } }
  (d, cs.map (·.code), cs.any (·.sat))

/-- The source value of a feature under SRC 0 to 2 (R151). -/
def featNum (src : Nat) (v : Nat) : Num :=
  match src with
  | 0 => Fmt.ofInt v 0
  | 1 => Fmt.ofInt (sgn 32 v) 0
  | _ => Fmt.decode Fmt.f32 v

/-- What the inference of a pass works on: the device, the vectors of SRC 3 made so far, saturation, events to charge. -/
structure Env where
  d : Dev
  vecs : Map TVec
  sat : Bool
  evts : List (Nat × Nat)
  deriving DecidableEq, Repr

/-- The recurrent state that layers read (R214): its codes in the format of the state tensor, and poison. -/
structure StateIn where
  bytes : Bytes
  poison : Bool
  deriving DecidableEq, Repr

/-- The format of a model's state tensor. -/
def stateFmt (m : Model) (t : TurnDesc) : Nat := (m.tensors.getD t.stateTensor default).fmt

/-- Where the view of the state that a pass has made is kept among its vectors: one conversion per pass (R214). -/
def viewKey (t : Nat) : Nat := 256 + t

/-- The input vector that one tensor of a layer gives (R199, R214). -/
def inputVec (e : Env) (m : Model) (pipe slot : Nat) (fs : Map Nat) (st : StateIn) (t : Nat) (feats : List Nat) :
    Env × TVec :=
  let desc := m.tensors.getD t default
  let n := Mxt.stateN
  if desc.state then
    let k := n desc.fmt
    (e, ⟨tab k (Mxt.stateVal desc.fmt desc.s0 st.bytes), tab k (Mxt.stateCode desc.fmt st.bytes), desc.s0, st.poison⟩)
  else match m.turn.filter fun x => x.viewTensor == t with
    | some x =>
      let sd := m.tensors.getD x.stateTensor default
      match find? e.vecs (viewKey t) with
      | some v => (e, v)
      | none =>
        let src := tab (n sd.fmt) fun j =>
          if st.poison then some Num.nan else some (Mxt.dyNum (Mxt.stateVal sd.fmt sd.s0 st.bytes j))
        let c := convVec e.d m pipe slot t src
        ({ d := c.1, sat := e.sat || c.2.2, evts := (9, cdiv src.length 64) :: e.evts
           vecs := set e.vecs (viewKey t) c.2.1 }, c.2.1)
    | none =>
      if desc.src = 3 then (e, getD e.vecs t default)
      else
        let src := feats.map fun i => (find? fs i).map (featNum desc.src)
        let c := convVec e.d m pipe slot t src
        ({ e with d := c.1, sat := e.sat || c.2.2, evts := (9, cdiv src.length 64) :: e.evts }, c.2.1)

/-- The whole input of a layer: IN_A, then IN_B. -/
def layerIn (e : Env) (m : Model) (pipe slot : Nat) (fs : Map Nat) (st : StateIn) (l : Layer) : Env × TVec :=
  let a := inputVec e m pipe slot fs st l.inA l.featA
  if l.inB = 0xFF then a
  else
    let b := inputVec a.1 m pipe slot fs st l.inB l.featB
    (b.1, ⟨a.2.vals ++ b.2.vals, a.2.codes ++ b.2.codes, a.2.scale, a.2.poison || b.2.poison⟩)

/-- Steps of a layer (R197), with the event that each is (R438). -/
def layerSteps (l : Layer) : Nat × Nat :=
  let k := l.kA + l.kB
  (if l.path = 1 then 13 else 12, cdiv k (if l.path = 1 then 128 else 64) * cdiv l.n 64)

/-- The outputs of a layer (R203), with the ACC_SAT of the MX path (R202). -/
def layerOut (e : Env) (l : Layer) (x : TVec) : Env × List Mxt.Dy :=
  let o := Mxt.outputs l x.vals
  let s := layerSteps l
  let d := count (count e.d Ctr.mxtAccSat o.2) Ctr.mxtStepIssue s.2
  ({ e with d, sat := e.sat || decide (o.2 > 0), evts := s :: e.evts }, o.1)

/-- The result of a slot's source: a class and score, a NaN, or nothing. -/
structure Outcome where
  res : PassRes
  ps : List Nat
  head : Option Bytes
  deriving DecidableEq, Repr

/-- Bytes 24 onward of a head record (R220). -/
def headBody (l : Layer) (x : TVec) (vs : List Mxt.Dy) (ps : List Nat) : Bytes :=
  let k := l.kA + l.kB
  leBytes 1 (uns 8 x.scale) ++ leBytes 1 l.n ++ leBytes 2 k ++ zeros 36 ++
  padTo (8 * cdiv k 8) (x.codes.map fun c => BitVec.ofNat 8 c) ++
  ((List.range l.n).flatMap fun o => leBytes 8 (Mxt.headOut l (vs.getD o (0, 0)) ps o))

/-- Runs one dense layer (R199 to R206). -/
def runLayer (e : Env) (m : Model) (pipe slot : Nat) (fs : Map Nat) (st : StateIn) (l : Layer) (o : Outcome) :
    Env × Outcome :=
  let i := layerIn e m pipe slot fs st l
  if l.final then
    -- its steps are issued all the same (R12, R156, R225)
    if i.2.poison then
      ({ i.1 with d := count i.1.d Ctr.mxtStepIssue (layerSteps l).2, evts := layerSteps l :: i.1.evts }, { res := .nan, ps := [], head := none })
    else
      let r := layerOut i.1 l i.2
      let f := Mxt.final l r.2
      let e := { r.1 with d := tickIf f.sat r.1.d Ctr.mxtIdentSat, sat := r.1.sat || f.sat }
      (e, { res := .score f.cls (f.score.getD 0), ps := f.ps
            head := if l.headRefit then some (headBody l i.2 r.2 f.ps) else none })
  else
    let r := layerOut i.1 l i.2
    let src := r.2.map fun v => if i.2.poison then some Num.nan else some (Mxt.dyNum (Mxt.activate l.act v))
    let c := convVec r.1.d m pipe slot l.out src
    ({ r.1 with d := c.1, sat := r.1.sat || c.2.2, vecs := set r.1.vecs l.out c.2.1
                evts := (9, cdiv l.n 64) :: r.1.evts }, o)

/-- The nodes that a walk fetches through the paging port: those past the resident ones (R182), and every node of a flow ensemble (R184). -/
def pagedReads (flow : Bool) (t : Tree) (fs : Map Nat) : Nat → Nat → List Nat
  | 0, _ => []
  | fuel + 1, i =>
    let w := t.nodes.getD i 0
    (if flow || decide (t.resNodes ≤ i) then [i] else []) ++
      (if Esp.leaf w then [] else
        pagedReads flow t fs fuel (if Esp.goesLeft w (find? fs (Esp.feat w)) then Esp.left w else Esp.right w))

/-- What a pass has computed so far: the working set, whether a node check failed (R177), margins and leaves of the
ensemble, the score of its link, the final layer's result. -/
structure Work where
  e : Env
  broken : Bool
  margins : List Int
  leaves : List Nat
  link : PassRes
  out : Outcome
  deriving DecidableEq, Repr

/-- The ensemble's part of a pass (R177 to R181): its margins, with the partial margins carried from another member added
(R378), their conversion into RESULT_TENSOR, and the link, but for margins that are a `part` of a deepened slot's (R379). -/
def runEnsemble (w : Work) (m : Model) (pipe slot : Nat) (e : Ensemble) (fs : Map Nat) (carried : List Int) (part : Bool) :
    Work :=
  match Esp.leaves e fs with
  | none => { w with broken := true, e := { w.e with d := tick w.e.d Ctr.espNodeCheck } }
  | some ls =>
    let ms := Esp.margins e ls
    let ms := tab ms.length fun k => ms.getD k 0 + carried.getD k 0
    let pg := (e.trees.map fun t => (pagedReads e.flow t fs (t.depth + 1) 0).length).sum
    let k := if part then ⟨0, none, [], false⟩ else Esp.link e ms
    let d := count (count w.e.d Ctr.espTreeEval e.trees.length) Ctr.espPageFetch pg
    let env := { w.e with d := tickIf k.sat d Ctr.espIdentSat, sat := w.e.sat || k.sat
                          evts := (10, e.trees.length) :: (11, pg) :: w.e.evts }
    let env := if e.resultTensor = 0xFF then env
      else
        let c := convVec env.d m pipe slot e.resultTensor (ms.map fun a => some (Fmt.ofInt a e.leafExp))
        { d := c.1, vecs := set env.vecs e.resultTensor c.2.1, sat := env.sat || c.2.2
          evts := (9, cdiv e.k 64) :: env.evts }
    { w with e := env, margins := ms, leaves := ls
             link := match k.score with | some s => .score k.cls s | none => .none }

/-- The layers that a pass runs, by number; none where the last layer is 0xFF (R245). -/
def passLayers (ps : PassSec) : List Nat :=
  if ps.last = 0xFF then [] else (List.range (ps.last + 1 - ps.first)).map (ps.first + ·)

/-- Runs dense layers in list order. -/
def runLayers (w : Work) (m : Model) (pipe slot : Nat) (fs : Map Nat) (st : StateIn) (idx : List Nat) : Work :=
  let r := idx.foldl (fun (a : Env × Outcome) i =>
    let l := m.layers.getD i default
    if l.type ≠ 0 then a else runLayer a.1 m pipe slot fs st l a.2) (w.e, w.out)
  { w with e := r.1, out := r.2 }

/-- The number of the XPART layer of a model. -/
def xpartIdx (m : Model) : Option Nat := firstIdx (fun l => l.type != 0) m.layers

/-- The start of a pass's inference: its ensemble, and its dense layers before the XPART layer, or all of them where the
pass runs no turn. `vecs` holds the vectors of earlier passes, which travel with the context. -/
def passStart (d : Dev) (m : Model) (pipe slot : Nat) (ps : PassSec) (fs : Map Nat) (st : StateIn) (carried : List Int)
    (part : Bool) (vecs : Map TVec) : Work :=
  let w : Work := { e := { d, vecs := vecs.filter fun v => decide (v.1 < 256), sat := false, evts := [] }, broken := false
                    margins := [], leaves := [], link := .none, out := ⟨.none, [], none⟩ }
  let w := match m.ens with
    | some e => if ps.ens then runEnsemble w m pipe slot e fs carried part else w
    | none => w
  if w.broken then w else
  let before := match xpartIdx m with
    | some j => if ps.turn then (passLayers ps).filter (· < j) else passLayers ps
    | none => passLayers ps
  runLayers w m pipe slot fs st before

/-- The rest of a pass that runs a turn: the dense layers after the XPART layer. -/
def passRest (w : Work) (m : Model) (pipe slot : Nat) (ps : PassSec) (fs : Map Nat) (st : StateIn) : Work :=
  match xpartIdx m with
  | some j => if ps.turn then runLayers w m pipe slot fs st ((passLayers ps).filter (j < ·)) else w
  | none => w

/-- Work on engine cycles that no schedule reserves (R184, R195): its trees count in BG_EVAL, and TREE_EVAL and STEP_ISSUE count scheduled work
alone. -/
def unscheduled (d₀ d : Dev) : Dev :=
  let n := ctr d Ctr.espTreeEval - ctr d₀ Ctr.espTreeEval
  count (setCtr (setCtr d Ctr.espTreeEval (ctr d₀ Ctr.espTreeEval)) Ctr.mxtStepIssue (ctr d₀ Ctr.mxtStepIssue)) Ctr.espBgEval n

/-- The result of a pass from SCORE_SRC (R245): the ensemble link or the final layer. -/
def passRes (m : Model) (w : Work) : PassRes := if m.slotSec.scoreSrc = 0 then w.link else w.out.res

/-- A recurrent turn from the work so far, the features and the old state (R211 to R215): the work, the new state's bytes,
poison. -/
def runTurn (w : Work) (m : Model) (t : TurnDesc) (pipe slot : Nat) (fs : Map Nat) (old : Bytes) : Work × Bytes × Bool :=
  match (xpartIdx m).map fun j => m.layers.getD j default with
  | none => (w, old, false)
  | some l =>
    let i := layerIn w.e m pipe slot fs ⟨old, false⟩ l
    let r := layerOut i.1 l i.2
    let sd := m.tensors.getD t.stateTensor default
    let n := Mxt.stateN sd.fmt
    let hn := Mxt.turn t n r.2 (Mxt.stateVal sd.fmt sd.s0 old)
    let src := hn.map fun v => if i.2.poison then Num.nan else Mxt.dyNum v
    let c := convState r.1.d m pipe t.stateTensor src
    let d := tickIf i.2.poison (tick c.1 Ctr.mxtTurn) Ctr.mxtTurnNan
    ({ w with e := { r.1 with d, sat := r.1.sat || c.2.2, evts := (14, 1) :: r.1.evts } },
      padTo 64 (Mxt.stateBytes sd.fmt c.2.1), i.2.poison)

end Sys2Proof.Machine.Ops
end

