-- ==== Sys2Proof/Machine/Labels.lean ====
section
/-!
DEFINITION. Labels.lean: leaf-path and head records (R187, R188, R220), label intake (R261, R262), the application of a
label (R189, R190, R221), and the accumulator banks (R191).
-/
namespace Sys2Proof.Machine
namespace Ops

/-- Horizon of a record in ns (R188). -/
def lpsHorizon (d : Dev) : Nat := rd d Reg.espLpsCfgHorizon * 1000000

/-- Outstanding records, and whether the store holds the bytes `[a, a + n)` free. -/
def lpsOutstanding (d : Dev) : Nat :=
  (d.leafRecs.filter fun r => !r.used).length + (d.headRecs.filter fun r => !r.used).length

/-- Extents of the outstanding records. -/
def lpsUsed (d : Dev) : List (Nat × Nat) :=
  (d.leafRecs.filter fun r => !r.used).map (fun r => (r.addr, r.size)) ++
  (d.headRecs.filter fun r => !r.used).map fun r => (r.addr, r.size)

/-- First-fit allocation among extents in `[base, base + size)`: the lowest address at which `n` bytes are free; candidates
are the base and the ends of the extents (log entry 13). -/
def firstFit (base size n : Nat) (ext : List (Nat × Nat)) : Option Nat :=
  let cand := base :: ext.map fun e => e.1 + e.2
  let ok := cand.filter fun a => decide (base ≤ a ∧ a + n ≤ base + size) && ext.all fun e => decide (a + n ≤ e.1 ∨ e.1 + e.2 ≤ a)
  match ok with
  | [] => none
  | a :: r => some (r.foldl min a)

/-- Room for a record of `n` bytes in the leaf-path store (R188); none while the HBM domain is not ON (R426). -/
def lpsAlloc (d : Dev) (n : Nat) : Option Nat :=
  if lpsOutstanding d ≥ 2097152 ∨ !hbmUp d then none
  else firstFit (region d 10).1 (region d 10).2 n (lpsUsed d)

/-- Bytes 0 to 23 that both kinds of record share (R187, R220). -/
def recHead (evT flow tag src slot epoch tenant pass structId : Nat) : Bytes :=
  leBytes 8 evT ++ leBytes 4 flow ++ leBytes 3 tag ++ leBytes 1 src ++ leBytes 1 slot ++ leBytes 1 epoch ++
  leBytes 1 tenant ++ leBytes 1 pass ++ leBytes 4 structId

/-- Writes a leaf-path record, or counts it in LPS_FULL (R187, R188). For K > 5 the record has room for the margins that the table places after
the leaf indices (log entry 146). -/
def writeLeaf (d : Dev) (r : LeafRec) : Dev :=
  let n := 64 * cdiv (64 + 2 * r.leaves.length + 6 * (r.margins.length - 5)) 64
  match lpsAlloc d n with
  | none => wr (tick d Ctr.espLpsFull) Reg.espLpsStatFull 1
  | some a =>
    let m := fun (l : List Int) => l.flatMap fun x => leBytes 6 (uns 48 x)
    let b := padTo 64 (recHead r.evT r.flow r.tag r.src r.slot r.epoch r.tenant r.pass r.structId ++ m (r.margins.take 5)) ++
      (r.leaves.flatMap fun x => leBytes 2 x) ++ m (r.margins.drop 5)
    let d := memWrite (tick d Ctr.espLpsWrite) a (padTo n b)
    { d with leafRecs := d.leafRecs ++ [{ r with addr := a, size := n, used := false }] }

/-- Writes a head record (R220). -/
def writeHead (d : Dev) (r : HeadRec) : Dev :=
  let b := recHead r.evT r.flow r.tag r.src r.slot r.epoch r.tenant r.pass r.structId ++ r.body
  let n := 64 * cdiv b.length 64
  match lpsAlloc d n with
  | none => wr (tick d Ctr.mxtHeadRecFull) Reg.espLpsStatFull 1
  | some a =>
    let d := memWrite (tick d Ctr.mxtHeadRec) a (padTo n b)
    { d with headRecs := d.headRecs ++ [{ r with addr := a, size := n, used := false }] }

/-- A label (R261) names the record of a pass: TARGET 1 a head record, else a leaf-path record. -/
def labelNames (raw : Bytes) (head : Bool) (evT tag src slot pass : Nat) : Bool :=
  bit (le raw 9 1) 2 == head &&
  decide (evT = le raw 0 8 ∧ tag = le raw 12 3 ∧ src = le raw 10 1 ∧ slot = le raw 8 1 ∧ pass = le raw 9 1 % 4)

/-- A label that was taken in before the record's expiry still waits for it (R189). -/
def labelWaits (d : Dev) (head : Bool) (evT tag src slot pass : Nat) : Bool :=
  d.labels.any fun l => labelNames l.raw head evT tag src slot pass && decide (l.t < evT + lpsHorizon d)

/-- Records whose horizon has come expire (R188). One that a label in the queue has reached in time waits for it (R189). -/
def expireRecords (d : Dev) : Dev :=
  let live := fun (t : Nat) => decide (now d < t + lpsHorizon d)
  let leaf := d.leafRecs.partition fun r => live r.evT || (!r.used && labelWaits d false r.evT r.tag r.src r.slot r.pass)
  let head := d.headRecs.partition fun r => live r.evT || (!r.used && labelWaits d true r.evT r.tag r.src r.slot r.pass)
  count { d with leafRecs := leaf.1, headRecs := head.1 } Ctr.espLpsExpire
    ((leaf.2.filter (!·.used)).length + (head.2.filter (!·.used)).length)

/-- The reserved bytes of a label are zero (R261). -/
def labelZeros (raw : Bytes) : Bool :=
  bits (le raw 9 1) 3 5 == 0 && le raw 11 1 == 0 && bits (le raw 12 3) 18 6 == 0 && le raw 15 1 == 0 && le raw 18 2 == 0 &&
  le raw 24 8 == 0

/-- Queues an accepted label, or drops it (R189). -/
def queueLabel (d : Dev) (l : Label) : Dev :=
  if d.labels.length ≥ 65536 then tick d Ctr.espLabelDrop else { d with labels := d.labels ++ [l] }

/-- A label arrives (R261, R262); one accepted from a ring is forwarded to the group (R384). -/
def labelIntake (d : Dev) (src : LabelSrc) (raw : Bytes) : Dev :=
  match src with
  | .member => queueLabel d { tenant := 0, fwd := true, raw, t := now d }
  | .ring t =>
    let slot := le raw 8 1
    if raw.length ≠ 32 ∨ !labelZeros raw ∨ !ownsSlot d t slot ∨ !rdB d (Reg.cfgTenantMdlLabelEn t) then
      tick d Ctr.cfgLabelRej
    else
      let d := queueLabel d { tenant := t, fwd := false, raw, t := now d }
      -- a group graft makes a slot ACTIVE in every member alike (log entry 137)
      if inGroup d && !(groupLinks d).isEmpty && getD (curCfg d).active slot 0 != 0 then sendAll (tick d Ctr.trlLabelFwd) 10 raw else d

/-- The banks of a slot's ensemble (part 0) or head layer (part 1). -/
def bank? (d : Dev) (slot part : Nat) : Option Bank := find? d.banks (2 * slot + part)

/-- The address of bank 0 or 1. -/
def bankAddr (b : Bank) (hi : Bool) : Nat := if hi then b.base + b.size else b.base

/-- Clips to a signed or an unsigned range of `w` bits (R190, R221). -/
def clipS (w : Nat) (x : Int) : Int := Fmt.clampInt x (-(2 ^ (w - 1) : Nat)) ((2 ^ (w - 1) : Nat) - 1)
def clipU (w x : Nat) : Nat := min x (2 ^ w - 1)

/-- Adds one label's sums to a leaf accumulator at `a` (R190). -/
def addLeaf (d : Dev) (a : Nat) (g : Int) (h : Nat) : Dev :=
  let d := memUpdate d a 8 fun x => uns 64 (clipS 64 (sgn 64 x + g))
  let d := memUpdate d (a + 8) 8 fun x => clipU 64 (x + h)
  memUpdate d (a + 16) 4 fun x => clipU 32 (x + 1)

/-- Node-array position of the first node of each tree (R191). -/
def treeStarts (e : Ensemble) : List Nat := e.trees.map (·.start)

/-- Counts one more label in the header of a bank. -/
def bumpLabels (d : Dev) (a : Nat) : Dev := memUpdate d (a + 8) 8 (· + 1)

/-- Applies a label to the leaf accumulators of an active bank (R190). -/
def applyLeaf (d : Dev) (e : Ensemble) (a : Nat) (r : LeafRec) (w : Nat) (gh : List (Int × Nat)) : Dev :=
  let ts := e.trees.zip ((treeStarts e).zip r.leaves)
  bumpLabels (each ts d fun d t =>
    let x := gh.getD t.1.cls (0, 0)
    addLeaf d (a + 64 + 24 * (t.2.1 + t.2.2)) (x.1 * w) (x.2 * w)) a

/-- The gradients of a head label (R221); `none` = a class number out of range. -/
def headGrads (l : Layer) (body : Bytes) (y : Nat) : Option (List Int) :=
  let n := le body 1 1
  let off := 40 + 8 * cdiv (le body 2 2) 8
  let v := fun o => le body (off + 8 * o) 6
  match l.loss with
  | 0 => some (tab n fun o => sgn 48 (v o) - sgn 32 y)
  | 1 => some (tab n fun o => (Fmt.sigma (sgn 48 (v o)) : Int) - y)
  | _ => if n ≤ y then none else some (tab n fun o => (v o : Int) - (if o = y then 32768 else 0))

/-- Applies a label to the sums of a head bank (R221). -/
def applyHead (d : Dev) (l : Layer) (a : Nat) (body : Bytes) (w : Nat) (gs : List Int) : Dev :=
  let k := l.kA + l.kB
  let sIn := sgn 8 (le body 0 1)
  let act := fun i => sgn 8 (byteAt body (40 + i))
  let d := each (List.range l.n) d fun d o => each (List.range k) d fun d i =>
    let p := a + 64 + 16 * (o * k + i)
    let x := (w : Int) * gs.getD o 0 * act i
    let e := sIn + 32
    let x := if e ≥ 0 then x * 2 ^ e.toNat else x / 2 ^ (-e).toNat
    memUpdate d p 16 fun y => uns 128 (clipS 128 (sgn 128 y + x))
  let d := each (List.range l.n) d fun d o =>
    let p := a + 64 + 16 * (l.n * k) + 8 * o
    memUpdate d p 8 fun y => uns 64 (clipS 64 (sgn 64 y + w * gs.getD o 0))
  let d := memUpdate d (a + 16) 8 fun y => clipU 64 (y + w)
  let d := memUpdate d (a + 24) 4 fun y => clipU 32 (y + 1)
  bumpLabels d a

/-- A label that names no live record is counted, a forwarded one only in LABEL_FWD_MISS (R384). -/
def labelMiss (d : Dev) (l : Label) (c : Nat) : Dev := if l.fwd then tick d Ctr.trlLabelFwdMiss else tick d c

/-- The address of the active bank of a slot, where it has banks. -/
def activeBank (d : Dev) (slot part : Nat) : Option Nat := (bank? d slot part).map fun b => bankAddr b b.active

/-- Applies the first label of the queue (R189, R190, R221). -/
def labelApply (d : Dev) : Dev :=
  match d.labels with
  | [] => d
  | l :: rest =>
    let d := { d with labels := rest }
    let raw := l.raw
    let slot := le raw 8 1
    let w := le raw 16 2
    let y := le raw 20 4
    let tgt := bit (le raw 9 1) 2
    let same := labelNames raw tgt
    let m := find? (curCfg d).models slot
    if !tgt then
      match firstIdx (fun r => same r.evT r.tag r.src r.slot r.pass) d.leafRecs with
      | none => labelMiss d l Ctr.espLabelMiss
      | some i =>
        let r := d.leafRecs.getD i default
        if r.evT + lpsHorizon d ≤ l.t then labelMiss d l Ctr.espLabelMiss
        else if r.used then tick d Ctr.espLabelDup
        else match m.bind (·.ens), activeBank d slot 0 with
          | some e, some a =>
            if e.structId ≠ r.structId then tick d Ctr.espLabelStale
            else
              let d := { d with leafRecs := d.leafRecs.set i { r with used := true } }
              match Esp.gradHess e r.margins (if e.loss = 0 then sgn 32 y else y) with
              | none => tick d Ctr.espLabelMiss
              | some gh => tick (applyLeaf d e a r w gh) Ctr.espLabelApply
          | some e, none => if e.structId ≠ r.structId then tick d Ctr.espLabelStale
              else { d with leafRecs := d.leafRecs.set i { r with used := true } }
          | none, _ => tick d Ctr.espLabelStale
    else
      match firstIdx (fun r => same r.evT r.tag r.src r.slot r.pass) d.headRecs with
      | none => labelMiss d l Ctr.mxtHeadLabelMiss
      | some i =>
        let r := d.headRecs.getD i default
        if r.evT + lpsHorizon d ≤ l.t then labelMiss d l Ctr.mxtHeadLabelMiss
        else if r.used then tick d Ctr.mxtHeadLabelDup
        else match m, (m.bind fun m => m.layers.find? (·.headRefit)), activeBank d slot 1 with
          | some m, some h, some a =>
            if m.structId ≠ r.structId then tick d Ctr.mxtHeadLabelStale
            else
              let d := { d with headRecs := d.headRecs.set i { r with used := true } }
              match headGrads h r.body y with
              | none => tick d Ctr.mxtHeadLabelMiss
              | some gs => tick (applyHead d h a r.body w gs) Ctr.mxtHeadLabelApply
          | _, _, _ => tick d Ctr.mxtHeadLabelStale

/-- The model part that a bank of a slot accumulates for: STRUCT_ID and the placement in use; `none` = no refit there. -/
def refitPart (d : Dev) (slot part : Nat) : Option (Nat × Bool) :=
  (find? (curCfg d).models slot).bind fun m =>
    if part = 0 then m.ens.bind fun e => if e.refitEn then some (e.structId, m.placeEns) else none
    else if m.layers.any (·.headRefit) then some (m.structId, m.placeHead) else none

/-- Exchanges the banks of a slot (R191): the bank that freezes gets its header, the new active one starts from zero. -/
def swapBanks (d : Dev) (slot part : Nat) : Dev :=
  match bank? d slot part, refitPart d slot part with
  | some b, some (sid, pl) =>
    let a := bankAddr b b.active
    let d := memWrite d a (leBytes 4 sid ++ leBytes 1 (b2n pl) ++ leBytes 1 (curNum d))
    let d := memClear d (bankAddr b (!b.active)) b.size
    { d with banks := set d.banks (2 * slot + part) { b with active := !b.active } }
  | _, _ => d

/-- Zeroes the frozen bank of a slot (R191). -/
def clearFrozen (d : Dev) (slot part : Nat) : Dev :=
  match bank? d slot part with
  | some b => memClear d (bankAddr b (!b.active)) b.size
  | none => d

/-- The address of a slot's frozen bank. -/
def frozenAddr (d : Dev) (slot part : Nat) : Nat :=
  match bank? d slot part with | some b => bankAddr b (!b.active) | none => 0

/-- The status fields of the bank registers: BUSY, REJ, BANK, address (`ESP_REFIT_*`, `MXT_HRF_*`); each function has its
own copy (R504). -/
def bankReg (part fn : Nat) : Fld × Fld × Fld × Fld × Fld :=
  if part = 0 then (portF fn Reg.espRefitStatBusy, portF fn Reg.espRefitStatRej, portF fn Reg.espRefitStatBank,
      portF fn Reg.espRefitAccLoAddr, portF fn Reg.espRefitAccHiAddr)
  else (portF fn Reg.mxtHrfStatBusy, portF fn Reg.mxtHrfStatRej, portF fn Reg.mxtHrfStatBank,
      portF fn Reg.mxtHrfAccLoAddr, portF fn Reg.mxtHrfAccHiAddr)

/-- A SWAP or CLEAR through the register (R191, R221, R264). -/
def bankCmd (d : Dev) (fn slot part : Nat) (swap clear : Bool) : Dev :=
  let r := bankReg part (copyNo fn)
  if rdB d r.1 ∨ (!swap ∧ !clear) then d
  else if (refitPart d slot part).isNone ∨ !ownsSlot d fn slot ∨ polOn d slot then wr d r.2.1 1
  else
    let d := if swap then
        let d := swapBanks d slot part
        wr64 d r.2.2.2.1 r.2.2.2.2 (frozenAddr d slot part)
      else d
    let d := if clear then clearFrozen d slot part else d
    wrs d [(r.1, 1), (r.2.2.1, b2n (match bank? d slot part with | some b => b.active | none => false))]

/-- A SWAP or CLEAR completes: BUSY clears in every function's copy (R191). -/
def bankDone (d : Dev) (part : Nat) : Dev := each (List.range 65) d fun d fn => wr d (bankReg part fn).1 0

end Ops

/-- LABEL_INTAKE (R261, R262). -/
def execLabelIntake (src : LabelSrc) (raw : Bytes) (s : State) : Host.Outcome State Fault Refusal :=
  Ops.run s fun d => Ops.labelIntake d src raw
/-- LABEL_APPLY (R189, R190, R221). -/
def execLabelApply (s : State) : Host.Outcome State Fault Refusal := Ops.run s Ops.labelApply
/-- LEAF_PATH_EXPIRE (R188). -/
def execLeafPathExpire (s : State) : Host.Outcome State Fault Refusal := Ops.run s Ops.expireRecords
/-- ESP_REFIT_SWAP (R191). -/
def execEspRefitSwap (fn : Fn) (slot : Slot) (s : State) : Host.Outcome State Fault Refusal :=
  Ops.run s fun d => Ops.access d fn.val 0x00A00200 true fun d => Ops.bankCmd d fn slot 0 true false
/-- ESP_REFIT_CLEAR (R191). -/
def execEspRefitClear (fn : Fn) (slot : Slot) (s : State) : Host.Outcome State Fault Refusal :=
  Ops.run s fun d => Ops.access d fn.val 0x00A00200 true fun d => Ops.bankCmd d fn slot 0 false true
/-- ESP_REFIT_DONE (R191). -/
def execEspRefitDone (s : State) : Host.Outcome State Fault Refusal := Ops.run s fun d => Ops.bankDone d 0
/-- HRF_SWAP (R221). -/
def execHrfSwap (fn : Fn) (slot : Slot) (s : State) : Host.Outcome State Fault Refusal :=
  Ops.run s fun d => Ops.access d fn.val 0x00B00200 true fun d => Ops.bankCmd d fn slot 1 true false
/-- HRF_CLEAR (R221). -/
def execHrfClear (fn : Fn) (slot : Slot) (s : State) : Host.Outcome State Fault Refusal :=
  Ops.run s fun d => Ops.access d fn.val 0x00B00200 true fun d => Ops.bankCmd d fn slot 1 false true
/-- HRF_DONE (R221). -/
def execHrfDone (s : State) : Host.Outcome State Fault Refusal := Ops.run s fun d => Ops.bankDone d 1
/-- LABEL_FORWARD_RECEIVE (R384). -/
def execLabelForwardReceive (raw : Bytes) (s : State) : Host.Outcome State Fault Refusal :=
  Ops.run s fun d => if Ops.inGroup d then Ops.labelIntake d .member raw else d

end Sys2Proof.Machine
end

