-- ==== Sys2Proof/Machine/Parse.lean ====
section
/-!
DEFINITION. Parse.lean: the parse graph walk (R68 to R80), the classification key (R81), the governing rule (R82, R83)
and the fields of a rule result (R84).
-/
namespace Sys2Proof.Machine.Parse
open Sys2Proof.Machine.Ops

/-- A bit field in wire order: `w` bits at offset `b` from the most significant bit of byte `off` (R69).
`fr` is the frame as one big-endian number of `n` bytes. -/
def wire (fr : Bytes) (off b w : Nat) : Nat :=
  let first := off + b / 8
  let last := off + (b + w + 7) / 8
  let x := beNat (slice fr first (last - first))
  bits x (8 * (last - first) - b % 8 - w) w

/-- What the parser knows of the frame while it walks: the bytes, the length, and whether the length is known
(L at most 512, or a Stem block) (R73). -/
structure Ctx where
  fr : Bytes
  len : Nat
  /-- A frame longer than 512 bytes whose length is not yet known. -/
  long : Bool
  inline : Bool
  deriving DecidableEq, Repr

/-- R74 step 3's test of an end offset. -/
inductive EndTest where
  | ok | beyond | trunc
  deriving DecidableEq, Repr

def endTest (c : Ctx) (e : Nat) : EndTest :=
  if c.long then (if e > 512 then .trunc else .ok) else if e > c.len then .beyond else .ok

/-- The ones'-complement sum of the 16-bit words of `[off, e)` (class 12). -/
def onesSum (fr : Bytes) (off e : Nat) : Nat :=
  let s := slice fr off (e - off)
  let s := if s.length % 2 = 1 then s ++ [0] else s
  let t := (tab (s.length / 2) (fun i => beNat (slice s (2 * i) 2))).sum
  if t = 0 then 0 else (let r := t % 65535; if r = 0 then 65535 else r)

/-- The option walk over `[p, e)` (R78): the first failing class, 7, 8 or 9. -/
def optWalk (fr : Bytes) (n : PNode) (e : Nat) : Nat → Nat → Option Nat
  | 0, _ => none
  | fuel + 1, p =>
    if p ≥ e then none else
    let k := byteAt fr p
    if k ≤ 7 ∧ bit n.optSingle k then optWalk fr n e fuel (p + 1)
    else if p + 1 ≥ e then some 9
    else
      let ln := byteAt fr (p + 1)
      if n.optIncl ∧ ln = 0 then some 7
      else if n.optIncl ∧ ln = 1 then some 8
      else
        let q := p + (if n.optIncl then ln else ln + 2)
        if q > e then some 9 else optWalk fr n e fuel q

/-- The first valid edge that matches the selector (R71). -/
def winEdge (g : Graph) (n : PNode) (sel : Nat) : Option PEdge :=
  ((g.edges.drop n.edgeBase).take n.edgeCount).find? fun e =>
    e.valid && ((sel &&& e.mask) == (e.value &&& e.mask))

/-- Runs the extraction entries of a header at `off` (R72). -/
def extract (c : Ctx) (off : Nat) (fb : Map Nat) (xs : List PExt) : Map Nat :=
  xs.foldl (fun fb x =>
    let w := if x.width = 0 then 32 else x.width
    let lastByte := off + (x.bitOff + w - 1) / 8
    if lastByte ≥ 512 ∨ lastByte ≥ c.len ∨ (x.firstOnly ∧ (find? fb x.dest).isSome) then fb
    else set fb x.dest (wire c.fr off x.bitOff w)) fb

/-- A failing class, a check to be deferred, or neither, for each check of the table (R77, R79). -/
structure Check where
  fail : Option Nat := none
  defer : Option Defer := none
  deriving DecidableEq, Repr

def failIf (cls : Nat) (b : Bool) : Check := { fail := if b then some cls else none }

/-- A comparison with L: evaluated when L is known; otherwise only deferred (R79). -/
def withLen (c : Ctx) (cls : Nat) (bad : Bool) (d : Defer) : Check :=
  if c.long then { defer := some d } else failIf cls bad

/-- The checks of classes 1 to 9 and 11 to 14 that apply to a node, in class order (R74 step 5, R77). -/
def checks (g : Graph) (c : Ctx) (n : PNode) (off hl e : Nat) (encl : Option Nat) : List Check :=
  let hlv := wire c.fr off n.hlenOff n.hlenWidth
  let tot := wire c.fr off n.totOff n.totWidth
  let hasTot := decide (n.totWidth ≠ 0)
  let d := if hasTot then (if n.totKind then off + n.fixedLen + tot else off + tot) else e
  let sel := wire c.fr off n.selOff n.selWidth
  let opt := if n.optEn then optWalk c.fr n e (e + 1) (off + n.optStart) else none
  [ failIf 1 (decide (n.hlenWidth ≠ 0) && decide (hl < n.fixedLen)),
    (if hasTot then withLen c 2 (decide (d > c.len)) (.below 2 d) else {}),
    failIf 3 (hasTot && !n.totKind && decide (tot < hl)),
    (if n.exact then
      match encl with
      | some b => failIf 4 (decide (d < b) && !(decide (b = c.len) && !c.long && decide (c.len = 60) && c.inline))
      | none =>
        if c.long then { defer := some (.short d) }
        else failIf 4 (decide (d < c.len) && !(decide (c.len = 60) && c.inline))
     else {}),
    failIf 5 (hasTot && (match encl with | some b => decide (d > b) | none => false)),
    failIf 6 (n.allOnesBad &&
      ((decide (n.hlenWidth ≠ 0) && decide (hlv + 1 = 2 ^ n.hlenWidth)) ||
       (hasTot && decide (tot + 1 = 2 ^ n.totWidth)))),
    failIf 7 (opt == some 7), failIf 8 (opt == some 8), failIf 9 (opt == some 9),
    failIf 11 (n.verEn && decide (wire c.fr off 0 4 ≠ n.verValue)),
    failIf 12 (n.csum && decide (onesSum c.fr off e ≠ 0xFFFF)),
    failIf 13 (n.strict && decide (n.selWidth ≠ 0) && (winEdge g n sel).isNone),
    (if n.lt8023 then
      if 1501 ≤ sel ∧ sel ≤ 1535 then failIf 14 true
      else if sel ≤ 1500 then withLen c 14 (decide (e + sel > c.len)) (.below 14 (e + sel))
      else {}
     else {}) ]

/-- The lowest-numbered failing class. -/
def firstFail (cs : List Check) : Option Nat := (cs.filterMap (·.fail)).head?

/-- The walk of R74: at node `node` with the header at `off`; `visits` counts earlier visits per node. -/
def walk (g : Graph) (c : Ctx) : Nat → Nat → Nat → Option Nat → Map Nat → ParseRec → ParseRec
  | 0, _, _, _, _, r => r
  | fuel + 1, node, off, encl, visits, r =>
    if r.stack.length ≥ 24 then { r with trunc := true } else
    let n := g.nodes.getD node default
    let v := getD visits node 0
    if v ≥ n.repeatMax + 1 then { r with cls := some 10 } else
    match endTest c (off + n.fixedLen) with
    | .beyond => { r with cls := some 0 }
    | .trunc => { r with trunc := true }
    | .ok =>
    let hl := if n.hlenWidth = 0 then n.fixedLen
      else wire c.fr off n.hlenOff n.hlenWidth * 2 ^ n.hlenScale + n.hlenAdd
    let e := off + hl
    match endTest c e with
    | .beyond => { r with cls := some 0 }
    | .trunc => { r with trunc := true }
    | .ok =>
    let cs := checks g c n off hl e encl
    match firstFail cs with
    | some k => { r with cls := some k }
    | none =>
    let tot := wire c.fr off n.totOff n.totWidth
    let encl' := if n.totWidth = 0 then encl
      else some (if n.totKind then off + n.fixedLen + tot else off + tot)
    let r := { r with
      fb := extract c off r.fb ((g.exts.drop n.extractBase).take n.extractCount)
      stack := r.stack ++ [(n.hdrId, off, hl)]
      defer := r.defer ++ cs.filterMap (·.defer) }
    let sel := wire c.fr off n.selOff n.selWidth
    match (if n.selWidth = 0 then none else winEdge g n sel) with
    | some ed => walk g c fuel ed.next e encl' (set visits node (v + 1)) r
    | none =>
      if n.defaultEnd then r else walk g c fuel n.defaultNext e encl' (set visits node (v + 1)) r

/-- The parse of a frame or block from a start node (R73, R74). At most 24 headers are pushed, so 26 steps of the
walk reach its end. -/
def parse (g : Graph) (inline : Bool) (fr : Bytes) (start : Nat) : ParseRec :=
  let c : Ctx := { fr := fr.take 512, len := fr.length, long := inline && decide (fr.length > 512), inline }
  walk g c 26 start 0 none [] default

/-- The class of a deferred failure: the lowest-numbered (R79), evaluated at the end of a frame of length `len`. -/
def deferFail (ds : List Defer) (len : Nat) : Option Nat :=
  let fails := ds.filterMap fun
    | .below cls d => if d > len then some cls else none
    | .short d => if d < len then some 4 else none
  fails.min?

/-- Metadata of a pass for key word 0 (R81). -/
structure Meta where
  chan : Nat
  stem : Bool
  kind : Bool
  pass : Nat
  prevSlot : Nat
  pipe : Nat
  deriving DecidableEq, Repr

/-- Key word 0 (R81). -/
def word0 (m : Meta) (r : ParseRec) : Nat :=
  put m.chan 0 6 + put (b2n m.stem) 6 1 + put (b2n m.kind) 7 1 + put m.pass 8 2 + put (b2n r.trunc) 10 1 +
  put (b2n r.cls.isSome) 11 1 + put (r.cls.getD 0) 12 4 + put m.prevSlot 16 8 + put m.pipe 24 3 +
  put r.stack.length 27 5

/-- The key profile that the last header selects (R81). -/
def keyProf (g : Graph) (r : ParseRec) : KeyProf :=
  let h := match r.stack.getLast? with | some (h, _, _) => h | none => 0
  g.kprofs.getD (g.kmap.getD h 0) default

/-- The word of the field buffer that a source names; zero when it is 255 or not valid. -/
def srcWord (r : ParseRec) (s : Nat) : Nat := if s = 255 then 0 else getD r.fb s 0

/-- The 640-bit key (R81). -/
def key640 (g : Graph) (m : Meta) (r : ParseRec) : Nat :=
  let p := keyProf g r
  let ws := tab 18 (fun i => srcWord r (p.src.getD i 255))
  let vs := tab 18 (fun i => let s := p.src.getD i 255; decide (s ≠ 255) && (find? r.fb s).isSome)
  let valid := ((List.range 18).map (fun i => if vs.getD i false then 2 ^ i else 0)).sum
  word0 m r + ((List.range 18).map (fun i => ws.getD i 0 <<< (32 * (i + 1)))).sum + (valid <<< (32 * 19))

/-- The 128-bit exact-match key (R81). -/
def key128 (g : Graph) (r : ParseRec) : Nat :=
  let p := keyProf g r
  ((List.range 4).map (fun i => srcWord r (p.em.getD i 255) <<< (32 * i))).sum

/-- A rule entry is marked for epoch `x` (R83). -/
def live (e : RuleEnt) (x : Nat) : Bool := bit e.epochs (x % 4)

/-- The TCAM hit at the lowest index (R82). -/
def tcamHit (t : Map RuleEnt) (x key : Nat) : Option Nat :=
  (t.find? fun p => live p.2 x && ((key &&& p.2.mask) == (p.2.value &&& p.2.mask))).map (·.2.res)

/-- The exact-match hit (R82). -/
def emHit (t : Map RuleEnt) (x pipe key : Nat) : Option Nat :=
  (t.find? fun p => live p.2 x && p.2.pipe == pipe && p.2.value == key).map (·.2.res)

/-- The governing rule's result, and whether the pipe's miss record governs (R82). -/
def govern (tcam em : Map RuleEnt) (miss : Nat) (g : Graph) (x : Nat) (m : Meta) (r : ParseRec) : Nat × Bool :=
  let t := tcamHit tcam x (key640 g m r)
  let e := if (keyProf g r).emEn then emHit em x m.pipe (key128 g r) else none
  match e, t with
  | some a, some b => (if bit a 88 then a else b, false)
  | some a, none => (a, false)
  | none, some b => (b, false)
  | none, none => (miss, true)

end Sys2Proof.Machine.Parse

namespace Sys2Proof.Machine.Rule
open Sys2Proof.Machine.Ops
/-! The fields of a 128-bit rule result (R84). -/
def slot (r : Nat) : Nat := bits r 0 8
def infer (r : Nat) : Bool := bit r 8
def action (r : Nat) : Nat := bits r 9 4
def compat (r : Nat) : Bool := bit r 13
def cls (r : Nat) : Nat := bits r 14 8
def colour (r : Nat) : Nat := bits r 22 2
def queue (r : Nat) : Nat := bits r 24 20
def mirror (r : Nat) : Nat := bits r 44 6
def mirrorEn (r : Nat) : Bool := bit r 50
def policer (r : Nat) : Nat := bits r 51 18
def policerEn (r : Nat) : Bool := bit r 69
def counter (r : Nat) : Nat := bits r 70 18
end Sys2Proof.Machine.Rule
end

