-- ==== Sys2Proof/Machine/Pipe.lean ====
section
/-!
DEFINITION. Pipe.lean: a unit of work on its way to the verdict unit: reception at a port (R41 to R45), stage 2 (R26, R73),
classification (R81 to R87), the flow lookup (R96 to R107), the window point (R126 to R137), the recurrent turn and the
inference of a pass (R21, R106, R211).
-/
namespace Sys2Proof.Machine
namespace Ops

/-- The clocks of the pipes run: no freeze holds them and no clock hold (R431, R490). -/
def moving (d : Dev) : Bool := !frozen d && d.clk.holdTo.isNone

/-- The INLINE pipe of a port (R14), and whether its link is up. -/
def portPipe (d : Dev) (n : Nat) : Option Nat := find? d.prt.pipeOf n
def portUp (d : Dev) (n : Nat) : Bool := rdB d (Reg.prtPortStatLinkUp n)

/-- Free cells of the packet buffer (R302). -/
def cellsFree (d : Dev) : Nat := d.tmg.cells - d.tmg.used
/-- Takes or gives back cells. -/
def useCells (d : Dev) (n : Nat) : Dev := { d with tmg := { d.tmg with used := d.tmg.used + n } }
def freeCells (d : Dev) (n : Nat) : Dev := { d with tmg := { d.tmg with used := d.tmg.used - n } }

/-- Ports that pause when a condition of R45 or R302 holds: INLINE, up, with a priority enabled. -/
def pausingPorts (d : Dev) : List Nat :=
  (List.range 32).filter fun n => (portPipe d n).isSome && portUp d n && rd d (Reg.prtPortCtlPfcEn n) != 0

/-- Every pausing port sends a PFC frame with the quanta; R45 calls the release an XOFF with quanta 0, so both count. -/
def pfcSend (d : Dev) (quanta : Nat) : Dev :=
  each (pausingPorts d) d fun d n =>
    tick (emit d (.pfc n (rd d (Reg.prtPortCtlPfcEn n)) quanta)) (Ctr.prtTxPfcXoff n)

/-- A level condition with its release level, raised to XOFF + 1 where it is not greater (R45, R302). -/
def pauseCond (free xoff xon : Nat) (was : Bool) : Bool :=
  if free ≤ xoff then true else if max xon (xoff + 1) < free then false else was

/-- Checks both pause conditions: XOFF at the onset of either, the release when neither holds any more (R45, R302). -/
def pfcCheck (d : Dev) : Dev :=
  let c := gateOn d 4 &&
    pauseCond (ctxFree d) (rd d Reg.prtPfcCfg0XoffFree) (rd d Reg.prtPfcCfg1XonFree) d.tmg.xoffCtx
  let b := decide (d.tmg.cells ≠ 0) &&
    pauseCond (cellsFree d) (rd d Reg.tmgBufCfg0XoffFree) (rd d Reg.tmgBufCfg1XonFree) d.tmg.xoffCell
  let d' := { d with tmg := { d.tmg with xoffCtx := c, xoffCell := b } }
  if (c && !d.tmg.xoffCtx) || (b && !d.tmg.xoffCell) then pfcSend d' 0xFFFF
  else if (d.tmg.xoffCtx || d.tmg.xoffCell) && !c && !b then pfcSend d' 0
  else d'

/-- A record of a unit that has just arrived. -/
def newUnit (kind : UnitKind) (pipe : Nat) (bytes : Bytes) (len src chan evT : Nat) : UnitRec where
  kind := kind
  stage := .arrived
  pipe := pipe
  bytes := bytes
  len := len
  src := src
  chan := chan
  evT := evT
  fcs := none
  fecBad := false
  hasCtx := false
  cells := 0
  epoch := 0
  expired := false
  skel := false
  pass := 0
  tenant := 0
  slot0 := 0
  slot := 0
  prevSlot := 0
  parse := default
  rules := []
  malCode := none
  entry := none
  flow := none
  learned := false
  cpuState := false
  cache := 0
  arrival := 0
  arrT := 0
  release := 0
  orderLate := false
  turn := none
  zeroState := true
  state := zeros 64
  poisonState := false
  carry := zeros 64
  readOf := none
  copy := none
  winRes := []
  feats := []
  feats0 := []
  vecs := []
  carried := []
  hopped := false
  hops := 0
  res := .none
  leafOut := none
  headOut := none
  flags := 0
  verdict := none
  dflt := none
  late := false
  energy := 0
  ctxT := 0
  failed := false

/-- Adds a unit in flight; answers its number. -/
def addUnit (d : Dev) (r : UnitRec) : Dev × Nat :=
  (setUnit { d with nextUnit := d.nextUnit + 1 } d.nextUnit r, d.nextUnit)

/-- Speed of a port in bits per ns by the port mode (R37), and the length of a PFC pause in ns (R309). -/
def portGb (d : Dev) : Nat := [800, 400, 200, 200].getD (rd d Reg.prtModeMode) 200
def pauseNs (d : Dev) (q : Nat) : Nat := q * 512 / portGb d

/-- A PFC frame pauses, restarts or ends the pause of its priorities (R309). -/
def pfcPause (d : Dev) (n enable : Nat) (quanta : Nat → Nat) : Dev :=
  each (List.range 8) d fun d k =>
    if !bit enable k then d
    else if quanta k = 0 then { d with tmg := { d.tmg with paused := del d.tmg.paused (8 * n + k) } }
    else { d with tmg := { d.tmg with paused := set d.tmg.paused (8 * n + k) (now d + pauseNs d (quanta k)) } }

/-- A frame arrives at a port (R38, R41, R44, R302), with the codewords of it that the FEC corrected and those that it could not; one of
these makes the frame fail its FCS. `fr` is the frame without its FCS; its SFD is stamped now. The FCS result is used here for a MAC control
frame alone (R41). -/
def frameReceive (d : Dev) (n : Nat) (fr : Bytes) (fcsOk : Bool) (corrected uncorrectable : Nat) : Dev :=
  match portPipe d n with
  | none => d
  | some p =>
    if !moving d || !gateOn d 4 || !portUp d n || fltFailed d then d else
    let d := count (count d (Ctr.prtFecCorr n) corrected) (Ctr.prtFecUncorr n) uncorrectable
    let fecBad := decide (0 < uncorrectable)
    let beats := chunks64 fr.length
    if fr.length + 4 < 64 then tick (meter d 0 beats) (Ctr.prtRxErr n)
    else if rd d (Reg.prtPortCtlMtu n) < fr.length + 4 then tick (meter d 0 beats) (Ctr.prtRxOversize n)
    else
      let op := beNat (slice fr 14 2)
      if beNat (slice fr 12 2) = 0x8808 ∧ (op = 1 ∨ op = 0x101) then
        let d := meter d 0 beats
        if !fcsOk || fecBad then tick d (Ctr.prtRxErr n)
        else if op = 1 then tick d (Ctr.prtRxPauseDrop n)
        else pfcPause d n (byteAt fr 17) fun k => beNat (slice fr (18 + 2 * k) 2)
      else
        let cells := cdiv fr.length 256
        if cellsFree d < cells then tick (meter d 0 beats) Ctr.tmgBufDrop
        else
          let u := addUnit (useCells d cells) { newUnit (.inline n) p fr fr.length n n (now d) with
                                                  cells, fecBad, energy := coef d 0 * beats }
          pfcCheck (meter (tick u.1 (Ctr.prtRxFrames n)) 0 beats)

/-- The unit enters through a Stem channel. -/
def isStem (r : UnitRec) : Bool := match r.kind with | .stem .. => true | _ => false
/-- The port of an inline packet. -/
def inlinePort (r : UnitRec) : Option Nat := match r.kind with | .inline n => some n | _ => none

/-- The graph of a unit: its pipe's in its epoch (R23, R68). -/
def graphOf (d : Dev) (r : UnitRec) : Graph := (cfgOf d r.epoch).graphs.getD r.pipe default

/-- Metadata for key word 0 (R81). -/
def metaOf (r : UnitRec) : Parse.Meta :=
  { chan := r.chan, stem := isStem r, kind := (match r.kind with | .stem _ _ k => k | _ => false), pass := r.pass
    prevSlot := r.prevSlot, pipe := r.pipe }

/-- Counts a pass in the rule counter: packets and bytes (R86). -/
def ruleCount (d : Dev) (i len : Nat) : Dev :=
  if (layout? d).isNone then d else
  let a := rd64 d Reg.clsRuleCntBaseLoAddr Reg.clsRuleCntBaseHiAddr + 16 * i
  let r := memRead d a 16
  memWrite r.1 a (leBytes 8 (le r.2.1 0 8 + 1) ++ leBytes 8 (le r.2.1 8 8 + len))

/-- CLS on a pass: the governing rule of the unit's epoch is chosen and its counter counts (R81 to R86). -/
def classify (d : Dev) (r : UnitRec) : Dev × Nat :=
  let g := graphOf d r
  let x := Parse.govern d.tcam d.em ((cfgOf d r.epoch).miss.getD r.pipe 0) g r.epoch (metaOf r) r.parse
  let d := tickIf x.2 (meter d 4 1) (Ctr.prsRuleMiss r.pipe)
  (ruleCount d (Rule.counter x.1) r.len, x.1)

/-- The rule that governed the unit's first pass, and the one that governed its latest pass. -/
def firstRule (r : UnitRec) : Nat := r.rules.headD 0
def lastRule (r : UnitRec) : Nat := r.rules.getLastD 0

/-- The owner of a slot, or tenant 0 (R85). -/
def slotTenant (d : Dev) (s : Nat) : Nat := if rdB d (Reg.cfgSlotAssigned s) then rd d (Reg.cfgSlotOwner s) else 0

/-- The malformed-action code of a tenant for a class (R87). -/
def malAct (d : Dev) (t c : Nat) : Nat := rd d { Reg.clsMalActAct0 (2 * t + c / 8) with
  key := (Reg.clsMalActAct0 (2 * t + c / 8)).key + 4 * (c % 8) }

/-- The tenant maps truncation to class 15 (R76). -/
def truncMapped (d : Dev) (t : Nat) : Bool :=
  bit (rd d (if t < 32 then Reg.clsTruncMap0Tenant else Reg.clsTruncMap1Tenant)) (t % 32)

/-- Flags of a verdict by their position in FLAGS (R291). -/
def flagOr (r : UnitRec) (k : Nat) : UnitRec := { r with flags := r.flags ||| 2 ^ k }

/-- A lookup arrives at FLW (R97, R98): its release time, and whether that has passed. -/
def arrive (d : Dev) (r : UnitRec) : Dev × UnitRec :=
  let t := r.evT + horizon d
  ({ d with flw := { d.flw with arrivals := d.flw.arrivals + 1 } },
    { r with arrival := d.flw.arrivals, arrT := now d, release := t, orderLate := decide (t < now d) })

/-- Stage 3 of a first pass, after the parse: the rule, the slot, the tenant, truncation and malformed classes
(R76, R80, R85, R87). Class 15 needs the tenant, which the first pass's rule gives: it is in the key of later passes only (log entry 149:
DESIGN CHOICE). -/
def firstClassify (d : Dev) (u : Nat) (r : UnitRec) : Dev :=
  let x := classify d r
  let s := Rule.slot x.2
  let t := slotTenant x.1 s
  let r := { r with rules := [x.2], slot0 := s, slot := s, tenant := t, stage := .parsed }
  let a := arrive x.1 r
  let r := a.2
  let d := tickIf r.parse.trunc a.1 (Ctr.prsParseTrunc r.pipe)
  let r := if r.parse.trunc then flagOr r 3 else r
  let r := if r.parse.trunc && r.parse.cls.isNone && truncMapped d t then { r with parse := { r.parse with cls := some 15 } }
    else r
  match r.parse.cls with
  | none => setUnit d u r
  | some c => setUnit (tick d (Ctr.prsMal r.pipe c)) u { flagOr r 2 with malCode := some (malAct d t c) }

/-- A unit of work enters stage 2 (R26, R73, R273): it takes its context and its epoch and is parsed; an inline packet that
finds no context is dropped (R27). In HOLD, HANDOVER and SKELETON it is given skeleton service (R405). -/
def parseStart (d : Dev) (u : Nat) : Dev :=
  forUnit d u fun d r =>
    if r.stage ≠ .arrived ∨ !moving d ∨ !gateOn d 6 ∨ d.epochs.isEmpty ∨ d.stm.fifo.contains u then d else
    match r.kind with
    | .inline n =>
      if ctxFree d = 0 then pfcCheck (freeCells (delUnit (tick d (Ctr.prtRxCtxDrop n)) u) r.cells)
      else
        let x := curNum d
        let g := (curCfg d).graphs.getD r.pipe default
        let p := Parse.parse g true r.bytes (epF d x (Reg.prsStartPortNode n))
        let r := { r with hasCtx := true, ctxT := now d, epoch := x, skel := skeleton d, parse := p }
        pfcCheck (firstClassify (meter d 3 1) u r)
    | .stem _ _ k =>
      let x := curNum d
      let g := (curCfg d).graphs.getD r.pipe default
      let st := if k then Reg.prsStartStemPKeyNode r.pipe else Reg.prsStartStemPHeaderNode r.pipe
      let r := { r with epoch := x, skel := skeleton d, parse := Parse.parse g false r.bytes (epF d x st) }
      pfcCheck (firstClassify (meter d 3 1) u r)
    | _ => d

/-- The unit is to run a model on this pass: always on a later pass; on the first pass under a rule of INFER = 1, unless a
malformed code other than INFER applies (R85, R87). -/
def infers (r : UnitRec) : Bool :=
  decide (r.pass ≠ 0) || (Rule.infer (firstRule r) && (r.malCode.getD 0 == 0))

/-- The model of the unit's slot in its epoch. -/
def unitModel (d : Dev) (r : UnitRec) : Option Model := modelOf d r.epoch r.slot

/-- The sections of the pass that a unit is on (R245). -/
def passSec (m : Model) (pass : Nat) : PassSec := m.slotSec.passes.getD pass ⟨false, false, 0xFF, 0xFF⟩

/-- The flow key of R93. -/
def flowKey (g : Graph) (prof tenant : Nat) (p : ParseRec) : Bytes :=
  (tab 9 fun i => leBytes 4 (Parse.srcWord p ((g.fprofs.getD prof default).src.getD i 255))).flatten ++
    leBytes 4 (tenant % 64 + 64 * prof)

/-- The flow items of R123 before the hit or learn of this packet. -/
def flowItems (d : Dev) (i : Nat) (e : FlowEnt) (t : Nat) : List FlowItem :=
  let s := sideOf d i
  let gap := (((t : Int) - origin d - e.lastSeen) % (2 ^ 48 : Int)).toNat
  let c := fun (v : Nat) => if bit s.cache 0 then FlowItem.val v else .inval
  [.val s.pkts, .val s.bytes, .val (min gap 0xFFFFFFFF), .val e.cstate, .val 0, c (bits s.cache 13 8),
    c (bits s.cache 43 16), .val e.moves]

/-- The flow items of the learning packet (R123). -/
def learnItems : List FlowItem := [.val 0, .val 0, .dflt, .val 0, .val 1, .inval, .inval, .val 0]

/-- A trigger queues a flow-model run for the flow model attached to slot `host` (R257). `ready` tells that the features
are those of the trigger packet's first pass; otherwise they are filled in at its window point. -/
def trigger (d : Dev) (u : Nat) (r : UnitRec) (which : Nat) (ready : Bool) (test : FlowSec → Bool) : Dev :=
  match r.entry with
  | none => d
  | some (i, gen) =>
    each ((cfgOf d r.epoch).models.filter fun p => p.2.flowKind && p.2.host == r.slot0) d fun d p =>
      match p.2.flow with
      | none => d
      | some f =>
        if !bit f.trig which || !test f then d
        else if !hbmUp d ∨ d.runQueue.length ≥ 65536 then tick d Ctr.cfgTrigDrop
        else if (d.runQueue ++ d.runs).any fun q => q.entry == i && q.gen == gen then tick d Ctr.cfgTrigBusy
        else
          let q : FlowRun := { slot := p.1, entry := i, gen, epoch := r.epoch, pipe := r.pipe
                               tenant := slotTenant d p.1, feats := r.feats0, evT := r.evT, energy := 0, ctxT := 0
                               unit := u, ready, link := none }
          tick { d with runQueue := d.runQueue ++ [q] } Ctr.cfgTrigFired

/-- The model of a unit updates recurrent state on this pass (R106, R107). -/
def updates (m : Model) (r : UnitRec) : Bool := infers r && m.turn.isSome && (passSec m 0).turn && r.pass == 0

/-- A packet that makes no update reads the state of its entry at its release time (R106). Where another slot owns the state it
reads zeros, and is counted (R107). -/
def takeState (d : Dev) (r : UnitRec) (i : Nat) (e : FlowEnt) : Dev × UnitRec :=
  if e.stateOwned && e.stateSlot != r.slot0 then (tick d Ctr.flwStateForeign, r)
  else if !infers r then (d, r)
  else match stateAt d i r.release with
    | some s => (d, { r with state := s, carry := s })
    | none => (d, { r with readOf := some i })

/-- Takes the turn of an updating packet on its entry (R106, R107): the unit with its read time. In STANDBY nothing is
written (R387). -/
def takeTurn (d : Dev) (u : Nat) (r : UnitRec) (m : Model) (i : Nat) (e : FlowEnt) : Dev × UnitRec :=
  match m.turn with
  | none => (d, r)
  | some t =>
    if e.stateOwned && e.stateSlot != r.slot0 then
      (tick d Ctr.flwStateForeign, { r with turn := some (r.release, false), zeroState := true })
    else if standby d then (d, { r with turn := some (r.release, false), zeroState := false })
    else
      let rdT := max r.release (getD d.flw.busy i 0)
      if !r.orderLate && rdT ≤ r.release + t.slack then
        let d := if e.stateOwned then d else putEnt d i { e with stateOwned := true, stateSlot := r.slot0 }
        let w : PendWr := { unit := u, land := rdT + t.tu, gen := genOf d i, val := none }
        ({ d with flw := { d.flw with busy := set d.flw.busy i (rdT + t.tu)
                                      pend := set d.flw.pend i (getD d.flw.pend i [] ++ [w]) } },
          { r with turn := some (rdT, true), zeroState := false })
      else (tick d (Ctr.flwTurnMiss r.slot0), { r with turn := some (r.release + t.slack, false), zeroState := false })

/-- The unit tracks no entry: an updating model still takes a turn on the zero state (R99, R215). -/
def noEntryTurn (r : UnitRec) (m : Option Model) : UnitRec :=
  match m with
  | some m => if updates m r then { r with turn := some (r.release, false), zeroState := true } else r
  | none => r

/-- A unit that tracks no flow: profile 15, a slot without a model, skeleton service (R85, R99, R405). -/
def noLookup (d : Dev) (u : Nat) (r : UnitRec) (m : Option Model) : Dev :=
  setUnit d u { noEntryTurn r m with stage := .looked, flow := none }

/-- A packet that continues unlearned (R99). -/
def unlearned (d : Dev) (u : Nat) (r : UnitRec) (m : Model) : Dev :=
  setUnit d u { flagOr (noEntryTurn r (some m)) 5 with stage := .looked, flow := none }

/-- A lookup that hits entry `i` (R96, R101, R106, R123): CPU as the hit finds it (R102). -/
def lookupHit (d : Dev) (u : Nat) (r : UnitRec) (m : Model) (i : Nat) (e : FlowEnt) : Dev :=
  let t := r.evT
  let r := { r with entry := some (i, genOf d i), flow := some (flowItems d i e t), cache := (sideOf d i).cache
                    stage := .looked }
  let nth := fun (f : FlowSec) => !standby d && (sideOf d i).pkts + 1 == f.n - 1
  let d := hit (tick d Ctr.flwHit) i e r.src t r.len
  let e' := (ent? d i).getD e
  let r := { r with cpuState := e.cstate == 3 }
  let x := if updates m r then takeTurn d u r m i e' else takeState d r i e'
  trigger (setUnit x.1 u x.2) u x.2 1 false nth

/-- A lookup that learns entry `i` (R100). -/
def lookupLearn (d : Dev) (u : Nat) (r : UnitRec) (m : Model) (i : Nat) (key : Bytes) : Dev :=
  let e := learnt d key r.evT r.src r.epoch
  let d := insertAt (tick d Ctr.flwLearn) i e r.evT 1
  let r := { r with entry := some (i, genOf d i), flow := some learnItems, cache := 0, learned := true, stage := .looked }
  let x := if updates m r then takeTurn d u r m i e else takeState d r i e
  trigger (setUnit x.1 u x.2) u x.2 0 false fun _ => true

/-- A lookup that misses (R99, R387). -/
def lookupMiss (d : Dev) (u : Nat) (r : UnitRec) (m : Model) (key : Bytes) (learn : Bool) : Dev :=
  if standby d || !learn then unlearned (tick d Ctr.flwNolearn) u r m
  else match place d key with
    | .inl i => lookupLearn d u r m i key
    | .inr _ =>
      let d := lpeTick (tick d Ctr.flwInsertFail) (Ctr.lpeTInsertFail (keyTenant key))
      unlearned (flood d key r.evT r.len) u r m

/-- The lookup proper (R96, R101, R386, R387). -/
def lookupLocal (d : Dev) (u : Nat) (r : UnitRec) (m : Model) (key : Bytes) (learn : Bool) : Dev :=
  let d := meter (tick d Ctr.flwLookup) 5 1
  let d := tickIf (!ownsFlow d key) d Ctr.clpForeignPkts
  let d := tickIf r.orderLate d Ctr.flwOrderLate
  let d := readBucket d (bucketOf d key)
  match lookup d key with
  | some i => match ent? d i with
    | some e => lookupHit d u r m i e
    | none => lookupMiss d u r m key learn
  | none => lookupMiss d u r m key learn

/-- The steering entry of a key (R380). -/
def steerIdx (d : Dev) (key : Bytes) : Nat := flowHash d key / 2 ^ 12

/-- A STEER message: its kind 0 claim, 1 set, 2 answer, the owner, the entry (log entry 12). -/
def steerMsg (kind owner entry : Nat) : Bytes := leBytes 1 kind ++ leBytes 1 owner ++ zeros 2 ++ leBytes 4 entry

/-- This member is the group's master, and the result has settled (R374). -/
def isMaster (d : Dev) : Bool := rdB d Reg.trlStatMasterValid && rd d Reg.trlStatMaster == ownId d

/-- The master records the owner of an entry and tells every member (R381). -/
def steerSet (d : Dev) (i owner : Nat) : Dev :=
  sendAll { d with trl := { d.trl with steer := set d.trl.steer i (owner + 8) } } 11 (steerMsg 1 owner i)

/-- A first pass finds its steering entry not valid: served here, the entry provisional, a claim to the master, held while
there is none (R380, R381). -/
def steerClaim (d : Dev) (i : Nat) : Dev :=
  let d := tick { d with trl := { d.trl with steer := set d.trl.steer i (ownId d + 8 + 16) } } Ctr.trlClaim
  if isMaster d then steerSet d i (ownId d)
  else if rdB d Reg.trlStatMasterValid then sendTo d (rd d Reg.trlStatMaster) 11 0 (steerMsg 0 (ownId d) i)
  else { d with trl := { d.trl with claims := d.trl.claims ++ [i] } }

/-- The HANDOVER message of a steered unit (R377). -/
def steerHandover (r : UnitRec) : Bytes :=
  let valid := (List.range 128).map fun i => if (find? r.parse.fb i).isSome then 2 ^ i else 0
  padTo 64 (leBytes 8 r.evT ++ leBytes 1 r.slot ++ leBytes 1 r.epoch ++ leBytes 1 (r.pass + 4) ++ leBytes 1 r.tenant ++
    leBytes 1 r.src ++ leBytes 2 r.len) ++
  leBytes 16 valid.sum ++ ((List.range 128).flatMap fun i => leBytes 4 (getD r.parse.fb i 0))

/-- A unit is handed to the owner of its flow; where no link or live member takes it, its hop has failed (R379, R380). -/
def steerAway (d : Dev) (u : Nat) (r : UnitRec) (owner : Nat) : Dev :=
  let ok := memberLive d owner && (match routeTo d owner with | some l => linkState d l == 4 | none => false)
  let h := u % 2 ^ 18
  let d := setUnit { d with trl := { d.trl with away := set d.trl.away h u } } u { r with stage := .inferred }
  if ok then sendTo (tick d Ctr.trlHandoverTx) owner 7 h (steerHandover r) else d

/-- A unit that this device has handed over and whose RESULT has not come. -/
def isAway (d : Dev) (u : Nat) : Bool := d.trl.away.any fun p => p.2 == u

/-- The pipe steers its first passes (R380). A unit that came by a hop is never steered again. -/
def steers (d : Dev) (r : UnitRec) : Bool :=
  inGroup d && bit (rd d Reg.trlCfgSteerPipes) r.pipe && (match r.kind with | .handover .. => false | _ => true)

/-- The place of a unit in bank order (R97, R98): its release time, or for a late one its arrival, after everything released by then; on
equal times local pipes, then members that hand over by ID; then arrival. -/
def bankKey (r : UnitRec) : List Nat :=
  let from' := match r.kind with | .handover peer _ _ _ => [1, peer] | _ => [0, r.pipe]
  [if r.orderLate then r.arrT else r.release, b2n r.orderLate] ++ from' ++ [r.arrival]

/-- The first of two lists in the order of dictionaries. -/
def lexLt : List Nat → List Nat → Bool
  | a :: l, b :: m => decide (a < b) || (a == b && lexLt l m)
  | [], _ :: _ => true
  | _, [] => false

/-- A lookup that is due: its release time has come (R97). -/
def lookupDue (d : Dev) (r : UnitRec) : Bool := r.stage == .parsed && r.pass == 0 && decide (r.release ≤ now d)

/-- Another due lookup comes before it in bank order. -/
def lookupBehind (d : Dev) (r : UnitRec) : Bool := d.units.any fun p => lookupDue d p.2 && lexLt (bankKey p.2) (bankKey r)

/-- FLW serves a first pass's lookup at its release time, in bank order (R96 to R98). -/
def flowLookup (d : Dev) (u : Nat) : Dev :=
  forUnit d u fun d r =>
    if !lookupDue d r ∨ !moving d ∨ !gateOn d 7 ∨ lookupBehind d r then d else
    let m := modelOf d r.epoch r.slot0
    match m with
    | none => noLookup d u r m
    | some md =>
      if r.skel || r.expired || md.flowProfile == 15 then noLookup d u r (if r.skel || r.expired then none else m)
      else
        let g := graphOf d r
        let key := flowKey g md.flowProfile r.tenant r.parse
        let learn := (g.fprofs.getD md.flowProfile default).learn
        if !steers d r then lookupLocal d u r md key learn
        else
          let i := steerIdx d key
          let e := getD d.trl.steer i 0
          if !bit e 3 then lookupLocal (steerClaim d i) u r md key learn
          else if e % 8 = ownId d then lookupLocal d u r md key learn
          else steerAway d u r (e % 8)

/-- The due lookup that is first in bank order. -/
def nextDue (d : Dev) : Option Nat :=
  (d.units.find? fun p => lookupDue d p.2 && !lookupBehind d p.2).map (·.1)

/-- Serves what is due, at most `n` lookups. -/
def serveUpTo : Nat → Dev → Dev
  | 0, d => d
  | n + 1, d => match nextDue d with
    | some u => serveUpTo n (flowLookup d u)
    | none => d

/-- Every lookup that is due is served: what follows ranks after them in bank order (R97, R104). -/
def serveDue (d : Dev) : Dev := serveUpTo d.units.length d

/-- The window time of a first pass (R127), or of a late one its arrival plus the same delay (R128). -/
def windowTime (d : Dev) (r : UnitRec) : Nat := (if r.orderLate then r.arrT else r.release) + rd d Reg.feaWinCfgOffset

/-- A unit before this one in bank order is still to make its accesses at a window time that has come (R127, R128). -/
def windowBehind (d : Dev) (r : UnitRec) : Bool :=
  d.units.any fun p => (p.2.stage == .parsed || p.2.stage == .looked) && p.2.pass == 0 && decide (windowTime d p.2 ≤ now d) &&
    lexLt (bankKey p.2) (bankKey r)

/-- The environment of a feature program on a pass (R121, R122, R123). -/
def feaEnv (r : UnitRec) (winRes : List (Option Nat)) : FeaEnv :=
  { fr := r.bytes.take 512, fb := r.parse.fb, flow := r.flow, winRes
    metas := [some (r.evT % 2 ^ 32), some (r.evT / 2 ^ 32 % 2 ^ 32), some r.len, some r.chan, some r.tenant, some r.slot,
      some r.pass, some r.epoch, some r.parse.stack.length, some (b2n r.parse.trunc), r.parse.cls,
      some (Rule.cls (lastRule r)), some r.pipe] }

/-- One WIN instruction at the window point (R126 to R134): the device and, for a read, its result. -/
def winAccess (d : Dev) (r : UnitRec) (q : WinReq) : Dev × Option (Option Nat) :=
  let w := getD (cfgOf d r.epoch).descs q.desc default
  let cell := match w.key with
    | 0 => r.entry.map (·.1)
    | 1 => q.keyf.map (· % max 1 w.cells)
    | _ => some 0
  match cell with
  | none => (tick d Ctr.feaWinSkip, if q.rd then some none else none)
  | some i =>
    let x := if w.agg = 0 then some 1 else q.valf
    let up := q.up && x.isSome
    if !q.rd && !up then (tick d Ctr.feaWinSkip, none)
    else
      let a := cellAddr d w i
      let n := Window.cellSize w
      let c := memRead (meter (tick d Ctr.feaWinAccess) 7 1) a n
      -- what a poisoned cell reads as is open (log entry 4)
      let f := if c.2.2 then (let v := fresh c.1; (v.2, leBytes n v.1)) else (c.1, c.2.1)
      let rdv := Window.read w f.2 r.evT q.part
      let d := tickIf (q.rd && rdv.2) f.1 Ctr.feaWinSat
      let d := if up then
          let z := Window.update w f.2 r.evT (x.getD 0)
          tickIf z.2.2 (tickIf z.2.1 (if z.2.1 then d else memWrite d a z.1) Ctr.feaWinLate) Ctr.feaWinSat
        else d
      (d, if q.rd then some rdv.1 else none)

/-- All window accesses of a first pass in program order: the device, the features with the reads, the results of the
reads by the instruction's number (R127, R137). -/
def winAll (d : Dev) (r : UnitRec) (qs : List WinReq) (fs : Map Nat) : Dev × Map Nat × List (Option Nat) :=
  qs.foldl (fun (a : Dev × Map Nat × List (Option Nat)) q =>
    let x := winAccess a.1 r q
    match x.2 with
    | some v => (x.1, Fea.wr a.2.1 q.dst v, a.2.2 ++ [v])
    | none => (x.1, a.2.1, a.2.2 ++ [none])) (d, fs, [])

/-- The first-pass features of a unit go to the runs that it has triggered (R257). -/
def fillRuns (d : Dev) (u : Nat) (fs : Map Nat) : Dev :=
  { d with runQueue := d.runQueue.map fun q => if q.unit = u && !q.ready then { q with feats := fs, ready := true } else q }

/-- The feature stage of a first pass at its window time (R117 to R137). A unit with no model on its first slot runs no
program (R85); one of skeleton service or of an expired epoch makes no access (R278, R405). -/
def windowAccess (d : Dev) (u : Nat) : Dev :=
  forUnit d u fun d r =>
    if r.stage ≠ .looked ∨ !moving d ∨ !gateOn d 8 ∨ now d < windowTime d r ∨ windowBehind d r then d else
    let d := if r.learned then (match r.entry with | some (i, _) => clearCells d r.tenant i | none => d) else d
    match modelOf d r.epoch r.slot0 with
    | none => setUnit d u { r with stage := .featured, feats := [] }
    | some m =>
      if r.skel || r.expired then setUnit d u { r with stage := .featured, feats := [] } else
      let pre := Fea.run (feaEnv r []) m.progFirst.pre []
      let w := winAll d r pre.2 pre.1
      let post := Fea.run (feaEnv r w.2.2) m.progFirst.post w.2.1
      let d := meter w.1 8 (m.progFirst.pre.length + m.progFirst.post.length)
      let d := modUnit d u fun q => { q with stage := .featured, feats := post.1, feats0 := post.1, winRes := w.2.2 }
      fillRuns d u post.1

/-- A pass has no result to wait for: skeleton service, expiry, a failed part, a removed or failed unit, a gated engine
(R21, R401, R403, R405). Answers the counter that the default verdict counts in, beside `NOT_READY`. In a
thermal HOLD no engine pass runs (R404). -/
def lost (d : Dev) (r : UnitRec) (m : Model) : Bool × Option Nat :=
  if r.skel || r.expired || r.failed then (true, none)
  else if fltState d == 3 && rd d Reg.fltStatCause == 10 then (true, none)
  else if unitRemoved d (26 + r.pipe) 0 then (true, none)
  else if affectedIn d r.slot r.pipe then (true, some Ctr.fltLostSlotUnits)
  else if reachesFailed d r.epoch m r.pipe r.pass then (true, some Ctr.fltRemapDefault)
  else
    let ps := passSec m r.pass
    (ps.ens && !gateOn d 10 || (ps.turn || ps.first != 0xFF) && !gateOn d 11 || !gateOn d 9, none)

/-- The member that runs the stage after this pass of a unit: its model's next stage, where the slot is deepened and this member has made
the passes that the model makes here; at most three passes in all (R18, R376, R378). -/
def nextStage (d : Dev) (r : UnitRec) (m : Model) : Option Nat :=
  let here := match r.kind with | .handover .. => true | _ => decide (m.passes ≤ r.pass + 1)
  if !m.group ∨ !inGroup d ∨ !here ∨ 2 ≤ r.pass then none
  else ((Config.hopNext d.cfg.device m.structId (r.pass + 1)).map (·.val)).filter (· ≠ ownId d)

/-- The ensemble's margins of this pass are a part only: they travel on, or come from another member (R378). The link function is then the
ingress member's, at its own VRD (R379). -/
def partMargins (d : Dev) (r : UnitRec) (m : Model) : Bool :=
  (match r.kind with | .handover _ _ _ steer => !steer | _ => false) || (nextStage d r m).isSome

/-- The work of a pass so far, as the unit holds it between its turn and the rest of its layers. -/
def workOf (d : Dev) (r : UnitRec) (m : Model) : Work :=
  let z := r.leafOut.getD ([], [])
  { e := { d, vecs := r.vecs, sat := false, evts := [] }, broken := r.failed, margins := z.1, leaves := z.2
    link := if m.slotSec.scoreSrc = 0 then r.res else .none
    out := ⟨if m.slotSec.scoreSrc = 0 then .none else r.res, [], r.headOut⟩ }

/-- Puts what a pass has computed into the unit, and charges its events. -/
def storeWork (u : Nat) (m : Model) (w : Work) (st : Stage) : Dev :=
  modUnit (meters w.e.d w.e.evts) u fun r =>
    let r := if w.e.sat then flagOr r 6 else r
    { r with stage := st, vecs := w.e.vecs, failed := r.failed || w.broken, res := if w.broken then .none else passRes m w
             leafOut := if m.ens.isSome && (passSec m r.pass).ens && !w.broken then some (w.margins, w.leaves) else none
             headOut := w.out.head }

/-- A turn that does not complete writes nothing (R223). -/
def noTurn (d : Dev) (u : Nat) (r : UnitRec) : Dev :=
  match r.entry with
  | some (i, _) => dropPend d i u
  | none => d

/-- The turn of a unit: its ensemble, the layers before the XPART layer, the turn, and for a granted turn the value that
will land (R211 to R215). -/
def turnRun (d : Dev) (u : Nat) (r : UnitRec) (m : Model) (t : TurnDesc) (old : Bytes) : Dev :=
  let st : StateIn := ⟨old, false⟩
  let w := passStart d m r.pipe r.slot (passSec m r.pass) r.feats st r.carried (partMargins d r m) r.vecs
  if w.broken then noTurn (storeWork u m w .turning) u r
  else
    let x := runTurn w m t r.pipe r.slot r.feats old
    let d := storeWork u m x.1 .turning
    let granted := r.turn.any (·.2)
    let d := modUnit d u fun q => { q with state := x.2.1, poisonState := x.2.2, carry := if granted then x.2.1 else old }
    match r.entry, granted with
    | some (i, _), true =>
      settle { d with flw := { d.flw with pend := set d.flw.pend i ((getD d.flw.pend i []).map fun p =>
          if p.unit = u then { p with val := some x.2.1 } else p) } } i
    | _, _ => d

/-- The state that the turn of a unit starts from (R106, R107, R215): zeros where its entry has gone. -/
def oldState (d : Dev) (r : UnitRec) (x : Nat) : Option Bytes :=
  if r.zeroState then some (zeros 64) else match r.copy, r.entry with
    | some c, _ => some c
    | none, some (i, g) => if genOf d i = g then stateAt d i x else some (zeros 64)
    | none, none => some (zeros 64)

/-- A unit of the schedule fails while it serves the pass (R177, R223): the report and the counter. `k` is the SCHEDULE
entry's number. -/
def engineFault (d : Dev) (m : Model) (k : Nat) : Dev :=
  match m.sched[k]? with
  | none => d
  | some e => match schedUnit e with
    | none => d
    | some (0, l) => fault (tick d Ctr.mxtWtUe) 1 1 (physOf d 0 l)
    | some (p, l) => fault (tick d Ctr.espNodeCheck) 2 2 (33 * (p - 1) + physOf d p l)

/-- The delay D of every time of R106 (R209). -/
def turnDelay (d : Dev) : Nat := rd d Reg.mxtTurnCfgOffset

/-- The turn unit captures the old state at D after the turn's read time and computes (R106, R209, R211). A turn lane may fail, or a unit
of the schedule that serves the layers up to the turn (R223). -/
def turnStart (d : Dev) (u : Nat) (fault? : Option PassFault) : Dev :=
  forUnit d u fun d r =>
    match r.turn, modelOf d r.epoch r.slot0 with
    | some (x, _), some m =>
      if r.stage ≠ .featured ∨ r.pass ≠ 0 ∨ !moving d ∨ now d < x + turnDelay d then d
      else match oldState d r x, m.turn with
        | some old, some t =>
          let stop := fun (d : Dev) => modUnit (noTurn d u r) u fun q => { q with stage := .turning, failed := true, carry := old }
          if (lost d r m).1 then stop d
          else match fault? with
            | some (.lane l) => fault (stop (tick d Ctr.mxtTurnFault)) 4 4 (4 * r.pipe + physOf d (18 + r.pipe) (l % 4))
            | some (.unit k) => engineFault (stop d) m k
            | some (.record k) => turnRun (modUnit (recordError d m r.pipe k) u fun q => { q with carry := old }) u r m t old
            | none => turnRun (modUnit d u fun q => { q with carry := old }) u r m t old
        | _, _ => d
    | _, _ => d

/-- A granted write lands at its time, or is discarded when the entry has gone since the grant (R106, R108, R209). -/
def turnLand (d : Dev) (u : Nat) : Dev :=
  if !moving d ∨ !gateOn d 7 then d else
  let d := serveDue d
  match d.flw.pend.findSome? fun p => (p.2.find? fun w => w.unit == u).map fun w => (p.1, w) with
  | none => d
  | some (i, w) =>
    if now d < w.land + turnDelay d then d
    else match w.val with
      | none => d
      | some v =>
        let d := dropPend (keepCopies d i fun x => decide (x < w.land)) i u
        let d := if (pendOf d i).isEmpty then { d with flw := { d.flw with busy := del d.flw.busy i } } else d
        match ent? d i with
        | none => d
        | some e =>
          if w.gen ≠ genOf d i ∨ standby d then d
          else mirrorState (meter (tick (putEnt d i { e with state := v }) Ctr.mxtTurnWrite) 6 1) i

/-- The scheduled inference of a pass (R21): its ensemble and layers, or what is left of them after its turn. A unit that
is not to infer has nothing to compute (R87). -/
def inferenceStage (d : Dev) (u : Nat) (fault? : Option PassFault) : Dev :=
  forUnit d u fun d r =>
    let ready := r.stage == .turning ||
      (r.stage == .featured && r.readOf.isNone && (r.turn.isNone || r.pass != 0 || !infers r))
    if !ready ∨ !moving d then d else
    match unitModel d r with
    | none => setUnit d u { r with stage := .inferred }
    | some m =>
      if !infers r then setUnit d u { r with stage := .inferred } else
      let l := lost d r m
      if l.1 then
        let d := match l.2 with | some c => tick d c | none => d
        setUnit d u { r with stage := .inferred, failed := true, res := .none, leafOut := none, headOut := none }
      else match (match fault? with | some (.unit k) => some k | _ => none) with
        | some k =>
          let d := setUnit d u { r with stage := .inferred, failed := true, res := .none, leafOut := none, headOut := none }
          engineFault d m k
        | none =>
          let d := recordFault d m r.pipe fault?
          let st : StateIn := ⟨r.state, r.poisonState⟩
          let w := if r.stage = .turning then workOf d r m
            else passStart d m r.pipe r.slot (passSec m r.pass) r.feats st r.carried (partMargins d r m) r.vecs
          let w := if w.broken then w else passRest w m r.pipe r.slot (passSec m r.pass) r.feats st
          let d := storeWork u m w .inferred
          if w.broken then fault d 2 2 0 else d

/-- A recirculating unit re-enters its pipe at stage 3 for its next pass (R18, R85, R96, R137). -/
def recircEntry (d : Dev) (u : Nat) : Dev :=
  forUnit d u fun d r =>
    if r.stage ≠ .waiting ∨ !moving d ∨ !gateOn d 6 then d else
    let r := { r with pass := r.pass + 1 }
    let d := meter d 3 1
    let x := classify d r
    let side := match r.entry with
      | some (i, g) => if genOf x.1 i = g then some (sideOf x.1 i) else none
      | none => none
    let cache := match side with | some s => s.cache | none => if r.entry.isSome then 0 else r.cache
    let c := fun (v : Nat) => if bit cache 0 then FlowItem.val v else .inval
    let flow := r.flow.map fun l => (l.set 5 (c (bits cache 13 8))).set 6 (c (bits cache 43 16))
    let r := { r with rules := r.rules ++ [x.2], cache, flow, res := .none, leafOut := none, headOut := none
                      failed := false, carried := [], hopped := false, stage := .featured, feats := []
                      state := r.carry, poisonState := false }
    match modelOf x.1 r.epoch r.slot with
    | none => setUnit x.1 u r
    | some m =>
      if r.skel || r.expired then setUnit x.1 u r else
      let f := Fea.run (feaEnv r r.winRes) (m.progLater.pre ++ m.progLater.post) []
      meter (setUnit x.1 u { r with feats := f.1 }) 8 (m.progLater.pre.length + m.progLater.post.length)

/-- The MAC reports the end of a frame and its FCS result (R42); a frame with an uncorrectable codeword fails it (R38). -/
def fcsCheck (d : Dev) (u : Nat) (ok : Bool) : Dev :=
  forUnit d u fun d r => match r.kind, r.fcs with
    | .inline _, none => setUnit d u { r with fcs := some (ok && !r.fecBad) }
    | _, _ => d

end Ops

/-- FRAME_RECEIVE (R38, R41, R42, R44, R302). -/
def execFrameReceive (port : Port) (frame : Bytes) (mac : FrameEnd) (s : State) :
    Host.Outcome State Fault Refusal :=
  Ops.run s fun d => Ops.frameReceive d port.val frame mac.fcsOk mac.corrected mac.uncorrectable
/-- PARSE_START (R26, R27, R73, R74). -/
def execParseStart (unit : Nat) (s : State) : Host.Outcome State Fault Refusal := Ops.run s fun d => Ops.parseStart d unit
/-- FLOW_LOOKUP (R96 to R102, R106, R380). -/
def execFlowLookup (unit : Nat) (s : State) : Host.Outcome State Fault Refusal := Ops.run s fun d => Ops.flowLookup d unit
/-- WINDOW_ACCESS (R126 to R137). -/
def execWindowAccess (unit : Nat) (s : State) : Host.Outcome State Fault Refusal :=
  Ops.run s fun d => Ops.windowAccess d unit
/-- TURN_START (R106, R211 to R215, R223). -/
def execTurnStart (unit : Nat) (fault : Option PassFault) (s : State) : Host.Outcome State Fault Refusal :=
  Ops.run s fun d => Ops.turnStart d unit fault
/-- TURN_WRITE_LAND (R106, R108). -/
def execTurnWriteLand (unit : Nat) (s : State) : Host.Outcome State Fault Refusal := Ops.run s fun d => Ops.turnLand d unit
/-- INFERENCE_STAGE (R21, R177, R223). -/
def execInferenceStage (unit : Nat) (fault : Option PassFault) (s : State) : Host.Outcome State Fault Refusal :=
  Ops.run s fun d => Ops.inferenceStage d unit fault
/-- FCS_CHECK (R42). -/
def execFcsCheck (unit : Nat) (ok : Bool) (s : State) : Host.Outcome State Fault Refusal :=
  Ops.run s fun d => Ops.fcsCheck d unit ok
/-- RECIRC_ENTRY (R18, R96). -/
def execRecircEntry (unit : Nat) (s : State) : Host.Outcome State Fault Refusal := Ops.run s fun d => Ops.recircEntry d unit

end Sys2Proof.Machine
end

