-- ==== Sys2Proof/Machine/Tmg.lean ====
section
/-!
DEFINITION. Tmg.lean: the traffic manager: queues and the packet buffer (R302 to R305), the scheduler (R306 to R309), sampling
(R310, R311), policers and the shaping interval (R298 to R301).
-/
namespace Sys2Proof.Machine
namespace Ops

/-- Ports of the port mode (R37). -/
def portCount (d : Dev) : Nat := [8, 16, 32, 32].getD (rd d Reg.prtModeMode) 32

/-- Node `i` of level 1, 2 or 3 among all nodes. -/
def nodeNo (level i : Nat) : Nat := level * 131072 + i

/-- A field of a queue, and of a node. -/
def qRd (d : Dev) (q : Nat) (f : Fld) : Nat := rd d (objF q f)
def nRd (d : Dev) (n : Nat) (f : Fld) : Nat := rd d (objF n f)

def queue (d : Dev) (q : Nat) : QState := getD d.tmg.queues q default
def setQueue (d : Dev) (q : Nat) (s : QState) : Dev := { d with tmg := { d.tmg with queues := set d.tmg.queues q s } }
def node (d : Dev) (n : Nat) : NState := getD d.tmg.nodes n default
def setNode (d : Dev) (n : Nat) (s : NState) : Dev := { d with tmg := { d.tmg with nodes := set d.tmg.nodes n s } }

/-- The chain above a queue: its L3, L2 and L1 nodes and its port, where every parent exists (R306). -/
def qChain (d : Dev) (q : Nat) : Option (Nat × Nat × Nat × Nat) :=
  let l3 := qRd d q Reg.tmgQCfg0Parent
  let l2 := nRd d (nodeNo 3 l3) Reg.tmgNCfg0Parent
  let l1 := nRd d (nodeNo 2 l2) Reg.tmgNCfg0Parent
  let p := nRd d (nodeNo 1 l1) Reg.tmgNCfg0Parent
  if l2 < 16384 ∧ l1 < 2048 ∧ p < portCount d then some (l3, l2, l1, p) else none

/-- The depth of a queue in bytes (R303). -/
def qDepth (s : QState) : Nat := (s.pkts.map (·.len)).sum

def sat64 (n : Nat) : Nat := min n (2 ^ 64 - 1)

/-- The queue is sampled (R310). -/
def sampledQ (d : Dev) (q : Nat) : Bool := qRd d q Reg.tmgQCfg0SampleEn == 1

/-- Why a packet cannot be enqueued, as the counter that names it (R303): its queue, owner, port or depth. -/
def enqueueFail (d : Dev) (q len colour tenant : Nat) (copy : Bool) : Option Nat :=
  if qRd d q Reg.tmgQCfg0Enable ≠ 1 then some Ctr.tmgQInvalid
  else match qChain d q with
    | none => some Ctr.tmgQInvalid
    | some (_, _, _, p) =>
      let o := qRd d q Reg.tmgQCfg0Owner
      let max := qRd d q Reg.tmgQCfg1Max * 1024
      let lim := if colour = 1 ∨ colour = 2 then max * qRd d q Reg.tmgQCfg1YelPct / 100 else max
      if !copy ∧ o ≠ tenant ∧ o ≠ 0 then some Ctr.tmgQForeign
      else if !portUp d p then some Ctr.tmgPortDown
      else if lim < qDepth (queue d q) + len then some Ctr.tmgQDrop
      else none

/-- Puts a packet into a queue (R303, R310). -/
def enqueue (d : Dev) (q : Nat) (p : QPkt) : Dev :=
  let s := queue d q
  let s := { s with pkts := s.pkts ++ [p] }
  let s := if sampledQ d q then
      { s with maxd := max s.maxd (qDepth s), enqPkts := sat64 (s.enqPkts + 1), enqBytes := sat64 (s.enqBytes + p.len) }
    else s
  meter (setQueue d q s) 16 p.cells

/-- A queue's DROP_PKTS (R303, R310). -/
def qDropped (d : Dev) (q : Nat) : Dev :=
  if sampledQ d q then setQueue d q { queue d q with dropPkts := sat64 ((queue d q).dropPkts + 1) } else d

/-- Sends the original of a packet to its queue, or drops it (R303). -/
def enqueueMain (d : Dev) (q tenant : Nat) (p : QPkt) : Dev :=
  match enqueueFail d q p.len p.colour tenant false with
  | none => enqueue d q p
  | some c => if c = Ctr.tmgQDrop then qDropped (tick d c) q else tick d c

/-- One mirror copy (R304): a green packet, truncated, with no owner check. -/
def enqueueCopy (d : Dev) (m : Nat) (p : QPkt) : Dev :=
  let q := rd d (Reg.tmgMirrorQueue m)
  let t := 64 * rd d (Reg.tmgMirrorTrunc m)
  let b := if t = 0 then p.bytes else p.bytes.take t
  let p := { p with colour := 0, bytes := b, len := b.length }
  if !rdB d (Reg.tmgMirrorEnable m) then tick d Ctr.tmgMirrorDrop
  else match enqueueFail d q p.len 0 0 true with
    | none => enqueue d q p
    | some _ => tick d Ctr.tmgMirrorDrop

/-- A packet of the unit is still in a queue. -/
def queued (d : Dev) (u : Nat) : Bool := d.tmg.queues.any fun q => q.2.pkts.any fun p => p.unit == u

/-- The cells of a frame are free once no queue holds it or a copy of it (R302). -/
def releaseCells (d : Dev) (u cells : Nat) : Dev := if queued d u then d else pfcCheck (freeCells d cells)

/-- Tokens of a shaper at time `t` (R308), in units of 1/8,000,000 byte. -/
def refill (tokens : Int) (t0 t rate burst : Nat) : Int := min (tokens + (rate * (t - t0) : Nat)) (burst * 8000000 : Nat)

def qTokens (d : Dev) (q : Nat) : Int :=
  let s := queue d q
  refill s.tokens s.tokT (now d) (qRd d q Reg.tmgQShapeRateRate) (qRd d q Reg.tmgQShapeBurstBurst)
def nTokens (d : Dev) (n : Nat) : Int :=
  let s := node d n
  refill s.tokens s.tokT (now d) (nRd d n Reg.tmgNShapeRateRate) (nRd d n Reg.tmgNShapeBurstBurst)

/-- A queue is eligible on port `p` (R307): its head packet's egress time has come, its shaper allows it, and its priority
is not paused there (R309). -/
def qEligible (d : Dev) (q p : Nat) : Bool :=
  match (queue d q).pkts.head? with
  | none => false
  | some h => decide (h.due ≤ now d) && (qRd d q Reg.tmgQShapeRateRate == 0 || decide (0 ≤ qTokens d q)) &&
      !(match find? d.tmg.paused (8 * p + qRd d q Reg.tmgQCfg0PfcPrio) with | some e => decide (now d < e) | none => false)

/-- A node lets its children send (R306, R307). -/
def nOpen (d : Dev) (n : Nat) : Bool :=
  nRd d n Reg.tmgNCfg0Enable == 1 && (nRd d n Reg.tmgNShapeRateRate == 0 || decide (0 ≤ nTokens d n))

/-- A candidate of a choice: its key, the length of the packet that it would send, its priority, weight and deficit. -/
structure Cand where
  key : Nat
  len : Nat
  prio : Nat
  weight : Nat
  deficit : Nat
  deriving DecidableEq, Repr, Inhabited

/-- Turns of a deficit round robin over `cs` in order, at most `fuel` of them: the winner, with the deficits as they stand
(R307). -/
def drrTurns : Nat → List Cand → List Cand → Option (Cand × List Cand)
  | 0, _, _ => none
  | _, [], _ => none
  | n + 1, c :: cs, seen =>
    let c := { c with deficit := c.deficit + max 1 c.weight * 256 }
    if c.len ≤ c.deficit then some (c, cs ++ seen) else drrTurns n (cs ++ [c]) seen

/-- The choice among candidates below one parent (R307): lowest PRIO, then round robin from the child that sent last. -/
def drr (last : Option Nat) (cs : List Cand) : Option (Cand × List Cand) :=
  let best := (cs.map (·.prio)).foldl min 7
  let cs := cs.filter (·.prio == best)
  match last.bind fun k => cs.find? fun c => c.key == k && decide (c.len ≤ c.deficit) with
  | some c => some (c, cs.filter (·.key != c.key))
  | none =>
    let k := match last with | some k => k + 1 | none => 0
    drrTurns (64 * cs.length) (cs.filter (fun c => decide (k ≤ c.key)) ++ cs.filter (fun c => decide (c.key < k))) []

/-- The candidate that a queue is, and that a node is with what it would send. -/
def qCand (d : Dev) (q : Nat) : Cand :=
  let s := queue d q
  { key := q, len := (s.pkts.head?.map (·.len)).getD 0, prio := qRd d q Reg.tmgQCfg0Prio
    weight := qRd d q Reg.tmgQCfg1Weight, deficit := s.deficit }
def nCand (d : Dev) (n len : Nat) : Cand :=
  { key := n, len, prio := nRd d n Reg.tmgNCfg0Prio, weight := nRd d n Reg.tmgNCfg1Weight, deficit := (node d n).deficit }

/-- The key under which the last turn below a parent is kept: nodes by number, ports above them. -/
def portKey (p : Nat) : Nat := 2 ^ 20 + p

/-- What a node of a level would send: the choices from it down, outermost first: parent, winner, the others' deficits. -/
def choose (d : Dev) (p : Nat) (cs : List (Cand × List (Nat × Cand × List Cand))) (parent : Nat) :
    Option (List (Nat × Cand × List Cand)) :=
  let _ := p
  match drr (find? d.tmg.lastTurn parent) (cs.map (·.1)) with
  | none => none
  | some (w, rest) => (cs.find? fun c => c.1.key == w.key).map fun c => (parent, w, rest) :: c.2

/-- The choices of a port from its L1 nodes down to a queue (R307). -/
def schedule (d : Dev) (p : Nat) : Option (List (Nat × Cand × List Cand)) :=
  let qs := d.tmg.queues.filterMap fun q => match qChain d q.1 with
    | some (l3, l2, l1, pt) =>
      if pt = p ∧ qEligible d q.1 p then some (q.1, nodeNo 3 l3, nodeNo 2 l2, nodeNo 1 l1) else none
    | none => none
  let l1s := ((qs.map fun q => q.2.2.2).eraseDups.filter (nOpen d))
  let c1 := l1s.filterMap fun a =>
    let l2s := ((qs.filter fun q => q.2.2.2 == a).map fun q => q.2.2.1).eraseDups.filter (nOpen d)
    let c2 := l2s.filterMap fun b =>
      let l3s := ((qs.filter fun q => q.2.2.1 == b).map fun q => q.2.1).eraseDups.filter (nOpen d)
      let c3 := l3s.filterMap fun c =>
        let x := (qs.filter fun q => q.2.1 == c).map fun q => (qCand d q.1, [])
        (choose d p x c).map fun l => (nCand d c ((l.getLast?.map (·.2.1.len)).getD 0), l)
      (choose d p c3 b).map fun l => (nCand d b ((l.getLast?.map (·.2.1.len)).getD 0), l)
    (choose d p c2 a).map fun l => (nCand d a ((l.getLast?.map (·.2.1.len)).getD 0), l)
  choose d p c1 (portKey p)

/-- The deficit and tokens of the winner after it has sent `len` bytes, and the deficits of the others (R307, R308). -/
def settleQueue (d : Dev) (c : Cand) (len : Nat) (sent : Bool) : Dev :=
  let t := qTokens d c.key
  let s := queue d c.key
  if !sent then setQueue d c.key { s with deficit := c.deficit }
  else setQueue d c.key { s with tokens := t - (len * 8000000 : Nat), tokT := now d
                                 deficit := if s.pkts.isEmpty then 0 else c.deficit - len }
def settleNode (d : Dev) (c : Cand) (len : Nat) (sent empty : Bool) : Dev :=
  let t := nTokens d c.key
  let s := node d c.key
  if !sent then setNode d c.key { s with deficit := c.deficit }
  else setNode d c.key { tokens := t - (len * 8000000 : Nat), tokT := now d, deficit := if empty then 0 else c.deficit - len }

/-- No packet is left beneath a node. -/
def nEmpty (d : Dev) (n : Nat) : Bool :=
  !(d.tmg.queues.any fun q => !q.2.pkts.isEmpty && match qChain d q.1 with
    | some (l3, l2, l1, _) => nodeNo 3 l3 == n || nodeNo 2 l2 == n || nodeNo 1 l1 == n
    | none => false)

/-- The sojourn of a packet that leaves now (R305, R310). -/
def sojourn (d : Dev) (q : Nat) (h : QPkt) : Dev :=
  if !sampledQ d q then d else
  let s := queue d q
  let w := now d - h.due
  setQueue d q { s with sojMax := sat64 (max s.sojMax w), sojSum := sat64 (s.sojSum + w), sojN := sat64 (s.sojN + 1) }

/-- A port that can start a frame sends the head packet that the scheduler picks (R305, R307, R308). -/
def egressSelect (d : Dev) (p : Nat) : Dev :=
  if !moving d || !gateOn d 14 || !gateOn d 4 || !portUp d p then d else
  match schedule d p with
  | none => d
  | some path =>
    match path.getLast? with
    | none => d
    | some (_, qc, _) =>
      let q := qc.key
      match (queue d q).pkts with
      | [] => d
      | h :: rest =>
        let d := sojourn (setQueue d q { queue d q with pkts := rest }) q h
        let d := meter (emit d (.frame p h.bytes true)) 1 (chunks64 h.len)
        let n := path.length
        let d := each (path.zip (List.range n)) d fun d x =>
          let leaf := x.2 + 1 == n
          let settle := fun (d : Dev) (c : Cand) (sent : Bool) =>
            if leaf then settleQueue d c h.len sent else settleNode d c h.len sent (nEmpty d c.key)
          let d := each x.1.2.2 d fun d c => settle d c false
          let d := settle d x.1.2.1 true
          { d with tmg := { d.tmg with lastTurn := set d.tmg.lastTurn x.1.1 x.1.2.1.key } }
        releaseCells d h.unit h.cells

/-- The state of a policer (R299). -/
def polOf (d : Dev) (x : Nat) : PolState := getD d.tmg.pols x { tc := 0, tp := 0, last := 0, filled := false }
def setPol (d : Dev) (x : Nat) (s : PolState) : Dev := { d with tmg := { d.tmg with pols := set d.tmg.pols x s } }

/-- One charge of B bytes at event time `t` (R299): the state after it and the colour. -/
def polCharge (s : PolState) (cir pir cbs pbs : Nat) (aware : Bool) (b t colourIn : Nat) : PolState × Nat :=
  let te := max t s.last
  let dt := te - s.last
  let tc := min (s.tc + cir * dt) (cbs * 8000000)
  let tp := min (s.tp + pir * dt) (pbs * 8000000)
  let n := b * 8000000
  let pre := if aware then (if colourIn = 3 then 0 else colourIn) else 0
  if pre = 2 ∨ tp < n then ({ s with tc, tp, last := te }, 2)
  else if pre = 1 ∨ tc < n then ({ s with tc, tp := tp - n, last := te }, 1)
  else ({ s with tc := tc - n, tp := tp - n, last := te }, 0)

/-- Charges policer `x` for a unit (R298, R299, the counters at `TMG_POL_CNT_BASE`): the colour. -/
def polUnit (d : Dev) (x len t colourIn : Nat) : Dev × Nat :=
  let f := fun (r : Fld) => rd d (objF x r)
  let b := (max 1 ((len : Int) + sgn 8 (f Reg.tmgPolModeAdj))).toNat
  let cbs := f Reg.tmgPolCbsBytes
  let pbs := f Reg.tmgPolPbsBytes
  let r := polCharge (polOf d x) (f Reg.tmgPolCirRate) (f Reg.tmgPolPirRate) cbs pbs (f Reg.tmgPolModeAware == 1) b t colourIn
  let c := if cbs = 0 ∨ pbs = 0 then 2 else r.2
  let a := rd64 d Reg.tmgPolCntBaseLoAddr Reg.tmgPolCntBaseHiAddr + 24 * x + 8 * c
  let d := setPol d x r.1
  (if (layout? d).isNone then d else memUpdate d a 8 (· + 1), c)

/-- The fields of a policer, a queue and a node that hand over at the end of the shaping interval (R301, R308). -/
def polFields : List Fld :=
  [Reg.tmgPolCirRate, Reg.tmgPolPirRate, Reg.tmgPolCbsBytes, Reg.tmgPolPbsBytes, Reg.tmgPolModeAware,
    Reg.tmgPolModeRedDrop, Reg.tmgPolModeAdj]
def queueFields : List Fld :=
  [Reg.tmgQCfg0Parent, Reg.tmgQCfg0Prio, Reg.tmgQCfg0Enable, Reg.tmgQCfg0PfcPrio, Reg.tmgQCfg0Owner,
    Reg.tmgQCfg0SampleEn, Reg.tmgQCfg1Weight, Reg.tmgQCfg1YelPct, Reg.tmgQCfg1Max, Reg.tmgQShapeRateRate,
    Reg.tmgQShapeBurstBurst]
def nodeFields : List Fld :=
  [Reg.tmgNCfg0Parent, Reg.tmgNCfg0Prio, Reg.tmgNCfg0Enable, Reg.tmgNCfg1Weight, Reg.tmgNShapeRateRate,
    Reg.tmgNShapeBurstBurst]

/-- The objects that have a shadow of one of the fields. -/
def armedObjs (d : Dev) (fs : List Fld) : List Nat :=
  (d.shadow.filterMap fun s =>
    if 2 ^ 50 ≤ s.1 ∧ (fs.any fun f => f.key == s.1 % 2 ^ 50) then some (s.1 / 2 ^ 50 - 1) else none).eraseDups

/-- Fills a policer's buckets: TC and TP full, LAST the time of the event (R301). -/
def fillPol (d : Dev) (x : Nat) : Dev :=
  let cbs := rd d (objF x Reg.tmgPolCbsBytes)
  let pbs := rd d (objF x Reg.tmgPolPbsBytes)
  setPol d x { tc := cbs * 8000000, tp := pbs * 8000000, last := now d
               filled := (polOf d x).filled || (decide (cbs ≠ 0) && decide (pbs ≠ 0)) }

/-- A policer's hand-over (R301). -/
def polHandover (d : Dev) (x : Nat) : Dev :=
  let d := handover d (polFields.map (objF x))
  let cbs := rd d (objF x Reg.tmgPolCbsBytes)
  let pbs := rd d (objF x Reg.tmgPolPbsBytes)
  let s := polOf d x
  if !s.filled ∧ cbs ≠ 0 ∧ pbs ≠ 0 then fillPol d x
  else setPol d x { s with tc := min s.tc (cbs * 8000000), tp := min s.tp (pbs * 8000000) }

/-- The hand-over of a queue and of a node: tokens are brought up to date at the old rate and capped at the new burst. -/
def queueHandover (d : Dev) (q : Nat) : Dev :=
  let t := qTokens d q
  let d := handover d (queueFields.map (objF q))
  setQueue d q { queue d q with tokens := min t (qRd d q Reg.tmgQShapeBurstBurst * 8000000 : Nat), tokT := now d }
def nodeHandover (d : Dev) (n : Nat) : Dev :=
  let t := nTokens d n
  let d := handover d (nodeFields.map (objF n))
  setNode d n { node d n with tokens := min t (nRd d n Reg.tmgNShapeBurstBurst * 8000000 : Nat), tokT := now d }

/-- The end of a shaping interval (R301, R305, R308). -/
def shapingEnd (d : Dev) : Dev :=
  if !gateOn d 14 then d else
  let d := each (armedObjs d polFields) d polHandover
  let d := each (armedObjs d queueFields) d queueHandover
  each (armedObjs d nodeFields) d nodeHandover

/-- The queues whose SAMPLE_EN is 1 (R310). -/
def sampledQueues (d : Dev) : List Nat :=
  d.regs.filterMap fun r => if 2 ^ 50 ≤ r.1 ∧ r.1 % 2 ^ 50 = Reg.tmgQCfg0SampleEn.key ∧ r.2 = 1 then some (r.1 / 2 ^ 50 - 1)
    else none

/-- Every sampled queue adds its depth (R310). -/
def depthSample (d : Dev) : Dev :=
  if !gateOn d 14 || !rdB d Reg.tmgSampleCfgEnable then d else
  each (sampledQueues d) d fun d q =>
    let s := queue d q
    setQueue d q { s with depthSum := sat64 (s.depthSum + qDepth s), depthN := sat64 (s.depthN + 1) }

def sat32 (n : Nat) : Nat := min n 0xFFFFFFFF

/-- A snapshot of a queue's record into the function's registers, and its clearing (R311). -/
def queueSnapshot (d : Dev) (fn data : Nat) (clear : Bool) : Dev :=
  let q := data % 2 ^ 20
  let mine := tenantOf fn == 0 || (qRd d q Reg.tmgQCfg0Owner == fn)
  let s := if mine then queue d q else default
  let p := fun f => portF (copyNo fn) f
  let vals := [s.depthSum, s.depthN, s.sojSum, s.sojN, s.enqPkts, s.enqBytes, s.dropPkts]
  let d := wrs d [(p Reg.tmgQsSelQueue, q), (p Reg.tmgQsDepthBytes, sat32 (qDepth s)), (p Reg.tmgQsMaxdBytes, sat32 s.maxd),
    (p Reg.tmgQsSojmaxNs, sat32 s.sojMax)]
  let d := each (List.range 7) d fun d i =>
    wr64 d (p (Reg.tmgQsValWord (2 * i))) (p (Reg.tmgQsValWord (2 * i + 1))) (vals.getD i 0)
  if clear && mine && (find? d.tmg.queues q).isSome then
    setQueue d q { s with maxd := 0, depthSum := 0, depthN := 0, sojMax := 0, sojSum := 0, sojN := 0, enqPkts := 0
                          enqBytes := 0, dropPkts := 0 }
  else d

/-- Pauses of a port's priority that have run out (R309). -/
def pauseExpire (d : Dev) (n k : Nat) : Dev :=
  match find? d.tmg.paused (8 * n + k) with
  | some e => if e ≤ now d then { d with tmg := { d.tmg with paused := del d.tmg.paused (8 * n + k) } } else d
  | none => d

/-- TMG is gated off: every queued packet is discarded and counted, every cell is free (R312). -/
def tmgDiscard (d : Dev) : Dev :=
  let n := (d.tmg.queues.map fun q => q.2.pkts.length).sum
  let d := count d Ctr.tmgQDrop n
  { d with tmg := { d.tmg with queues := d.tmg.queues.map (fun q => (q.1, { q.2 with pkts := [], deficit := 0 })), used := 0 } }

end Ops

/-- EGRESS_SELECT (R305 to R309). -/
def execEgressSelect (port : Port) (s : State) : Host.Outcome State Fault Refusal :=
  Ops.run s fun d => Ops.pfcCheck (Ops.egressSelect d port.val)
/-- SHAPING_INTERVAL_END (R301, R308). -/
def execShapingIntervalEnd (s : State) : Host.Outcome State Fault Refusal := Ops.run s Ops.shapingEnd
/-- QUEUE_DEPTH_SAMPLE (R310). -/
def execQueueDepthSample (s : State) : Host.Outcome State Fault Refusal := Ops.run s Ops.depthSample
/-- QUEUE_SNAPSHOT (R311). -/
def execQueueSnapshot (fn : Fn) (data : Word) (s : State) : Host.Outcome State Fault Refusal :=
  Ops.run s fun d => Ops.access d fn.val 0x00E00410 true fun d => Ops.queueSnapshot d fn.val data.toNat false
/-- QUEUE_SNAPSHOT_CLEAR (R311). -/
def execQueueSnapshotClear (fn : Fn) (data : Word) (s : State) : Host.Outcome State Fault Refusal :=
  Ops.run s fun d => Ops.access d fn.val 0x00E00410 true fun d => Ops.queueSnapshot d fn.val data.toNat true
/-- PFC_FRAME_RECEIVE (R43, R309): the pause acts only when the frame's FCS has passed (R41). -/
def execPfcFrameReceive (port : Port) (enable : Nat) (quanta : List Nat) (fcsOk : Bool) (s : State) :
    Host.Outcome State Fault Refusal :=
  Ops.run s fun d =>
    if !Ops.portUp d port.val || !Ops.gateOn d 4 then d
    else if fcsOk then Ops.pfcPause d port.val enable fun k => quanta.getD k 0
    else Ops.tick d (Ctr.prtRxErr port.val)
/-- PFC_PAUSE_EXPIRE (R309). -/
def execPfcPauseExpire (port : Port) (prio : Nat) (s : State) : Host.Outcome State Fault Refusal :=
  Ops.run s fun d => Ops.pauseExpire d port.val prio
/-- PFC_XOFF_REPEAT (R45, R302). -/
def execPfcXoffRepeat (s : State) : Host.Outcome State Fault Refusal :=
  Ops.run s fun d =>
    let d := Ops.pfcCheck d
    if d.tmg.xoffCtx || d.tmg.xoffCell then Ops.pfcSend d 0xFFFF else d

end Sys2Proof.Machine
end

