-- ==== Sys2Proof/Machine/Vrd.lean ====
section
/-!
DEFINITION. Vrd.lean: the verdict unit (R290 to R300): the end of a pass, the verdict of a unit, and the actions of an INLINE
pipe (R88, R303, R304).
-/
namespace Sys2Proof.Machine
namespace Ops

/-- The event time that records carry: a unit that was steered here runs 1,600 ns later (R378). -/
def recT (r : UnitRec) : Nat := match r.kind with | .handover _ _ _ true => r.evT - 1600 | _ => r.evT

/-- The Stem TAG of a unit; zero for others (R290). -/
def tagOf (r : UnitRec) : Nat := match r.kind with | .stem t _ _ => t | _ => 0

/-- The mirror session that a slot's records name in the unit's epoch (R294). -/
def mirrorOf (d : Dev) (r : UnitRec) (s : Nat) : Nat := epF d r.epoch (Reg.vrdSlotCfgMirror s)

/-- The default verdict of a slot (R293); for a slot that holds no model every field but SLOT and MIRROR is open. -/
def defaultOf (d : Dev) (r : UnitRec) (s : Nat) : Dev × Verdict :=
  let v := { noVerdict with slot := s, mirror := mirrorOf d r s }
  match modelOf d r.epoch s with
  | some m =>
    let x := m.slotSec
    (d, { v with action := x.defAct, compat := x.defCompat, cls := x.defClass, colour := x.defColour, queue := x.defQueue
                 score := x.defScore })
  | none =>
    let a := fresh d
    let b := fresh a.2
    let x := a.1
    (b.2, { v with action := x % 16, compat := bit x 4, cls := bits x 5 8, colour := bits x 13 2, queue := b.1 % 2 ^ 20
                   score := bits b.1 20 16 })

/-- The verdict of the first pass's rule without inference, by malformed code (R87, step 2 of R292). -/
def ruleVerdict (d : Dev) (r : UnitRec) (code : Nat) : Verdict :=
  let x := firstRule r
  let own := code ≠ 1 ∧ code ≠ 2
  { noVerdict with
    action := if code = 1 then 1 else if code = 2 then 5 else Rule.action x
    compat := decide own && Rule.compat x
    cls := Rule.cls x, colour := Rule.colour x, queue := Rule.queue x
    mirror := mirrorOf d r (Rule.slot x), slot := Rule.slot x }

/-- Counts a verdict that carries a reserved native action (R88, R90). -/
def countRsvd (d : Dev) (v : Verdict) : Dev := tickIf (!v.compat && decide (6 ≤ v.action)) d Ctr.prsCompatRsvd

/-- The expiry verdict of a unit that has met a rule (R279). The epoch may be gone: its slot's default verdict was kept. -/
def expiryVerdict (d : Dev) (r : UnitRec) : Dev × Verdict :=
  let x := lastRule r
  let a := rd d (Reg.grfExpiryAct r.tenant)
  if a = 2 then
    let y := match r.dflt with | some v => (d, v) | none => defaultOf d r r.slot
    (y.1, { y.2 with score := 0 })
  else (d, { noVerdict with action := if a = 1 then 1 else if a = 3 then 5 else 0, cls := Rule.cls x
                            colour := Rule.colour x, queue := Rule.queue x, slot := r.slot })

/-- The record of the verdict map (R294), and the next slot where the HI side names one (R295). -/
def mapVerdict (d : Dev) (r : UnitRec) (cls score : Nat) : Verdict × Option Nat :=
  let s := r.slot
  let c := cls % 16
  let f := fun (x : Nat → Nat → Fld) => epF d r.epoch (x s c)
  let hi := decide (f Reg.vrdMapW0Thresh ≤ score)
  let x := lastRule r
  let keep := fun (k : Nat → Nat → Fld) (a b : Nat) => if f k = 1 then a else b
  ({ noVerdict with
     action := if hi then f Reg.vrdMapW0ActHi else f Reg.vrdMapW0ActLo
     compat := f Reg.vrdMapW0Compat == 1
     cls := keep Reg.vrdMapW0KeepClass (Rule.cls x) (f Reg.vrdMapW1Class)
     colour := keep Reg.vrdMapW0KeepColour (Rule.colour x) (f Reg.vrdMapW1Colour)
     queue := keep Reg.vrdMapW0KeepQueue (Rule.queue x) (f Reg.vrdMapW1Queue)
     mirror := mirrorOf d r s, score, slot := s },
   if hi ∧ f Reg.vrdMapW2NextEn = 1 then some (f Reg.vrdMapW2NextSlot) else none)

/-- What a pass ends in (steps 1 to 8 of R292): a record so far, or the slot of the next pass; the flags that it sets;
whether the record is step 7's, whether it is an expiry verdict, and whether the unit takes the time of a pass that found
the loop full (R20). -/
structure PassEnd where
  v : Verdict
  next : Option Nat
  flags : Nat
  mapped : Bool
  expired : Bool
  extra : Bool
  deriving DecidableEq, Repr

/-- A pass that ends in a record. -/
def ends (v : Verdict) (flags : Nat) : PassEnd := { v, next := none, flags, mapped := false, expired := false, extra := false }

/-- The default verdict of a slot with DEFAULT_USED (R19 to R21, R295). -/
def endDefault (d : Dev) (r : UnitRec) (s : Nat) (extra : Bool) : Dev × PassEnd :=
  let y := defaultOf d r s
  (y.1, { ends y.2 2 with extra })

/-- The result of the pass is missing at its slot (R21, R379, R405). -/
def missing (d : Dev) (r : UnitRec) (u : Nat) : Bool :=
  isAway d u || r.skel || r.failed || r.stage != .inferred || (unitModel d r).isNone

/-- Counts a missing result (R21, R379, R405) and gives the default verdict. -/
def endMissing (d : Dev) (u : Nat) (r : UnitRec) : Dev × PassEnd :=
  let d := tick d (Ctr.vrdNotReady r.slot)
  let d := tickIf (isAway d u) (tickIf r.skel d Ctr.fltSkeletonUnits) Ctr.trlHopLate
  endDefault d r r.slot false

/-- A recirculation to slot `s` (R18 to R20). -/
def endAgain (d : Dev) (r : UnitRec) (s : Nat) (full : Bool) : Dev × PassEnd :=
  if full then endDefault (tick d (Ctr.vrdRecircFull r.pipe)) r s true
  else (d, { ends noVerdict 0 with next := some s })

/-- Steps 1 to 8 of R292. `full` tells that the pipe's recirculation loop is full (R20). -/
def passEnd (d : Dev) (u : Nat) (r : UnitRec) (full : Bool) : Dev × PassEnd :=
  let code := r.malCode.getD 0
  let inf := r.pass ≠ 0 ∨ Rule.infer (firstRule r)
  if r.expired then
    let y := expiryVerdict d r
    (y.1, { ends y.2 16 with expired := true })
  else match r.verdict with
  | some v => (d, ends v v.flags)
  | none =>
    if r.pass = 0 ∧ (¬inf ∨ code = 1 ∨ code = 2 ∨ code = 4) then (d, ends (ruleVerdict d r code) 0)
    else if r.pass = 0 ∧ code = 3 then
      let y := defaultOf d r r.slot0
      (y.1, ends y.2 0)
    else if missing d r u then endMissing d u r
    else match unitModel d r with
    | none => endMissing d u r
    | some m =>
      if r.res = .nan then
        let y := defaultOf (tick d (Ctr.vrdNanScore r.slot)) r r.slot
        (y.1, ends y.2 64)
      else if r.pass + 1 < m.passes then endAgain d r r.slot full
      else match r.res with
      | .score c s =>
        let x := mapVerdict d r c s
        match x.2 with
        | none => (d, { ends x.1 0 with mapped := true })
        | some n =>
          if r.pass ≥ 2 then endDefault (tick d (Ctr.vrdPassLimit r.slot)) r r.slot false
          else if !activeIn d r.epoch n r.pipe then endDefault (tick d Ctr.vrdNextInactive) r r.slot false
          else endAgain d r n full
      | _ => endMissing d u r

/-- The records that a pass with a result writes into the leaf-path store (R187, R220). -/
def passRecords (d : Dev) (r : UnitRec) (flags : Nat) : Dev :=
  if r.skel ∨ r.expired ∨ bit flags 1 ∨ !rdB d Reg.espLpsCfgEnable then d else
  match unitModel d r with
  | none => d
  | some m =>
    let flow := match r.entry with | some (i, _) => i | none => 0xFFFFFFFF
    let d := match m.ens, r.leafOut with
      | some e, some (ms, ls) =>
        if e.record then writeLeaf d { evT := recT r, flow, tag := tagOf r, src := r.src, slot := r.slot, epoch := r.epoch
                                       tenant := r.tenant, pass := r.pass, structId := e.structId, margins := ms
                                       leaves := ls, addr := 0, size := 0, used := false }
        else d
      | _, _ => d
    match r.headOut with
    | some b => writeHead d { evT := recT r, flow, tag := tagOf r, src := r.src, slot := r.slot, epoch := r.epoch
                              tenant := r.tenant, pass := r.pass, structId := m.structId, body := b, addr := 0, size := 0
                              used := false }
    | none => d

/-- The MODEL trigger: the host's result of the last pass (R257). -/
def modelTrigger (d : Dev) (u : Nat) (r : UnitRec) : Dev :=
  match r.res with
  | .score c s => if r.slot = r.slot0 then trigger d u r 2 true fun f => bit f.classMask c && decide (f.scoreMin ≤ s) else d
  | _ => d

/-- Step 9: the verdict cache (R296). -/
def cacheStep (d : Dev) (r : UnitRec) (v : Verdict) : Dev × Verdict :=
  let c := r.cache
  let mode := epF d r.epoch (Reg.vrdSlotCfgCacheMode r.slot0)
  let flow := match modelOf d r.epoch (bits c 1 8) with | some m => m.flowKind && m.host == r.slot0 | none => false
  if !bit c 0 ∨ !flow ∨ mode = 0 ∨ mode = 3 ∨ (mode = 2 ∧ bits c 43 16 ≤ v.score) then (d, v)
  else (tick d (Ctr.vrdCacheUsed v.slot),
    { v with action := bits c 9 4, cls := bits c 13 8, colour := bits c 21 2, queue := bits c 23 20, score := bits c 43 16
             compat := false })

/-- The class of a deferred check that has failed in a frame with a good FCS (R79). -/
def deferCls (r : UnitRec) : Option Nat :=
  if (inlinePort r).isSome && r.parse.cls.isNone && r.fcs == some true then Parse.deferFail r.parse.defer r.len else none

/-- A deferred failure discards the inference result: its code is not INFER (R87). -/
def deferDrops (d : Dev) (r : UnitRec) : Bool := match deferCls r with | some c => malAct d r.tenant c != 0 | none => false

/-- Step 10: a deferred check has failed (R79, R87). Answers the flags too. -/
def deferStep (d : Dev) (r : UnitRec) (v : Verdict) : Dev × Verdict × Nat :=
  match deferCls r with
  | none => (d, v, 0)
  | some c =>
    let d := tick d (Ctr.prsMal r.pipe c)
    let put := fun (w : Verdict) => { v with action := w.action, compat := w.compat, cls := w.cls, colour := w.colour
                                             queue := w.queue, score := w.score }
    match malAct d r.tenant c with
    | 0 => (d, v, 4)
    | 3 =>
      if Rule.infer (firstRule r) then
        let y := defaultOf d r v.slot
        (y.1, put y.2, 4)
      else (d, v, 4)
    | k => (d, put (ruleVerdict d r k), 4)

/-- Step 12: the policers of every pass (R298, R300). Answers the policer colour and whether its red drops. -/
def policeStep (d : Dev) (r : UnitRec) (v : Verdict) : Dev × Option (Nat × Bool) :=
  let ps := (r.rules.filter Rule.policerEn).map Rule.policer
  if ps.isEmpty then (d, none)
  else if !gateOn d 14 then (tick d Ctr.vrdPolOff, none)
  else if (inlinePort r).isSome && r.fcs != some true then (d, none)
  else ps.foldl (fun (a : Dev × Option (Nat × Bool)) p =>
    let x := polUnit a.1 p r.len (recT r) v.colour
    (x.1, some (x.2, rd a.1 (objF p Reg.tmgPolModeRedDrop) == 1))) (d, none)

/-- Step 13: the Clengeand way (R89, R297). -/
def compatStep (d : Dev) (v : Verdict) (pol : Option Nat) : Verdict :=
  let c := v.cls
  let col := if v.colour = 3 then pol.getD 0 else v.colour
  let q := if v.queue = 0xFFFFF then rd d (Reg.clsCompatDefQueue c) else v.queue
  let disp := [0, 1, 2, 5].getD (rd d (Reg.clsCompatDisp c)) 0
  { v with colour := col, queue := q, action := if col = 2 ∧ rd d (Reg.clsCompatRedDrop c) = 1 then 1 else disp }

/-- Steps 12 and 13: policers and the compat form. -/
def colourSteps (d : Dev) (r : UnitRec) (v : Verdict) : Dev × Verdict :=
  let p := policeStep d r v
  if v.compat then (p.1, compatStep p.1 v (p.2.map (·.1)))
  else match p.2 with
    | none => (p.1, v)
    | some (c, drop) =>
      if c = 2 ∧ drop then (tick p.1 Ctr.vrdPolRedDrop, { v with colour := c, action := 1 }) else (p.1, { v with colour := c })

/-- The frame of an inline unit has failed its FCS check. -/
def fcsBad (r : UnitRec) : Bool := (inlinePort r).isSome && r.fcs == some false

/-- Step 14: a failed FCS (R42). -/
def fcsStep (d : Dev) (r : UnitRec) (v : Verdict) : Dev × Verdict × Nat :=
  match inlinePort r with
  | some n => if fcsBad r then (tick d (Ctr.prtRxErr n), { v with action := 1, compat := false }, 4) else (d, v, 0)
  | none => (d, v, 0)

/-- Steps 9 to 14 of R292; a unit that another member has served takes steps 10 and 14 alone (R378). -/
def lastSteps (d : Dev) (r : UnitRec) (p : PassEnd) : Dev × Verdict × Nat :=
  let served := r.verdict.isSome
  let a := if p.mapped then cacheStep d r p.v else (d, p.v)
  let b := deferStep a.1 r a.2
  let v := if r.cpuState && !served then { b.2.1 with action := 5 } else b.2.1
  let c := if served then (b.1, v) else colourSteps b.1 r v
  let e := fcsStep c.1 r c.2
  (countRsvd e.1 e.2.1, e.2.1, b.2.2 ||| e.2.2)

/-- What an expiry verdict still meets: an inline frame with a failed FCS is dropped all the same (R42; log entry 106). -/
def expiredSteps (d : Dev) (r : UnitRec) (p : PassEnd) : Dev × Verdict × Nat :=
  let e := fcsStep (tick d Ctr.grfExpiredUnits) r p.v
  (countRsvd e.1 e.2.1, e.2)

/-- Mirror sessions that the packet is copied to, each once (R304). -/
def mirrorsOf (r : UnitRec) (v : Verdict) : List Nat :=
  ((r.rules.filter Rule.mirrorEn).map Rule.mirror ++ (if v.action = 3 ∨ v.action = 4 then [v.mirror] else [])).eraseDups

/-- The packets that the actions make: the original on its queue, and each copy (R88, R303, R304). -/
def keepsOriginal (v : Verdict) : Bool := v.action == 0 || v.action == 2 || v.action == 4

/-- Events 1 and 16 of every packet that the action makes, by *L* (R442). -/
def actionCost (d : Dev) (r : UnitRec) (v : Verdict) : Nat :=
  if fcsBad r then 0 else
  (b2n (keepsOriginal v) + (mirrorsOf r v).length) * (coef d 1 * chunks64 r.len + coef d 16 * cdiv r.len 256)

/-- The tenant's Loupe counters of a unit whose record is formed: the units, and one counter for each flag (R481). -/
def tenantCounts (d : Dev) (t flags : Nat) : Dev :=
  let c := [Ctr.lpeTLate t, Ctr.lpeTDefaultUsed t, Ctr.lpeTMalformed t, Ctr.lpeTTruncated t, Ctr.lpeTEpochExpired t,
    Ctr.lpeTUnlearned t, Ctr.lpeTSaturated t]
  each (List.range 7) (lpeTick d (Ctr.lpeTUnits t)) fun d k => if bit flags k then lpeTick d (c.getD k 0) else d

/-- The actions of an INLINE pipe on a record (R88, R303, R304): the packet reaches stage 8 at `due`. -/
def inlineActions (d : Dev) (u : Nat) (r : UnitRec) (v : Verdict) (due : Nat) : Dev :=
  let p : QPkt := { unit := u, len := r.len, cells := r.cells, colour := v.colour, due, bytes := r.bytes }
  let d := if fcsBad r then d else
    let d := each (mirrorsOf r v) d fun d m => enqueueCopy d m p
    if keepsOriginal v then enqueueMain d v.queue r.tenant p else d
  let copy := !fcsBad r && (v.action == 2 || v.action == 5)
  let x := if copy then postTask d { cls := 0, src := 1, tenant := r.tenant, slot := v.slot, epoch := r.epoch, arg0 := u
                                     arg1 := recT r, seq := 0 }
    else (d, false)
  let d := if x.2 then setUnit x.1 u { r with stage := .done, hasCtx := false, verdict := some v } else delUnit x.1 u
  releaseCells d u r.cells

/-- The granted write of a unit whose turn was never computed is dropped with the unit (R223). -/
def endTurn (d : Dev) (u : Nat) (r : UnitRec) : Dev :=
  match r.entry with
  | some (i, _) => if (pendOf d i).any fun w => w.unit == u && w.val.isNone then dropPend d i u else d
  | none => d

/-- A RESULT message: the record and up to 16 partial margins of 6 bytes (R377). -/
def resultMsg (v : Verdict) (ms : List Int) : Bytes := verdictBytes v ++ (ms.take 16).flatMap fun m => leBytes 6 (uns 48 m)

/-- Returns a RESULT to the originating member: along its route, or over the link on which the unit came (R377, R378). -/
def sendResult (d : Dev) (peer l h : Nat) (res : Bool) (msg : Bytes) : Dev :=
  sendFrom d ((routeTo d peer).getD l) 8 (ownId d) peer h res msg

/-- The HANDOVER message of a deepened unit (R377): the values of the feature list, which every member has from the same image (log entry
99), and the partial margins. -/
def deepenMsg (r : UnitRec) (m : Model) : Bytes :=
  let idx := match m.ens with | some e => e.feats | none => []
  let ms := match r.leafOut with | some (ms, _) => ms | none => []
  let valid := (List.range idx.length).map fun j => if (find? r.feats (idx.getD j 0)).isSome then 2 ^ j else 0
  padTo 64 (leBytes 8 (recT r) ++ leBytes 1 r.slot ++ leBytes 1 r.epoch ++ leBytes 1 (r.pass + 1) ++ leBytes 1 r.tenant ++
    leBytes 1 r.src ++ leBytes 2 r.len) ++
  leBytes 32 valid.sum ++ (idx.flatMap fun i => leBytes 4 (getD r.feats i 0)) ++
  (ms.flatMap fun x => leBytes 6 (uns 48 x) ++ zeros 2)

/-- Sends the HANDOVER of a deepened unit to the member of its next stage, in slots that the schedule reserves; nothing where no link or
live member takes it (R376 to R379). `src` and `h` are the originator's ID and context number. -/
def deepenSend (d : Dev) (r : UnitRec) (m : Model) (next src h : Nat) : Dev :=
  match routeTo d next with
  | none => d
  | some l =>
    if memberLive d next && linkSends d l then sendFrom (tick d Ctr.trlHandoverTx) l 7 src next h true (deepenMsg r m) else d

/-- The record is formed: it is finalised and acted on, sent back to the member that handed the unit over, or kept for the
Stem response (R55, R88, R378, R441). `used` is what the unit has cost in this step so far. -/
def conclude (d : Dev) (u : Nat) (r : UnitRec) (v : Verdict) (extra : Bool) (used : Nat) : Dev :=
  match r.kind with
  | .inline n =>
    let _ := n
    let x := finalise d r.tenant v.slot 1 (r.energy + used + actionCost d r v) (occupancy d r) v
    let d := tenantCounts x.1 r.tenant x.2.flags
    let away := (if steers d r then 3200 else 0) + 1600 * r.hops
    pfcCheck (inlineActions d u r x.2 (r.evT + 1600 + 800 * r.pass + away + if extra then 800 else 0))
  | .stem .. =>
    -- a LATE request whose asynchronous update is not awaited has nothing left to answer (R58, R63)
    if r.late && !d.stm.async.any (fun a => a.unit == u) then delUnit d u
    else setUnit d u { r with stage := .done, verdict := some v }
  | .handover peer l h _ =>
    let d := finaliseHop d r.tenant v.slot (r.energy + used) (occupancy d r)
    pfcCheck (delUnit (sendResult d peer l h false (resultMsg v [])) u)
  | .job _ => d

/-- A pass of a unit handed over for deepening ends (R378): its margins go back or on to the next stage, or the default verdict goes back
where they are missing. -/
def deepenEnd (d : Dev) (u : Nat) (r : UnitRec) (peer l h used : Nat) : Dev :=
  let d := finaliseHop d r.tenant r.slot (r.energy + used) (occupancy d r)
  let d := if missing d r u then
      let x := endMissing d u r
      sendResult x.1 peer l h true (resultMsg { x.2.v with flags := x.2.flags, epoch := r.epoch } [])
    else match (unitModel d r).bind fun m => (nextStage d r m).map fun t => (m, t) with
      | some (m, t) => deepenSend d r m t peer h
      | none => sendResult d peer l h true (resultMsg noVerdict (match r.leafOut with | some (ms, _) => ms | none => []))
  pfcCheck (delUnit d u)

/-- The pass that has ended at the ingress member leaves a stage to another member (R378): the model and that member. -/
def handsOn (d : Dev) (u : Nat) (r : UnitRec) : Option (Model × Nat) :=
  if r.hopped ∨ r.expired ∨ r.verdict.isSome ∨ !infers r ∨ missing d r u ∨ r.res = .nan then none
  else (unitModel d r).bind fun m => (nextStage d r m).map fun t => (m, t)

/-- The ingress member hands a deepened unit on: it waits for the RESULT until its VRD slot (R378, R379). -/
def deepenAway (d : Dev) (u : Nat) (r : UnitRec) (m : Model) (next : Nat) : Dev :=
  let h := u % 2 ^ 18
  let d := passRecords { d with trl := { d.trl with away := set d.trl.away h u } } r 0
  deepenSend (setUnit d u { r with hopped := true, hops := r.hops + Config.hopCount d.cfg.device m.structId }) r m next (ownId d) h

/-- The VRD stage of a pass (R292). Records of the leaf-path store are written as the pass ends; a MODEL trigger fires on the result of the
last pass, where no deferred failure discards it (R87, R257; log entry 138: DESIGN CHOICE). -/
def verdictForm (d₀ : Dev) (u : Nat) (full : Bool) : Dev :=
  forUnit d₀ u fun d r =>
    if r.stage = .arrived ∨ r.stage = .waiting ∨ r.stage = .done ∨ !moving d ∨ !gateOn d 13 then d else
    match r.kind with
    | .job _ => d
    | .handover peer l h false => deepenEnd (meter d 15 1) u r peer l h (coef d 15)
    | _ =>
      match handsOn d u r with
      | some (m, t) => deepenAway d u r m t
      | none =>
      let p := passEnd d u r full
      match p.2.next with
      | some s =>
        setUnit (passRecords p.1 r p.2.flags) u
          { r with flags := r.flags ||| p.2.flags, stage := .waiting, prevSlot := r.slot, slot := s }
      | none =>
        if (inlinePort r).isSome && r.fcs.isNone then d else
        let d := meter (passRecords p.1 r p.2.flags) 15 1
        let d := if !p.2.expired && !bit p.2.flags 1 && !r.skel && !deferDrops d r then modelTrigger d u r else d
        let x := if p.2.expired then expiredSteps d r p.2 else lastSteps d r p.2
        let d := { x.1 with trl := { x.1.trl with away := x.1.trl.away.filter fun a => a.2 != u } }
        let fl := r.flags ||| p.2.flags ||| x.2.2
        let v := { x.2.1 with flags := fl, epoch := r.epoch, tag := tagOf r }
        conclude (endTurn d u r) u { r with flags := fl } v p.2.extra (d.sgn.d - d₀.sgn.d)

end Ops

/-- VERDICT_FORM (R292). -/
def execVerdictForm (unit : Nat) (full : Bool) (s : State) : Host.Outcome State Fault Refusal :=
  Ops.run s fun d => Ops.verdictForm d unit full

end Sys2Proof.Machine
end

