-- ==== Sys2Proof/Machine/Stm.lean ====
section
/-!
DEFINITION. Stm.lean: the Stem port: its flits (R46 to R49), requests (R50 to R54), responses and asynchronous updates (R55 to
R58), loss (R60, R61), the window (R64, R65), and what leaving ACTIVE does (R63).
-/
namespace Sys2Proof.Machine
namespace Ops

/-- `STM_STAT.STATE`, 0 DOWN to 5 RETRAIN (R62). -/
def stmState (d : Dev) : Nat := rd d Reg.stmStatState
def stmActive (d : Dev) : Bool := stmState d == 4 && gateOn d 5 && moving d

/-- Lanes that the Stem link runs on (R62). -/
def stmLanes (d : Dev) : Nat := if rdB d Reg.stmStatLanes8 then 8 else 16

/-- Sends a flit in the current slot: SEQ, and up to 255 pending credits (R49, R57). -/
def stmTx (d : Dev) (ty tag : Nat) (payload : Bytes) : Dev :=
  let c := min d.stm.credRet 255
  let h := put ty 0 4 + put tag 8 18 + put d.stm.txSeq 42 8 + put c 50 8
  let d := emit (meter d 2 1) (.stemFlit d.stm.slot (laneWords (stmLanes d) (flitBytes h payload)))
  { d with stm := { d.stm with txSeq := (d.stm.txSeq + 1) % 256, credRet := d.stm.credRet - c, cred := d.stm.cred + c
                               sent := d.stm.slot + 1 } }

/-- The fallback verdict of R52 with a flag of FLAGS. -/
def fallback (d : Dev) (tag flag : Nat) : Verdict :=
  { noVerdict with action := rd d Reg.stmFallbackVerdict0Action, cls := rd d Reg.stmFallbackVerdict0Class
                   colour := rd d Reg.stmFallbackVerdict0Colour, queue := rd d Reg.stmFallbackVerdict1Queue
                   flags := 2 ^ flag, epoch := curNum d, tag }

/-- Slots from the last flit of a request to its RSP (R55). -/
def windowSlots (d : Dev) : Nat :=
  let w := rd d Reg.stmWinCfgWindow
  if rdB d Reg.stmStatLanes8 then cdiv (25 * w) 2 else 25 * w

/-- Reserves the response position of a request that ended in slot `s`. -/
def reserve (d : Dev) (s : Nat) (r : StemRsp) : Dev :=
  { d with stm := { d.stm with rsps := d.stm.rsps ++ [{ r with due := s + windowSlots d }] } }

/-- STM answers a request itself (R51 to R54): its fallback verdict, and a credit returned. The model reads the fallback registers and the
current epoch as the request ends, not at its response (log entry 133: DESIGN CHOICE). -/
def stmAnswer (d : Dev) (s tag evT flits flag : Nat) : Dev :=
  let d := reserve d s { due := 0, tag, evT, unit := none, verdict := fallback d tag flag, energy := flits * coef d 2
                         discard := false }
  { d with stm := { d.stm with credRet := d.stm.credRet + 1 } }

/-- A request ends: it spends a credit where the switch has one (R53). `REQ` counts every request that STM takes to have ended, one cut
short among them (log entry 134: DESIGN CHOICE). -/
def stmSpend (d : Dev) (last : Bool) : Dev × Bool :=
  let d := tick d Ctr.stmReq
  if d.stm.cred > 0 then ({ d with stm := { d.stm with cred := d.stm.cred - 1 } }, true)
  else (tickIf last d Ctr.stmCreditViol, false)

/-- A malformed request that ended in slot `s` (R51). -/
def stmMalformed (d : Dev) (s tag evT flits : Nat) (last : Bool) : Dev :=
  let x := stmSpend d last
  stmAnswer (tick x.1 Ctr.stmMalformed) s tag evT flits 2

/-- The flit with LAST of the open request (R50 to R54, R26). -/
def stmEnd (d : Dev) (o : OpenReq) : Dev :=
  let s := d.stm.slot
  let x := stmSpend d true
  let d := x.1
  if !x.2 ∨ o.len = 0 ∨ 512 < o.len ∨ o.flits ≠ cdiv o.len 64 then
    stmAnswer (tick d Ctr.stmMalformed) s o.tag o.evT o.flits 2
  else if rd d Reg.stmPipesMask = 0 then stmAnswer (tick d Ctr.stmNoPipe) s o.tag o.evT o.flits 1
  else if ctxFree d = 0 then stmAnswer (tick d Ctr.stmCtxDefault) s o.tag o.evT o.flits 1
  else
    let u := addUnit d { newUnit (.stem o.tag o.chan o.kind) 0 (o.data.take o.len) o.len o.chan o.chan o.evT with
                         hasCtx := true, ctxT := now d, epoch := curNum d, energy := o.flits * coef d 2 }
    let d := { u.1 with stm := { u.1.stm with fifo := u.1.stm.fifo ++ [u.2] } }
    pfcCheck (reserve d s { due := 0, tag := o.tag, evT := o.evT, unit := some u.2, verdict := noVerdict, energy := 0
                            discard := false })

/-- A REQ flit (R49 to R51, R60). -/
def stmReq (d : Dev) (h : Nat) (payload : Bytes) : Dev :=
  let s := d.stm.slot
  let t := now d - rd d Reg.stmPhyLatRxNs
  let tag := bits h 8 18
  let add := fun (d : Dev) (o : OpenReq) =>
    let o := { o with data := if o.flits < 8 then o.data ++ payload else o.data, flits := o.flits + 1, lastSlot := s }
    if bit h 5 then stmEnd { d with stm := { d.stm with opened := none } } o
    else { d with stm := { d.stm with opened := some o } }
  if bit h 4 then
    let d := match d.stm.opened with
      | some o => stmMalformed d (s - 1) o.tag o.evT o.flits false
      | none => d
    add { d with stm := { d.stm with dropping := false, dropTag := none } }
      { tag, len := bits h 26 10, kind := bit h 6, chan := bits h 36 6, data := [], flits := 0, evT := t, lastSlot := s }
  else match d.stm.opened with
    | some o => add d o
    | none =>
      if d.stm.dropping then
        { d with stm := { d.stm with dropping := !bit h 5, dropTag := if bit h 5 then none else some tag } }
      else stmMalformed d s tag t 1 (bit h 5)

/-- The TAG of the damaged request, where a flit of it has arrived intact: of the open request, or of the one whose remains are being
dropped (R60). -/
def damagedTag (d : Dev) : Option Nat :=
  match d.stm.opened with
  | some o => some o.tag
  | none => if d.stm.dropping then d.stm.dropTag else none

/-- A gap in SEQ: `n` flits were lost from `first` on (R60). -/
def stmLoss (d : Dev) (first n : Nat) : Dev :=
  let tag := damagedTag d
  let nak := leBytes 1 first ++ leBytes 1 n ++ zeros 2 ++ match tag with
    | some t => leBytes 3 t ++ [1]
    | none => zeros 4
  let d := count d Ctr.stmFlitLost n
  { d with stm := { d.stm with naks := d.stm.naks ++ [nak], opened := none, dropping := true, dropTag := tag } }

/-- A record that leaves no flit is finalised for Signet all the same (R441). -/
def stmFinal (d : Dev) (u : Nat) (r : UnitRec) (v : Verdict) : Dev × Verdict :=
  let _ := u
  let x := finalise d r.tenant v.slot 2 r.energy (occupancy d r) v
  (tenantCounts x.1 r.tenant v.flags, x.2)

/-- The default verdict of a request whose result is not ready: of its current slot, with LATE (R24). A request that has not
come to stage 2 has no slot and no epoch yet: those fields are open. -/
def lateVerdict (d : Dev) (r : UnitRec) : Dev × Verdict :=
  if r.stage = .arrived then
    let a := fresh d
    let y := defaultOf a.2 { r with epoch := 256 } (a.1 % 256)
    (countRsvd y.1 y.2, { y.2 with epoch := a.1 / 256 % 256, flags := r.flags ||| 1, tag := tagOf r })
  else
    let y := defaultOf d r r.slot
    (countRsvd y.1 y.2, { y.2 with epoch := r.epoch, flags := r.flags ||| 1, tag := tagOf r })

/-- Enters RETRAIN (R61, R62). -/
def stmRetrain (d : Dev) : Dev := wr (pfcCheck (stmLeave d)) Reg.stmStatState 5

/-- A flit that fails its CRC (R60, R61). -/
def stmCrc (d : Dev) : Dev :=
  let d := tick d Ctr.stmCrcErr
  let iv := now d / 1000000
  let n := if d.stm.crcIv = iv then d.stm.crc + 1 else 1
  let d := { d with stm := { d.stm with crc := n, crcIv := iv } }
  let th := rd d Reg.stmErrCfgRetrainThresh
  if th ≠ 0 ∧ th ≤ n then stmRetrain d else d

/-- The outgoing flit of a slot that carries no RSP, NOTICE or ASYNC: a NAK, or IDLE (R57). -/
def stmIdle (d : Dev) : Dev :=
  if d.stm.slot < d.stm.sent ∨ d.stm.rsps.any (fun r => !r.discard && r.due == d.stm.slot) then d
  else match d.stm.naks with
    | n :: rest => stmTx { d with stm := { d.stm with naks := rest } } 4 0 n
    | [] => stmTx d 0 0 []

/-- One flit slot: what arrives in it (R46, R49, R60). `none` = the slot yields no flit. -/
def stmSlot (d : Dev) (lanes : Option (List Nat)) : Dev :=
  let d := stmIdle d
  let d := match slotFlit (stmLanes d) lanes with
    | none => d
    | some f =>
      if !flitOk f then stmCrc (meter d 2 1)
      else
        let h := le f 0 8
        let seq := bits h 42 8
        let d := meter d 2 1
        let d := match d.stm.expSeq with
          | none => d
          | some e =>
            let n := (seq + 256 - e) % 256
            if n = 0 then d else stmLoss d e n
        let d := { d with stm := { d.stm with expSeq := some ((seq + 1) % 256) } }
        if 8 ≤ h % 16 then tick d Ctr.stmCrcErr
        else if h % 16 = 1 then stmReq d h (slice f 8 64)
        else d
  { d with stm := { d.stm with slot := d.stm.slot + 1 } }

/-- The next LOOKASIDE pipe in rotation (R54). -/
def nextPipe (d : Dev) : Option Nat :=
  let ps := (List.range 8).filter fun p => bit (rd d Reg.stmPipesMask) p
  match ps.find? fun p => decide (d.stm.rot ≤ p) with
  | some p => some p
  | none => ps.head?

/-- A request leaves the FIFO (R53, R54). -/
def stmDispatch (d : Dev) : Dev :=
  if !stmActive d then d else
  match d.stm.fifo with
  | [] => d
  | u :: rest =>
    let d := { d with stm := { d.stm with fifo := rest, credRet := d.stm.credRet + 1 } }
    match nextPipe d with
    | some p => { modUnit d u fun r => { r with pipe := p } with stm := { d.stm with rot := p + 1 } }
    | none =>
      let e := match unit? d u with | some r => r.energy | none => 0
      let d := tick (delUnit d u) Ctr.stmNoPipe
      let own := fun (r : StemRsp) =>
        if r.unit = some u then { r with unit := none, verdict := fallback d r.tag 1, energy := e } else r
      pfcCheck { d with stm := { d.stm with rsps := d.stm.rsps.map own } }

/-- The payload of an RSP or ASYNC flit (R55). -/
def rspBytes (v : Verdict) (evT : Nat) : Bytes := verdictBytes v ++ leBytes 8 evT

/-- The tenant has asynchronous updates enabled (R58). -/
def asyncOn (d : Dev) (t : Nat) : Bool :=
  bit (rd d (if t < 32 then Reg.stmAsyncEn0Tenant else Reg.stmAsyncEn1Tenant)) (t % 32)

/-- The computation of a LATE request goes on for an asynchronous update (R58), which the flit layer discards where `off` (R63). -/
def awaitUpdate (d : Dev) (u tag : Nat) (off : Bool) : Dev :=
  { d with stm := { d.stm with
      async := d.stm.async ++ [{ unit := u, tag, limit := now d + 1000 * rd d Reg.stmAsyncCfgTimeout, off }] } }

/-- The RSP of a request that STM answers itself (R52). -/
def rspOwn (d : Dev) (r : StemRsp) : Dev :=
  let x := finalise d 0 256 2 (r.energy + coef d 2) 0 r.verdict
  stmTx (tick (tenantCounts x.1 0 x.2.flags) Ctr.stmRsp) 2 r.tag (rspBytes x.2 r.evT)

/-- The RSP of a request that a pipe serves (R24, R26, R55, R58). -/
def rspUnit (d : Dev) (r : StemRsp) (u : Nat) (q : UnitRec) : Dev :=
  let d := tick d Ctr.stmRsp
  let q := { q with energy := q.energy + coef d 2 }
  match q.stage, q.verdict with
  | .done, some v =>
    let x := stmFinal d u q v
    pfcCheck (delUnit (stmTx x.1 2 r.tag (rspBytes x.2 r.evT)) u)
  | _, _ =>
    let l := lateVerdict (tick d Ctr.stmLate) q
    if asyncOn l.1 q.tenant then
      let d := setUnit l.1 u { q with late := true }
      let d := awaitUpdate d u r.tag false
      stmTx (lpeTick d (Ctr.lpeTLate q.tenant)) 2 r.tag (rspBytes { l.2 with energy := 0 } r.evT)
    else
      let x := stmFinal l.1 u q l.2
      pfcCheck (stmTx (setUnit x.1 u { q with late := true, hasCtx := false }) 2 r.tag (rspBytes x.2 r.evT))

/-- A result that the flit layer discards at its position (R63). A request that is still computed there runs to completion, and its context
is kept where an asynchronous update would have followed. -/
def rspDiscard (d : Dev) (r : StemRsp) : Dev :=
  let d := tick d Ctr.stmLinkDiscard
  match r.unit with
  | none =>
    let x := finalise d 0 256 2 r.energy 0 r.verdict
    tenantCounts x.1 0 x.2.flags
  | some u => match unit? d u with
    | none => d
    | some q =>
      match q.stage, q.verdict with
      | .done, some v => pfcCheck (delUnit (stmFinal d u q v).1 u)
      | _, _ =>
        let l := lateVerdict d q
        if asyncOn l.1 q.tenant then awaitUpdate (setUnit l.1 u { q with late := true }) u r.tag true
        else pfcCheck (setUnit (stmFinal l.1 u q l.2).1 u { q with late := true, hasCtx := false })

/-- The position of the oldest response comes (R55, R63). -/
def stmResponse (d : Dev) : Dev :=
  match d.stm.rsps with
  | [] => d
  | r :: rest =>
    let d' := { d with stm := { d.stm with rsps := rest } }
    if r.discard = true then rspDiscard d' r
    else if !stmActive d ∨ d.stm.slot < r.due then d
    else match r.unit with
      | none => rspOwn d' r
      | some u => match unit? d' u with
        | some q => rspUnit d' r u q
        | none => d'

/-- The current slot is free for an ASYNC or NOTICE flit (R57). -/
def stmFree (d : Dev) : Bool :=
  stmActive d && decide (d.stm.sent ≤ d.stm.slot) && !d.stm.rsps.any fun r => !r.discard && r.due == d.stm.slot

/-- The first update of `as` whose record has been computed. -/
def updateReady (d : Dev) (as : List AsyncUpd) : Option (AsyncUpd × UnitRec × Verdict) :=
  as.findSome? fun a => match unit? d a.unit with
    | some r => match r.stage, r.verdict with | .done, some v => some (a, r, v) | _, _ => none
    | none => none

/-- An update is no longer awaited: its unit ends. -/
def endUpdate (d : Dev) (u : Nat) : Dev :=
  pfcCheck (delUnit { d with stm := { d.stm with async := d.stm.async.filter fun b => b.unit != u } } u)

/-- Sends the oldest update that has been computed (R57, R58): of the computed ones, the model takes the one whose LATE response came
first (log entry 135: DESIGN CHOICE). An update that the flit layer discards takes no slot (R63). -/
def stmAsync (d : Dev) : Dev :=
  match updateReady d (d.stm.async.filter (·.off)) with
  | some (a, r, v) => endUpdate (stmFinal (tick d Ctr.stmLinkDiscard) a.unit r v).1 a.unit
  | none =>
    if !stmFree d || !d.stm.naks.isEmpty then d else
    match updateReady d (d.stm.async.filter fun a => !a.off) with
    | none => d
    | some (a, r, v) =>
      let x := stmFinal (tick d Ctr.stmAsyncSent) a.unit { r with energy := r.energy + coef d 2 } v
      endUpdate (stmTx x.1 3 a.tag (rspBytes x.2 r.evT)) a.unit

/-- Updates whose limit has come are discarded (R58). -/
def stmAsyncTimeout (d : Dev) : Dev :=
  let out := d.stm.async.filter fun a => decide (a.limit ≤ now d)
  let d := { d with stm := { d.stm with async := d.stm.async.filter fun a => !decide (a.limit ≤ now d) } }
  each out d fun d a => match unit? d a.unit with
    | none => d
    | some r =>
      let x := match r.verdict with | some v => (d, v) | none => lateVerdict d r
      let y := stmFinal (tick x.1 Ctr.stmAsyncDrop) a.unit r x.2
      pfcCheck (if r.stage = .done then delUnit y.1 a.unit else setUnit y.1 a.unit { r with hasCtx := false })

/-- A write of `STM_WIN_CFG` by function `fn` (R65). -/
def windowWrite (d : Dev) (data : Nat) : Dev :=
  let w := data % 128
  if w < 20 ∨ 100 < w ∨ w < rd d Reg.stmWinMinMin then wr d Reg.stmStatWinRej 1
  else wrShd d Reg.stmWinCfgWindow w

/-- No request is outstanding in STM or in a LOOKASIDE pipe (R64). -/
def stmQuiet (d : Dev) : Bool :=
  d.stm.rsps.isEmpty && d.stm.async.isEmpty && !d.units.any fun p => isStem p.2

/-- The hand-over of the window at a flit slot (R64). -/
def windowHandover (d : Dev) : Dev :=
  if !stmFree d || !stmQuiet d || (find? d.shadow Reg.stmWinCfgWindow.key).isNone then d
  else
    let d := handover d [Reg.stmWinCfgWindow]
    stmTx d 7 0 (leBytes 2 (rd d Reg.stmWinCfgWindow))

end Ops

/-- STEM_FLIT_RECEIVE (R46, R49, R60). -/
def execStemFlitReceive (lanes : Option (List Nat)) (s : State) : Host.Outcome State Fault Refusal :=
  Ops.run s fun d => if Ops.stmActive d then Ops.stmSlot d lanes else d
/-- STEM_REQUEST_DISPATCH (R53, R54). -/
def execStemRequestDispatch (s : State) : Host.Outcome State Fault Refusal := Ops.run s Ops.stmDispatch
/-- STEM_RESPONSE_SEND (R24, R55). -/
def execStemResponseSend (s : State) : Host.Outcome State Fault Refusal := Ops.run s Ops.stmResponse
/-- STEM_ASYNC_SEND (R58). -/
def execStemAsyncSend (s : State) : Host.Outcome State Fault Refusal := Ops.run s Ops.stmAsync
/-- STEM_ASYNC_TIMEOUT (R58). -/
def execStemAsyncTimeout (s : State) : Host.Outcome State Fault Refusal := Ops.run s Ops.stmAsyncTimeout
/-- STEM_WINDOW_WRITE (R65). -/
def execStemWindowWrite (fn : Fn) (data : Word) (s : State) : Host.Outcome State Fault Refusal :=
  Ops.run s fun d => if Ops.tenantOf fn = 0 then Ops.access d fn.val 0x00500010 true fun d => Ops.windowWrite d data.toNat
    else d
/-- STEM_WINDOW_HANDOVER (R64). -/
def execStemWindowHandover (s : State) : Host.Outcome State Fault Refusal := Ops.run s Ops.windowHandover

end Sys2Proof.Machine
end

