-- ==== Sys2Proof/Machine/Links.lean ====
section
/-!
DEFINITION. Links.lean: the training of the Stem, Trellis and Clasp links (R62, R63, R371), reception on a Trellis or Clasp
link (R368, R369), and the Ethernet ports (R37 to R40).
-/
namespace Sys2Proof.Machine
namespace Ops

/-- A link: the Stem link, or Trellis and Clasp link 0 to 5. -/
def linkNo : LinkId → Option Nat
  | .stem => none
  | .trl k => some k.val
  | .clp k => some (4 + k.val)

/-- The control register of a link (R63, R371). -/
def linkCtlAddr : LinkId → Nat
  | .stem => 0x00500000
  | .trl k => 0x01200010 + 4 * k.val
  | .clp k => 0x01300028 + 4 * k.val

/-- The gate of a link's block reads ON. -/
def linkGate (d : Dev) (k : LinkId) : Bool :=
  match k with | .stem => gateOn d 5 | .trl _ => gateOn d 18 | .clp _ => gateOn d 19

/-- The registers of a link: ENABLE, STATE, PARAM_FAIL, TRAIN_TIMEOUT. -/
def linkRegs : LinkId → Fld × Fld × Fld × Fld
  | .stem => (Reg.stmCtlEnable, Reg.stmStatState, Reg.stmStatParamFail, Reg.stmStatTrainTimeout)
  | .trl k => (Reg.trlLinkCtlEnable k, Reg.trlLinkStatState k, Reg.trlLinkStatParamFail k, Reg.trlLinkStatTrainTimeout k)
  | .clp k => (Reg.clpLinkCtlEnable k, Reg.clpLinkStatState k, Reg.clpLinkStatParamFail k, Reg.clpLinkStatTrainTimeout k)

/-- The state of a link, 0 DOWN, 1 PHY_TRAIN, 2 ALIGN, 3 PARAM, 4 ACTIVE, 5 RETRAIN. -/
def lState (d : Dev) (k : LinkId) : Nat := rd d (linkRegs k).2.1
def lEnabled (d : Dev) (k : LinkId) : Bool := rdB d (linkRegs k).1

/-- Lanes with signal and the entry time of the state. -/
def lSignal (d : Dev) (k : LinkId) : Nat := match linkNo k with | none => d.stm.signal | some l => (link d l).signal
def lSince (d : Dev) (k : LinkId) : Nat := match linkNo k with | none => d.stm.since | some l => (link d l).since
def setSignal (d : Dev) (k : LinkId) (m : Nat) : Dev :=
  match linkNo k with
  | none => { d with stm := { d.stm with signal := m } }
  | some l => setLink d l { link d l with signal := m }

/-- Enters a state of the machine of R62. -/
def lEnter (d : Dev) (k : LinkId) (v : Nat) : Dev :=
  let d := wr d (linkRegs k).2.1 v
  match linkNo k with
  | none => { d with stm := { d.stm with since := now d } }
  | some l => setLink d l { link d l with since := now d }

/-- The lanes in `m` are all 16, or one group of 8 where 8 lanes may run (R62); a Trellis or Clasp link has 8 (R371). -/
def lanesOk (d : Dev) (k : LinkId) (m : Nat) : Bool :=
  match k with
  | .stem => m % 65536 == 65535 || (rdB d Reg.stmCtlAllow8lane && (m % 256 == 255 || m / 256 % 256 == 255))
  | _ => m % 256 == 255

/-- The event of the DOWN row is a standing condition (R62). -/
def lTry (d : Dev) (k : LinkId) : Dev :=
  if lState d k = 0 ∧ lEnabled d k ∧ lanesOk d k (lSignal d k) ∧ linkGate d k ∧ !fltFailed d then lEnter d k 1 else d

/-- Returns to DOWN and trains again at once where the condition stands. -/
def lDown (d : Dev) (k : LinkId) : Dev := lTry (lEnter d k 0) k

/-- The link leaves ACTIVE: the outstanding work of the Stem link (R63). A Trellis or Clasp link is lossless: it keeps the flits that no ACK
covers and those that wait (R369). -/
def lLeave (d : Dev) (k : LinkId) : Dev :=
  if lState d k ≠ 4 then d else
  match linkNo k with
  | none => pfcCheck (stmLeave d)
  | some _ => d

/-- Sends a flit of the training of the Stem link: slots are not counted yet (R49, R62). -/
def stmBare (d : Dev) (ty : Nat) (payload : Bytes) : Dev :=
  let b := flitBytes (put ty 0 4 + put d.stm.txSeq 42 8) payload
  let d := emit (meter d 2 1) (.stemFlit 0 (laneWords (stmLanes d) b))
  { d with stm := { d.stm with txSeq := (d.stm.txSeq + 1) % 256 } }

/-- ALIGN is entered: TRAIN flits carry the lane numbers, one byte a lane (R62, log entry 12). -/
def lAlign (d : Dev) (k : LinkId) : Dev :=
  let d := lEnter d k 2
  match linkNo k with
  | none =>
    let first := if rdB d Reg.stmStatLanes8 && decide (d.stm.locked % 256 ≠ 255) then 8 else 0
    stmBare d 6 (tab (stmLanes d) fun i => BitVec.ofNat 8 (first + i))
  | some l => sendBare d l 1 (tab 8 fun i => BitVec.ofNat 8 i)

/-- PARAM is entered: this side's PARAM flit (R62, R371): version, lanes, window, credits (log entry 12). -/
def lParam (d : Dev) (k : LinkId) : Dev :=
  let d := lEnter d k 3
  match linkNo k with
  | none => stmBare d 5 (leBytes 1 Config.stemVersion ++ leBytes 1 (stmLanes d) ++ leBytes 1 (rd d Reg.stmWinCfgWindow) ++
      leBytes 2 (rd d Reg.stmCreditCfgInit))
  | some l => if 4 ≤ l ∨ rdB d Reg.trlCfgEnable then sendBare d l 2 (paramBytes d l) else d

/-- ENABLE written 1 (R62). -/
def lEnable (d : Dev) (k : LinkId) : Dev :=
  if !linkGate d k then d else
  let d := wr d (linkRegs k).1 1
  lTry (if lSignal d k = 0 then setSignal d k 65535 else d) k

/-- ENABLE written 0 (R62). -/
def lDisable (d : Dev) (k : LinkId) : Dev :=
  if !linkGate d k then d else lEnter (wr (lLeave d k) (linkRegs k).1 0) k 0

/-- ACTIVE to RETRAIN (R62). -/
def lRetrain (d : Dev) (k : LinkId) : Dev := if lState d k = 4 then lEnter (lLeave d k) k 5 else d

/-- FEC lock on the lanes of `m` (R62). -/
def fecLock (d : Dev) (k : LinkId) (m : Nat) : Dev :=
  if lState d k ≠ 1 then d else
  match k with
  | .stem =>
    let d := { d with stm := { d.stm with locked := m % 65536 } }
    let lo := decide (m % 256 = 255)
    let hi := decide (m / 256 % 256 = 255)
    if lo && hi then lAlign (wr d Reg.stmStatLanes8 0) k
    else if lo != hi && rdB d Reg.stmCtlAllow8lane then lAlign (wr d Reg.stmStatLanes8 1) k
    else d
  | _ => if m % 256 = 255 then lAlign d k else d

/-- Slots count from the entry to ACTIVE and the credits are INIT (R62); the first SEQ and the latencies are open. -/
def stmStart (d : Dev) : Dev :=
  let a := fresh d
  let d := wrs a.2 [(Reg.stmPhyLatRxNs, bits a.1 8 16), (Reg.stmPhyLatTxNs, bits a.1 24 16)]
  { d with stm := { d.stm with slot := 0, sent := 0, txSeq := a.1 % 256, expSeq := none, cred := rd d Reg.stmCreditCfgInit
                               credRet := 0, opened := none, dropping := false, dropTag := none, naks := [] } }

/-- A Trellis or Clasp link enters ACTIVE: its sequence numbers and the flits it keeps go on, as it is lossless (R369). -/
def linkStart (d : Dev) (l : Nat) : Dev := setLink d l { link d l with crc := 0 }

/-- The registers of a Trellis or Clasp link that PARAM sets: PEER and ID_CLASH. -/
def peerRegs : LinkId → Option (Fld × Fld)
  | .stem => none
  | .trl k => some (Reg.trlLinkStatPeer k, Reg.trlLinkStatIdClash k)
  | .clp k => some (Reg.clpLinkStatPeer k, Reg.clpLinkStatIdClash k)

/-- PARAM flits have been exchanged (R62, R371). -/
def paramExchange (d : Dev) (k : LinkId) (p : PeerParam) : Dev :=
  if lState d k ≠ 3 then d else
  match k, linkNo k, peerRegs k with
  | .stem, _, _ =>
    if p.strap ∧ p.lanes = stmLanes d ∧ p.group = rd d Reg.stmWinCfgWindow ∧ p.id = rd d Reg.stmCreditCfgInit then
      lEnter (stmStart d) k 4
    else lDown (wr d Reg.stmStatParamFail 1) k
  | _, some l, some (peer, clash) =>
    let other := l < 4 ∧ (p.id = ownId d ∨ (bit (rd d Reg.trlStatLive) p.id ∧ routeTo d p.id ≠ some l))
    if l < 4 ∧ rdB d Reg.trlCfgEnable = false then d
    else if p.part ≠ rd d Reg.topIdPart ∨ p.group ≠ rd d Reg.trlCfgGroup then lDown (wr d (linkRegs k).2.2.1 1) k
    else if other then lDown (wr d clash 1) k
    else lEnter (wr (linkStart d l) peer p.id) k 4
  | _, _, _ => d

/-- A training state has lasted 10 ms (R62). -/
def trainingTimeout (d : Dev) (k : LinkId) : Dev :=
  if 1 ≤ lState d k ∧ lState d k ≤ 3 ∧ lSince d k + 10000000 ≤ now d then
    lDown (wr d (linkRegs k).2.2.2 1) k
  else d

/-- Outstanding work of a retraining link has cleared (R62, R63). -/
def retrainCleared (d : Dev) (k : LinkId) : Dev :=
  let clear := match k with | .stem => d.stm.rsps.isEmpty && d.stm.async.isEmpty | _ => true
  if lState d k == 5 && clear then lEnter d k 1 else d

/-- A flit that a Trellis or Clasp link cannot take: CRC_ERR, the threshold of R61, a NAK (R369, R371). -/
def linkBad (d : Dev) (l : Nat) : Dev :=
  let d := tick d (if l < 4 then Ctr.trlCrcErr else Ctr.clpCrcErr)
  let k := link d l
  let iv := now d / 1000000
  let n := if k.crcIv = iv then k.crc + 1 else 1
  let d := setLink d l { k with crc := n, crcIv := iv }
  let th := rd d (if l < 4 then Reg.trlErrCfgRetrainThresh else Reg.clpErrCfgRetrainThresh)
  if th ≠ 0 ∧ th ≤ n then setLinkState (setLink d l { link d l with since := now d }) l 5
  else sendNak d l

/-- The ACK of a flit covers held flits (R369). -/
def linkAck (d : Dev) (l ack : Nat) : Dev :=
  let k := link d l
  match firstIdx (fun h => h.1 == ack) k.held with
  | some i => setLink d l { k with held := k.held.drop (i + 1) }
  | none => d

/-- Resends every held flit from a SEQ (R369). -/
def linkReplay (d : Dev) (l seq : Nat) : Dev :=
  if !linkSends d l then d else
  match firstIdx (fun h => h.1 == seq) (link d l).held with
  | some i => each ((link d l).held.drop i) d fun d h =>
      emitFlit (tick d (if l < 4 then Ctr.trlReplay else Ctr.clpReplay)) l h.2
  | none => d

/-- The types that a link carries (R368). -/
def linkCarries (l ty : Nat) : Bool :=
  if l < 4 then ty < 13 else ty ≤ 3 || ty == 5 || ty == 6 || ty == 13 || ty == 14

/-- What arrives in a slot of a Trellis or Clasp link (R368, R369). What a message says comes with its own command. -/
def linkTake (d : Dev) (l : Nat) (lanes : Option (List Nat)) : Dev :=
  match slotFlit 8 lanes with
  | none => linkBad d l
  | some f =>
    let d := meter d 21 1
    if !flitOk f then linkBad d l
    else
      let h := le f 0 8
      let ty := h % 16
      let seq := bits h 13 8
      if !linkCarries l ty then tick d (if l < 4 then Ctr.trlCrcErr else Ctr.clpCrcErr)
      else
        let d := linkAck d l (bits h 21 8)
        let d := if ty = 3 then linkReplay d l (byteAt f 8)
          else if seq ≠ (link d l).expSeq then sendNak d l
          else if ty = 0 then d
          else setLink d l { link d l with expSeq := (seq + 1) % 256 }
        pump l (link d l).wait.length d

/-- A slot of a Trellis or Clasp link: what arrives in it, and an IDLE flit where nothing else leaves in it (R369, R370). -/
def linkReceive (d : Dev) (l : Nat) (lanes : Option (List Nat)) : Dev :=
  if linkState d l ≠ 4 then d else
  let d' := linkTake d l lanes
  if linkState d' l = 4 ∧ d'.out.length = d.out.length then sendBare d' l 0 [] else d'

/-- Lanes of a port in the port mode, and the port of a lane (R37). -/
def lanesPerPort (d : Dev) : Nat := [4, 2, 1, 1].getD (rd d Reg.prtModeMode) 1
def portOf (d : Dev) (lane : Nat) : Nat := lane / lanesPerPort d
/-- A lane of the port has failed (R40): the spec does not say whether its port may come up again, and the model keeps it down until reset,
LANE_FAIL cleared or not (log entry 136: DESIGN CHOICE). -/
def portBroken (d : Dev) (n : Nat) : Bool := d.prt.failed.any fun l => portOf d l == n

/-- A port may come up: it exists, is enabled, has an INLINE pipe that is not removed, and its lanes work (R14, R39, R400). -/
def portMayRise (d : Dev) (n : Nat) : Bool :=
  decide (n < portCount d) && gateOn d 4 && rdB d (Reg.prtPortCtlEnable n) && !portBroken d n && !fltFailed d &&
  match portPipe d n with | some p => !unitRemoved d (26 + p) 0 | none => false

/-- Auto-negotiation and link training of a port end; they run where both AN_EN and LT_EN are set (R39). -/
def autoNegotiation (d : Dev) (n : Nat) (ok : Bool) : Dev :=
  if !portMayRise d n ∨ !rdB d (Reg.prtPortCtlAnEn n) ∨ !rdB d (Reg.prtPortCtlLtEn n) then d
  else if ok then wr d (Reg.prtPortStatLinkUp n) 1
  else wrs d [(Reg.prtPortStatLinkUp n, 0), (Reg.prtPortStatAnFail n, 1)]

/-- A SerDes lane no longer works (R40): its port goes down with LANE_FAIL. -/
def laneLost (d : Dev) (l : Nat) : Dev :=
  let n := portOf d l
  let d := { d with prt := { d.prt with failed := if d.prt.failed.contains l then d.prt.failed else l :: d.prt.failed } }
  wrs d [(Reg.prtPortStatLinkUp n, 0), (Reg.prtPortStatLaneFail n, 1)]

/-- A SerDes lane fails (R40): FLT gets a LANE fault. -/
def laneFail (d : Dev) (l : Nat) : Dev := fault (laneLost d l) 6 6 (portOf d l)

end Ops

/-- LINK_ENABLE (R62). -/
def execLinkEnable (link : LinkId) (s : State) : Host.Outcome State Fault Refusal :=
  Ops.run s fun d => Ops.access d 0 (Ops.linkCtlAddr link) true fun d => Ops.lEnable d link
/-- LINK_DISABLE (R62, R63). -/
def execLinkDisable (link : LinkId) (s : State) : Host.Outcome State Fault Refusal :=
  Ops.run s fun d => Ops.access d 0 (Ops.linkCtlAddr link) true fun d => Ops.lDisable d link
/-- SIGNAL_DETECT (R62). -/
def execSignalDetect (link : LinkId) (lanes : Nat) (s : State) : Host.Outcome State Fault Refusal :=
  Ops.run s fun d => Ops.lTry (Ops.setSignal d link lanes) link
/-- FEC_LOCK (R62). -/
def execFecLock (link : LinkId) (lanes : Nat) (s : State) : Host.Outcome State Fault Refusal :=
  Ops.run s fun d => Ops.fecLock d link lanes
/-- LANE_ALIGN (R62). -/
def execLaneAlign (link : LinkId) (s : State) : Host.Outcome State Fault Refusal :=
  Ops.run s fun d => if Ops.lState d link = 2 then Ops.lParam d link else d
/-- PARAM_EXCHANGE (R62, R371). -/
def execParamExchange (link : LinkId) (peer : PeerParam) (s : State) : Host.Outcome State Fault Refusal :=
  Ops.run s fun d => Ops.paramExchange d link peer
/-- TRAINING_TIMEOUT (R62). -/
def execTrainingTimeout (link : LinkId) (s : State) : Host.Outcome State Fault Refusal :=
  Ops.run s fun d => Ops.trainingTimeout d link
/-- LOSS_OF_LOCK (R61, R62). -/
def execLossOfLock (link : LinkId) (s : State) : Host.Outcome State Fault Refusal := Ops.run s fun d => Ops.lRetrain d link
/-- RETRAIN (R62). -/
def execRetrain (link : LinkId) (s : State) : Host.Outcome State Fault Refusal :=
  Ops.run s fun d => Ops.access d 0 (Ops.linkCtlAddr link) true fun d => Ops.lRetrain d link
/-- RETRAIN_CLEARED (R62, R63). -/
def execRetrainCleared (link : LinkId) (s : State) : Host.Outcome State Fault Refusal :=
  Ops.run s fun d => Ops.retrainCleared d link
/-- LINK_FLIT_RECEIVE (R368, R369). -/
def execLinkFlitReceive (link : LinkId) (lanes : Option (List Nat)) (s : State) : Host.Outcome State Fault Refusal :=
  Ops.run s fun d => match Ops.linkNo link with | some l => Ops.linkReceive d l lanes | none => d
/-- AUTO_NEGOTIATION (R39). -/
def execAutoNegotiation (port : Port) (ok : Bool) (s : State) : Host.Outcome State Fault Refusal :=
  Ops.run s fun d => Ops.autoNegotiation d port.val ok
/-- PORT_LINK_UP (R39): a C2C port ignores AN_EN, so it is not asked here. -/
def execPortLinkUp (port : Port) (s : State) : Host.Outcome State Fault Refusal :=
  Ops.run s fun d => if Ops.portMayRise d port.val then Ops.wr d (Reg.prtPortStatLinkUp port.val) 1 else d
/-- RECAL (R40). -/
def execRecal (lane : Lane) (s : State) : Host.Outcome State Fault Refusal :=
  Ops.run s fun d => Ops.access d 0 (0x00400200 + 4 * lane.val) true fun d => Ops.wr d (Reg.prtLaneCtlRecalBusy lane.val) 1
/-- RECAL_DONE (R40). -/
def execRecalDone (lane : Lane) (ok : Bool) (s : State) : Host.Outcome State Fault Refusal :=
  Ops.run s fun d =>
    if Ops.rdB d (Reg.prtLaneCtlRecalBusy lane.val) then
      let d := Ops.wr d (Reg.prtLaneCtlRecalBusy lane.val) 0
      if ok then d else Ops.laneFail d lane.val
    else d
/-- LANE_FAIL (R40). -/
def execLaneFail (lane : Lane) (s : State) : Host.Outcome State Fault Refusal := Ops.run s fun d => Ops.laneFail d lane.val

end Sys2Proof.Machine
end

