-- ==== Sys2Proof/Machine/Trl.lean ====
section
/-!
DEFINITION. Trl.lean: a Trellis group: members and master (R372 to R375), hops (R377 to R379), steering (R380 to R382), floods
(R383), split groups (R385).
-/
namespace Sys2Proof.Machine
namespace Ops

/-- The member is live for R373. -/
def isLive (d : Dev) (id : Nat) : Bool := bit (rd d Reg.trlStatLive) id
def memberOf (d : Dev) (id : Nat) : Member := getD d.trl.members id default

/-- The master as this member computes it: the live eligible member with the lowest ID, itself among them (R374). -/
def computedMaster (d : Dev) : Option Nat :=
  lowest 8 fun id => if id = ownId d then d.straps.trlMaster else isLive d id && (memberOf d id).eligible

/-- The computed master may have changed: a new one must stand for 10 µs (R374). -/
def updateMaster (d : Dev) : Dev :=
  let m := computedMaster d
  if m = d.trl.cand then d
  else wr { d with trl := { d.trl with cand := m, candT := now d } } Reg.trlStatMasterValid 0

/-- The CURRENT epoch of the master, where this member knows it. -/
def masterEpoch (d : Dev) : Option Nat :=
  if !rdB d Reg.trlStatMasterValid then none
  else if isMaster d then some (curNum d)
  else if isLive d (rd d Reg.trlStatMaster) then some (memberOf d (rd d Reg.trlStatMaster)).epoch
  else none

/-- Whether this member is isolated, by the master's HELLO (R385). -/
def updateIsolated (d : Dev) : Dev :=
  match masterEpoch d with
  | none => d
  | some e =>
    if e ≠ curNum d ∧ rdB d Reg.grfGroupStatSplit then wr d Reg.trlStatIsolated 1
    else if e = curNum d ∧ !rdB d Reg.grfGroupStatSplit then wr d Reg.trlStatIsolated 0
    else d

/-- A HELLO message: ID, eligibility, CURRENT, live mask (R373, log entry 12). -/
def helloBytes (id : Nat) (eligible : Bool) (epoch live : Nat) : Bytes :=
  leBytes 1 id ++ leBytes 1 (b2n eligible) ++ leBytes 1 epoch ++ leBytes 1 live

/-- Sends this member's HELLO on every ACTIVE Trellis link (R373). -/
def helloSend (d : Dev) : Dev :=
  if !inGroup d || !moving d then d else
  let d := updateIsolated (updateMaster d)
  each [0, 1, 2, 3] d fun d l =>
    sendOn d l 4 15 0 (helloBytes (ownId d) d.straps.trlMaster (curNum d) (rd d Reg.trlStatLive))

/-- A HELLO arrives over a link (R373, R385): it is forwarded once along the route table, never back. -/
def helloReceive (d : Dev) (l id : Nat) (eligible : Bool) (epoch live : Nat) : Dev :=
  if !inGroup d || id == ownId d then d else
  let split := rdB d Reg.grfGroupStatSplit
  let far := match masterEpoch d with | some e => e != epoch | none => false
  let was := (memberOf d id).isolated
  let m : Member := { seen := now d, eligible, epoch, mask := live, isolated := far && (split || was) }
  let d := { d with trl := { d.trl with members := set d.trl.members id m } }
  let d := wr d Reg.trlStatLive (rd d Reg.trlStatLive ||| 2 ^ id)
  let d := updateIsolated (updateMaster d)
  let out := (List.range 4).filter fun k => k != l && (List.range 8).any fun j => j != ownId d && j != id && routeTo d j == some k
  each out d fun d k => sendFrom d k 4 id 15 0 false (helloBytes id eligible epoch live)

/-- No HELLO from a member for 5 µs (R373, R382). -/
def memberTimeout (d : Dev) (id : Nat) : Dev :=
  if isLive d id ∧ (memberOf d id).seen + 5000 ≤ now d then
    let d := wr d Reg.trlStatLive (rd d Reg.trlStatLive - 2 ^ id)
    updateMaster { d with trl := { d.trl with steer := d.trl.steer.filter fun e => e.2 % 8 != id } }
  else d

/-- Sends a claim that was held (R381). -/
def sendClaim (d : Dev) (i : Nat) : Dev :=
  if isMaster d then steerSet d i (ownId d) else sendTo d (rd d Reg.trlStatMaster) 11 0 (steerMsg 0 (ownId d) i)

/-- The computed master has stood for 10 µs (R374, R381). -/
def masterSettle (d : Dev) : Dev :=
  if !inGroup d then d else
  let d := updateMaster d
  match d.trl.cand with
  | none => d
  | some m =>
    if now d < d.trl.candT + 10000 ∨ rdB d Reg.trlStatMasterValid then d
    else
      let d := wrs d [(Reg.trlStatMaster, m), (Reg.trlStatMasterValid, 1)]
      -- the offset is that of a member to its master: 0 on the master (TRL_TB_OFF)
      let d := if m = ownId d then wr { d with trl := { d.trl with t1 := none } } Reg.trlTbOffOffset 0 else d
      let claims := d.trl.claims
      each claims { d with trl := { d.trl with claims := [] } } sendClaim

/-- Sends a TIME request to the master (R375). -/
def timeExchange (d : Dev) : Dev :=
  if inGroup d && rdB d Reg.trlStatMasterValid && !isMaster d then
    sendTo { d with trl := { d.trl with t1 := some (now d) } } (rd d Reg.trlStatMaster) 12 0
      (leBytes 1 0 ++ zeros 7 ++ leBytes 8 (now64 d))
  else d

/-- The master answers a TIME request with its stamps of receipt and reply (R375). -/
def timeRequest (d : Dev) (peer t1 : Nat) : Dev :=
  if inGroup d && isMaster d then
    sendTo d peer 12 0 (leBytes 1 1 ++ zeros 7 ++ leBytes 8 t1 ++ leBytes 8 (now64 d) ++ leBytes 8 (now64 d))
  else d

/-- A TIME reply gives the offset to the master (R375). -/
def timeReply (d : Dev) (t2 t3 : Nat) : Dev :=
  match d.trl.t1 with
  | none => d
  | some t1 =>
    if !inGroup d || isMaster d then d else
    let o : Int := (((now d : Int) - t3) - ((t2 : Int) - t1)).tdiv 2
    wrs { d with trl := { d.trl with t1 := none } }
      [(Reg.trlTbOffOffset, uns 32 o), (Reg.trlStatTbFar, b2n (decide (1000 < o.natAbs)))]

/-- The reserved recirculation cycles of a pipe, RECIRC_K of the DEVICE section (R33, R466). -/
def recircK (d : Dev) (p : Nat) : Nat := byteAt d.cfg.device (24 + p)

/-- The fields of a HANDOVER message's first flit (R377). -/
structure Hop where
  evT : Nat
  slot : Nat
  epoch : Nat
  passes : Nat
  steer : Bool
  tenant : Nat
  src : Nat
  len : Nat
  deriving DecidableEq, Repr

def hopOf (m : Bytes) : Hop :=
  { evT := le m 0 8, slot := le m 8 1, epoch := le m 9 1, passes := le m 10 1 % 4, steer := bit (le m 10 1) 2
    tenant := le m 11 1 % 64, src := le m 12 1, len := le m 13 2 }

/-- The words that a bitmap of `n` bytes marks, from the values that follow it: the words numbered `idx` in order. -/
def hopWords (m : Bytes) (n : Nat) (idx : List Nat) : Map Nat :=
  let valid := le m 64 n
  (idx.zip (List.range idx.length)).foldl (fun f p => if bit valid p.1 then set f p.1 (le m (64 + n + 4 * p.2) 4) else f) []

/-- A unit handed over for steering runs its first pass here (R378). The frame is not carried: its bytes are open. -/
def hopSteer (d : Dev) (p peer l handle : Nat) (h : Hop) (m : Bytes) : Dev :=
  let v := fresh d
  let r := newUnit (.handover peer l handle true) p (leBytes (min h.len 512) v.1) h.len (64 + peer) (h.src % 64) (h.evT + 1600)
  let r := { r with hasCtx := true, ctxT := now d, epoch := h.epoch
                    parse := { fb := hopWords m 16 (List.range 128), stack := [], trunc := false, cls := none, defer := [] } }
  let u := addUnit v.2 r
  forUnit u.1 u.2 fun d r => firstClassify (meter d 3 1) u.2 r

/-- A unit handed over for deepening runs a later pass of its slot (R378). -/
def hopDeepen (d : Dev) (p peer l handle : Nat) (h : Hop) (m : Bytes) : Dev :=
  let md := (modelOf d h.epoch h.slot).getD default
  let idx := match md.ens with | some e => e.feats | none => []
  let k := match md.ens with | some e => e.k | none => 0
  let base := 96 + 4 * idx.length
  let r := newUnit (.handover peer l handle false) p [] h.len h.src (h.src % 64) h.evT
  let r := { r with hasCtx := true, ctxT := now d, epoch := h.epoch, pass := h.passes, tenant := h.tenant, slot0 := h.slot
                    slot := h.slot, stage := .featured, skel := skeleton d
                    carried := tab k fun i => sgn 48 (le m (base + 8 * i) 6) }
  let f := Fea.run (feaEnv r []) (md.progLater.pre ++ md.progLater.post) (hopWords m 32 idx)
  let u := addUnit d { r with feats := f.1 }
  forUnit u.1 u.2 fun d _ => meter (meter d 3 1) 8 (md.progLater.pre.length + md.progLater.post.length)

/-- A HANDOVER message arrives over link `l` (R378, R379). `full`: no reserved ingress cycle of the pipe is free, as R20 states. -/
def handoverReceive (d : Dev) (l handle peer : Nat) (full : Bool) (m : Bytes) : Dev :=
  if !inGroup d || !moving d then d else
  let h := hopOf m
  let p := (Config.linkPipe l).val
  if full ∨ recircK d p = 0 ∨ ctxFree d = 0 ∨ (epoch? d h.epoch).isNone then
    let r := { newUnit (.handover peer l handle h.steer) p [] h.len h.src 0 h.evT with epoch := h.epoch }
    let v := defaultOf (tick d Ctr.trlHopDefault) r h.slot
    sendResult v.1 peer l handle (!h.steer) (resultMsg { v.2 with flags := 2, epoch := h.epoch } [])
  else
    let d := tick d Ctr.trlHandoverRx
    pfcCheck (if h.steer then hopSteer d p peer l handle h m else hopDeepen d p peer l handle h m)

/-- The verdict record that 16 bytes hold (R290). -/
def verdictOf (b : Bytes) : Verdict :=
  let x := le b 0 16
  { action := bits x 0 4, compat := bit x 4, flags := bits x 5 7, cls := bits x 12 8, colour := bits x 20 2
    queue := bits x 22 20, mirror := bits x 42 6, score := bits x 48 16, slot := bits x 64 8, epoch := bits x 72 8
    energy := bits x 80 16, tag := bits x 96 18 }

/-- The margins of a RESULT come to a deepened unit (R379): they hold the margins of every stage, this member's among them (log entry 99);
the link function applies to them here. -/
def resultMargins (d : Dev) (u : Nat) (r : UnitRec) (m : Bytes) : Dev :=
  match (unitModel d r).bind fun md => md.ens.map fun e => (md, e) with
  | none => d
  | some (md, e) =>
    let k := Esp.link e (tab e.k fun i => sgn 48 (le m (16 + 6 * i) 6))
    let d := tickIf k.sat d Ctr.espIdentSat
    let r := if k.sat then flagOr r 6 else r
    let res := match k.score with | some s => PassRes.score k.cls s | none => .none
    setUnit d u { r with res := if md.slotSec.scoreSrc = 0 then res else r.res }

/-- A RESULT arrives for a unit handed over (R379): the record of a steered unit, or a default verdict; the margins of a deepened one. -/
def resultReceive (d : Dev) (handle : Nat) (m : Bytes) : Dev :=
  if !inGroup d then d else
  match find? d.trl.away handle with
  | none => tick d Ctr.trlResultStale
  | some u =>
    withUnit { d with trl := { d.trl with away := del d.trl.away handle } } u fun r =>
      let d := { d with trl := { d.trl with away := del d.trl.away handle } }
      let v := verdictOf m
      if r.hopped ∧ bit v.flags 1 = false then resultMargins d u r m
      else setUnit d u { r with verdict := some v, stage := .inferred }

/-- The master applies a claim (R381). -/
def steerClaimReceive (d : Dev) (peer i : Nat) : Dev :=
  if !inGroup d || !isMaster d then d else
  let e := getD d.trl.steer i 0
  if !bit e 3 then steerSet d i peer
  else sendTo (tick d Ctr.trlClaimLost) peer 11 0 (steerMsg 2 (e % 8) i)

/-- A snapshot of a steering entry (R382). -/
def steerSnapshot (d : Dev) (data : Nat) : Dev :=
  let i := data % 2 ^ 20
  let e := getD d.trl.steer i 0
  wrs d [(Reg.trlSteerSelIndex, i), (Reg.trlSteerDataOwner, e % 8), (Reg.trlSteerDataValid, b2n (bit e 3)),
    (Reg.trlSteerDataProvisional, b2n (bit e 4))]

/-- A FLOOD message (R383), in bank order: a hit refreshes LAST_SEEN, PKTS and BYTES. -/
def floodReceive (d : Dev) (m : Bytes) : Dev :=
  if !inGroup d || !gateOn d 7 then d else
  let d := serveDue (tick d Ctr.trlFloodRx)
  let key := slice m 0 40
  match lookup d key with
  | none => d
  | some i => match ent? d i with
    | none => d
    | some e =>
      let d := tick d Ctr.trlFloodHit
      if standby d then d else mirrorState (touch d i e (le m 40 8 + 1600) (le m 48 2)) i

end Ops

/-- HELLO_SEND (R373). -/
def execHelloSend (s : State) : Host.Outcome State Fault Refusal := Ops.run s Ops.helloSend
/-- HELLO_RECEIVE (R373, R385). -/
def execHelloReceive (link : LinkId) (id : Nat) (eligible : Bool) (epoch live : Nat) (s : State) :
    Host.Outcome State Fault Refusal :=
  Ops.run s fun d => match link with | .trl k => Ops.helloReceive d k.val (id % 8) eligible epoch live | _ => d
/-- MEMBER_TIMEOUT (R373, R382). -/
def execMemberTimeout (id : Nat) (s : State) : Host.Outcome State Fault Refusal :=
  Ops.run s fun d => Ops.memberTimeout d (id % 8)
/-- MASTER_SETTLE (R374, R381). -/
def execMasterSettle (s : State) : Host.Outcome State Fault Refusal := Ops.run s Ops.masterSettle
/-- TIME_EXCHANGE (R375). -/
def execTimeExchange (s : State) : Host.Outcome State Fault Refusal := Ops.run s Ops.timeExchange
/-- TIME_REQUEST_RECEIVE (R375). -/
def execTimeRequestReceive (peer t1 : Nat) (s : State) : Host.Outcome State Fault Refusal :=
  Ops.run s fun d => Ops.timeRequest d peer t1
/-- TIME_REPLY (R375). -/
def execTimeReply (t2 t3 : Nat) (s : State) : Host.Outcome State Fault Refusal := Ops.run s fun d => Ops.timeReply d t2 t3
/-- HANDOVER_RECEIVE (R378, R379). -/
def execHandoverReceive (link : LinkId) (handle peer : Nat) (hop : HopArrival) (s : State) :
    Host.Outcome State Fault Refusal :=
  Ops.run s fun d => match link with | .trl k => Ops.handoverReceive d k.val handle (peer % 8) hop.full hop.msg | _ => d
/-- RESULT_RECEIVE (R379). -/
def execResultReceive (handle : Nat) (msg : Bytes) (s : State) : Host.Outcome State Fault Refusal :=
  Ops.run s fun d => Ops.resultReceive d handle msg
/-- STEER_CLAIM_RECEIVE (R381). -/
def execSteerClaimReceive (peer entry : Nat) (s : State) : Host.Outcome State Fault Refusal :=
  Ops.run s fun d => Ops.steerClaimReceive d (peer % 8) (entry % 2 ^ 20)
/-- STEER_SET_RECEIVE (R381). -/
def execSteerSetReceive (entry owner : Nat) (s : State) : Host.Outcome State Fault Refusal :=
  Ops.run s fun d =>
    if Ops.inGroup d then { d with trl := { d.trl with steer := Ops.set d.trl.steer (entry % 2 ^ 20) (owner % 8 + 8) } } else d
/-- STEER_ENTRY_SNAPSHOT (R382). -/
def execSteerEntrySnapshot (data : Word) (s : State) : Host.Outcome State Fault Refusal :=
  Ops.run s fun d => Ops.access d 0 0x01200050 true fun d => Ops.steerSnapshot d data.toNat
/-- FLOOD_RECEIVE (R383). -/
def execFloodReceive (_peer : Nat) (msg : Bytes) (s : State) : Host.Outcome State Fault Refusal :=
  Ops.run s fun d => Ops.floodReceive d msg

end Sys2Proof.Machine
end

