-- ==== Sys2Proof/Machine/Clp.lean ====
section
/-!
DEFINITION. Clp.lean: a Clasp pair: heartbeats and loss (R388), mirroring (R389, R390), takeover (R391), joining (R392), the
partner's chain heads (R455).
-/
namespace Sys2Proof.Machine
namespace Ops

/-- `CLP_STAT.STATE`: 0 DOWN, 1 SYNC, 2 PAIRED, 3 TAKEOVER, 4 ALONE. -/
def clpState (d : Dev) : Nat := rd d Reg.clpStatState
/-- The device has a partner: SYNC or PAIRED. -/
def clpPaired (d : Dev) : Bool := clpState d == 1 || clpState d == 2

/-- Sends a HEARTBEAT on both links (R388); an interval in which none has arrived counts. -/
def heartbeatSend (d : Dev) : Dev :=
  if !gateOn d 19 || !moving d then d else
  let miss := clpPaired d && (match d.clp.hb with | some t => decide (t + 1000 < now d) | none => false)
  let d := tickIf miss d Ctr.clpHbMiss
  let m := leBytes 1 (ownId d) ++ leBytes 1 (rd d Reg.clpStatRole) ++ leBytes 1 (fltState d) ++ leBytes 1 (curNum d)
  each [4, 5] d fun d l => sendOn d l 13 (ownId d) 0 m

/-- A takeover begins: mirroring stops (R391). -/
def takeoverStart (d : Dev) : Dev := wr { d with clp := { d.clp with dirty := [], join := none } } Reg.clpStatState 3

/-- The partner is lost (R388). -/
def partnerLost (d : Dev) : Dev :=
  let d := irq (wr d Reg.clpStatPartnerLost 1) Reg.clpIrqEn Reg.clpIrqVector
  if rdB d Reg.clpCfgAuto then takeoverStart d else d

/-- A HEARTBEAT arrives (R388). -/
def heartbeatReceive (d : Dev) (flt : Nat) : Dev :=
  if !gateOn d 19 then d else
  let d := { d with clp := { d.clp with hb := some (now d) } }
  if clpPaired d && 3 ≤ flt && flt ≤ 6 && !rdB d Reg.clpStatPartnerLost then partnerLost d else d

/-- No HEARTBEAT for 5 µs (R388). -/
def partnerTimeout (d : Dev) : Dev :=
  match d.clp.hb with
  | some t => if gateOn d 19 && clpPaired d && !rdB d Reg.clpStatPartnerLost && decide (t + 5000 ≤ now d) then partnerLost d else d
  | none => d

/-- `CLP_CTL.TAKEOVER` (R388, R391). -/
def takeoverWrite (d : Dev) : Dev :=
  if gateOn d 19 && clpPaired d && rdB d Reg.clpStatPartnerLost then takeoverStart d else d

/-- The survivor is in service alone (R391). -/
def takeoverDone (d : Dev) : Dev :=
  if clpState d ≠ 3 then d else
  -- a graft at READY that has no COMMIT is released
  let d := if d.grf.partDl.isSome then abortSoft d 0x31 0xFF else d
  let d := wrs d [(Reg.clpStatRole, 1), (Reg.clpOwnMask, 0xFFFF), (Reg.clpStatState, 4), (Reg.clpStatTakeoverDone, 1)]
  let d := wr64 { d with clp := { d.clp with partnerRec := true, hb := none } } Reg.clpTakeoverLoNs Reg.clpTakeoverHiNs (now64 d)
  irq (tick d Ctr.clpTakeover) Reg.clpIrqEn Reg.clpIrqVector

/-- Sends the oldest change to the partner (R389); a STATE delta takes the values current now. -/
def deltaSend (d : Dev) : Dev :=
  if (clpLink d).isNone || !gateOn d 19 || fltState d == 4 then d else
  match d.clp.dirty with
  | [] => d
  | x :: rest =>
    let d := { d with clp := { d.clp with dirty := rest } }
    let tail := leBytes 4 x.idx ++ leBytes 8 x.t
    match x.data with
    | some b => sendPartner (tick d Ctr.clpEntryTx) 14 ([0] ++ zeros 3 ++ tail ++ b)
    | none =>
      let b := match ent? d x.idx with | some e => entBytes e | none => zeros 128
      sendPartner (tick d Ctr.clpStateTx) 14 ([1] ++ zeros 3 ++ tail ++ slice b 40 88 ++ sideBytes (sideOf d x.idx))

/-- The lag of a delta that has been applied (R390). -/
def recordLag (d : Dev) (t : Nat) : Dev :=
  let lag := now d - t
  let d := wrs (tick d Ctr.clpDeltaRx) [(Reg.clpLagCur, min lag 65535), (Reg.clpLagMax, max (rd d Reg.clpLagMax) (min lag 65535))]
  if 20000 < lag then wr (tick d Ctr.clpLagExceed) Reg.clpStatLagExceeded 1 else d

/-- Places an entry that a delta carries; one that is not valid frees the index. -/
def mirrorPlace (d : Dev) (i : Nat) (b side : Bytes) : Dev :=
  let e := entOfBytes b
  let b := homeOf d i
  let others := (List.range 4).any fun w => 4 * b + w != i && (match ent? d (4 * b + w) with | some x => x.ueHold | none => false)
  let hold := d.flw.ueHold.filter (· != b)
  let d := { d with flw := { d.flw with ueHold := if (e.valid && e.ueHold) || others then b :: hold else hold } }
  if e.valid then putSide (putEnt d i e) i (sideOfBytes side) else freeEnt d i

/-- A delta of the partner is applied, as a command in bank order (R97, R389). -/
def deltaApply (d : Dev) (x : Delta) : Dev :=
  if !(clpPaired d || clpState d == 3) || !gateOn d 19 then d else
  let d := serveDue d
  match x with
  | .entry i b side t => recordLag (mirrorPlace (meter d 6 1) i b side) t
  | .state i b side t =>
    let d := match ent? d i with
      | some e => putSide (putEnt (meter d 6 1) i (entOfBytes (slice (entBytes e) 0 40 ++ b))) i (sideOfBytes side)
      | none => d
    recordLag d t
  | .scale p slot t v tm =>
    let d := match modelOf d (curNum d) slot with
      | some m => { d with qnt := set d.qnt (recKey m p t) { tensorRec d m p t with scale := v } }
      | none => d
    recordLag d tm

/-- What a JOIN compares (R392). -/
def joinFits (d : Dev) (p : JoinInfo) : Bool :=
  p.part == rd d Reg.topIdPart && p.mode == rd d Reg.clpCfgMode && p.bucketLog2 == rd d Reg.flwCfgBucketLog2 &&
  p.seed == rd64 d Reg.flwSeedLoSeed Reg.flwSeedHiSeed &&
  p.digest == (tab 8 fun i => leBytes 4 (rd d (Reg.cfgDigestBytes i))).flatten &&
  (!rdB d Reg.clpCfgMode || p.ownMask + d.clp.ownMask == 65535 && (p.ownMask &&& d.clp.ownMask) == 0) &&
  !(if p.survivor then p.draining else decide (1 < d.epochs.length))

/-- JOIN (R392): `p.survivor` tells that this device is the survivor, or the primary of a first pairing. -/
def joinWrite (d : Dev) (p : JoinInfo) : Dev :=
  if !gateOn d 19 ∨ (clpState d ≠ 0 ∧ clpState d ≠ 4) ∨ (clpLink d).isNone then d
  else if joinFits d p then { d with clp := { d.clp with join := some (p.survivor, p.epoch) } }
  else irq (wr d Reg.clpStatJoinFail 1) Reg.clpIrqEn Reg.clpIrqVector

/-- The CURRENT epoch takes another number: its rules' mask bit moves with it (R83, R392). -/
def renumber (d : Dev) (y : Nat) : Dev :=
  let x := curNum d
  let re := fun (e : Map RuleEnt) => e.map fun p => (p.1, { p.2 with epochs := if bit p.2.epochs (x % 4) then 2 ^ (y % 4) else 0 })
  let n := fun (k : Nat) => if k = x then y else k
  { d with epochs := d.epochs.map fun e => if e.num = x then { e with num := y } else e
           tcam := re d.tcam, em := re d.em
           units := d.units.map fun u => (u.1, { u.2 with epoch := n u.2.epoch })
           runQueue := d.runQueue.map fun r => { r with epoch := n r.epoch }
           runs := d.runs.map fun r => { r with epoch := n r.epoch } }

/-- The flow table is emptied for the mirror of the survivor (R392). -/
def emptyTable (d : Dev) : Dev := clearTable (each d.flw.ents d fun d p => keepCopies d p.1 fun _ => true)

/-- The boundary after a JOIN (R392): both devices enter SYNC. -/
def joinBoundary (d : Dev) : Dev :=
  match d.clp.join with
  | none => d
  | some (surv, e) =>
    if clpPaired d ∨ !moving d then d else
    let d := if surv then d else emptyTable (renumber d e)
    let d := wrs d [(Reg.clpStatState, 1), (Reg.clpSyncDone, 0)]
    { d with clp := { d.clp with sync := 0, hb := some (now d), dirty := [] } }

/-- Both devices enter PAIRED: the survivor's mask returns to its bit-stream value; the joining device becomes STANDBY, or takes
its OWN groups (R392). -/
def syncEnd (d : Dev) (surv : Bool) : Dev :=
  let two := rdB d Reg.clpCfgMode
  let d := wrs { d with clp := { d.clp with join := none } }
    [(Reg.clpStatState, 2), (Reg.clpSyncDone, 1), (Reg.clpOwnMask, d.clp.ownMask)]
  wr d Reg.clpStatRole (if surv || two then 1 else 2)

/-- The sweep visits the next bucket or group, or ends (R392). -/
def syncVisit (d : Dev) : Dev :=
  match d.clp.join with
  | none => d
  | some (surv, _) =>
    if clpState d ≠ 1 then d
    else if !surv then syncEnd d false
    else
      let n := d.clp.sync
      if n < buckets d + 4096 then
        let d := { d with clp := { d.clp with sync := n + 1 } }
        each (List.range 4) d fun d w => match ent? d (4 * n + w) with
          | some e => { d with clp := { d.clp with dirty := d.clp.dirty ++ [⟨4 * n + w, some (entBytes e ++ sideBytes (sideOf d (4 * n + w))), now d⟩] } }
          | none => d
      else if (match d.clp.dirty.head? with | some x => decide (now d ≤ x.t + 20000) | none => true) then syncEnd d true
      else d

end Ops

/-- HEARTBEAT_SEND (R388). -/
def execHeartbeatSend (s : State) : Host.Outcome State Fault Refusal := Ops.run s Ops.heartbeatSend
/-- HEARTBEAT_RECEIVE (R388). -/
def execHeartbeatReceive (_role fltState _epoch : Nat) (s : State) : Host.Outcome State Fault Refusal :=
  Ops.run s fun d => Ops.heartbeatReceive d fltState
/-- PARTNER_TIMEOUT (R388). -/
def execPartnerTimeout (s : State) : Host.Outcome State Fault Refusal := Ops.run s Ops.partnerTimeout
/-- TAKEOVER (R388, R391). -/
def execTakeover (s : State) : Host.Outcome State Fault Refusal :=
  Ops.run s fun d => Ops.access d 0 0x01300008 true Ops.takeoverWrite
/-- TAKEOVER_DONE (R391). -/
def execTakeoverDone (s : State) : Host.Outcome State Fault Refusal := Ops.run s Ops.takeoverDone
/-- MIRROR_DELTA_SEND (R389). -/
def execMirrorDeltaSend (s : State) : Host.Outcome State Fault Refusal := Ops.run s Ops.deltaSend
/-- MIRROR_DELTA_APPLY (R389, R390). -/
def execMirrorDeltaApply (delta : Delta) (s : State) : Host.Outcome State Fault Refusal :=
  Ops.run s fun d => Ops.deltaApply d delta
/-- CHAIN_HEAD_RECEIVE (R455). -/
def execChainHeadReceive (boot resets interval tenant chain count : Nat) (val : Bytes) (s : State) :
    Host.Outcome State Fault Refusal :=
  Ops.run s fun d =>
    if Ops.gateOn d 19 then
      { d with clp := { d.clp with heads := Ops.set d.clp.heads (Ops.chainKey tenant chain) ⟨boot, resets, interval, count, val⟩ } }
    else d
/-- JOIN (R392). -/
def execJoin (partner : JoinInfo) (s : State) : Host.Outcome State Fault Refusal :=
  Ops.run s fun d => Ops.access d 0 0x01300008 true fun d => Ops.joinWrite d partner
/-- JOIN_BOUNDARY (R392). -/
def execJoinBoundary (s : State) : Host.Outcome State Fault Refusal := Ops.run s Ops.joinBoundary
/-- SYNC_SWEEP_VISIT (R392). -/
def execSyncSweepVisit (s : State) : Host.Outcome State Fault Refusal := Ops.run s Ops.syncVisit

end Sys2Proof.Machine
end

