-- ==== Sys2Proof/Machine/Fabric.lean ====
section
/-!
DEFINITION. Fabric.lean: device memory as fabric clients see it: the flow table and its side records at their addresses (R91, R94,
R95), the regions whose contents the spec does not lay out, and everything else as bytes (R316, R320).
-/
namespace Sys2Proof.Machine.Ops

/-- Regions that the device fills without a layout of the spec's: models in MODEL and FLOW_MODEL while one is held, the packet
buffer and TMG's state while TMG's gate is not OFF (R253, R302, R320). -/
def openRegion (d : Dev) (id : Nat) : Bool :=
  if id = 2 ∨ id = 9 then d.epochs.any fun e => !e.cfg.models.isEmpty
  else (id == 3 || id == 4) && gate d 14 != .off

/-- The byte of device memory at `a`: of an entry that is held, of its side record, or as stored. -/
def fabByte (d : Dev) (a : Nat) : Byte :=
  let t := region d 0
  let s := region d 1
  if t.1 ≤ a ∧ a < t.1 + t.2 then
    match ent? d ((a - t.1) / 128) with
    | some e => (entBytes e).getD ((a - t.1) % 128) 0
    | none => byteGet d.mem.cells a
  else if s.1 ≤ a ∧ a < s.1 + s.2 then
    match ent? d ((a - s.1) / 16) with
    | some _ => (sideBytes (sideOf d ((a - s.1) / 16))).getD ((a - s.1) % 16) 0
    | none => byteGet d.mem.cells a
  else byteGet d.mem.cells a

/-- Some byte of the range lies in a region. -/
def meets (d : Dev) (id a n : Nat) : Bool := let r := region d id; decide (a < r.1 + r.2 ∧ r.1 < a + n)

/-- Reads `n` bytes at `a`: the bytes, and whether a line among them is poisoned. The contents of an open region are free
(log entry 4). -/
def fabRead (d : Dev) (a n : Nat) : Dev × Bytes × Bool :=
  let r := memRead d a n
  if [2, 3, 4, 9].any fun id => openRegion d id && meets d id a n then
    let f := fresh r.1
    (f.2, leBytes n f.1, r.2.2)
  else if meets d 0 a n || meets d 1 a n then (r.1, (List.range n).map fun i => fabByte r.1 (a + i), r.2.2)
  else r

/-- Makes entry `i` the one that the bytes of its place spell, after a fabric write there: an entry with VALID = 0 is no
entry, and its bytes stay as written. -/
def entFromBytes (d : Dev) (i : Nat) (b : Bytes) : Dev :=
  let a := entAddr d i
  if bit (byteAt b 50) 0 then setEnt (rawClear d a 128) i (entOfBytes b)
  else memPut { d with flw := { d.flw with ents := del d.flw.ents i } } a b

/-- Bytes land in the flow table. -/
def tableWrite (d : Dev) (a : Nat) (b : Bytes) : Dev :=
  let t := tableBase d
  each ((List.range ((a + b.length - 1 - t) / 128 + 1)).drop ((a - t) / 128)) d fun d i =>
    let lo := max a (t + 128 * i)
    let hi := min (a + b.length) (t + 128 * i + 128)
    let old := (List.range 128).map fun k => fabByte d (t + 128 * i + k)
    entFromBytes d i (splice old (lo - t - 128 * i) ((b.drop (lo - a)).take (hi - lo)))

/-- Bytes land in the side records. -/
def sideWrite (d : Dev) (a : Nat) (b : Bytes) : Dev :=
  let t := sideBase d
  each ((List.range ((a + b.length - 1 - t) / 16 + 1)).drop ((a - t) / 16)) d fun d i =>
    let lo := max a (t + 16 * i)
    let hi := min (a + b.length) (t + 16 * i + 16)
    let old := (List.range 16).map fun k => fabByte d (t + 16 * i + k)
    let new := splice old (lo - t - 16 * i) ((b.drop (lo - a)).take (hi - lo))
    if (ent? d i).isSome then setSide (rawClear d (t + 16 * i) 16) i (sideOfBytes new) else memPut d (t + 16 * i) new

/-- Writes bytes at `a` (R327). Those that land inside the flow table and the side records change the entry that lies there. -/
def fabWrite (d : Dev) (a : Nat) (b : Bytes) : Dev :=
  let r := codeWrite (meter d (memEvt a) (cdiv b.length 64)) a b
  each r.2 r.1 fun d p =>
    if meets d 0 p.1 p.2.length then tableWrite d p.1 p.2
    else if meets d 1 p.1 p.2.length then sideWrite d p.1 p.2
    else memPut d p.1 p.2

end Sys2Proof.Machine.Ops
end

