-- ==== Sys2Proof/Machine/DmaQ.lean ====
section
/-!
DEFINITION. DmaQ.lean: DMA channels and the fields of their descriptors (R344 to R349), and the end of the LINK tasks of a
replay (R230).
-/
namespace Sys2Proof.Machine.Desc
open Sys2Proof.Machine.Ops

/-! Fields of a descriptor (R348). -/
def src (x : Desc) : Nat := le x.raw 0 8
def dst (x : Desc) : Nat := le x.raw 8 8
def aux (x : Desc) : Nat := le x.raw 16 8
def len (x : Desc) : Nat := let n := le x.raw 24 2; if n = 0 then 65536 else n
def op (x : Desc) : Nat := byteAt x.raw 26
def irq (x : Desc) : Bool := bit (byteAt x.raw 27) 0
def barrier (x : Desc) : Bool := bit (byteAt x.raw 27) 1
def srcDev (x : Desc) : Bool := bit (byteAt x.raw 27) 2
def dstDev (x : Desc) : Bool := bit (byteAt x.raw 27) 3
def auxDev (x : Desc) : Bool := bit (byteAt x.raw 27) 4
def p0 (x : Desc) : Nat := le x.raw 28 4
def p1 (x : Desc) : Nat := le x.raw 32 4
def tag (x : Desc) : Nat := le x.raw 36 4
/-- A count of 20 bits in which 0 means 2^20. -/
def cnt20 (n : Nat) : Nat := if n % 2 ^ 20 = 0 then 2 ^ 20 else n % 2 ^ 20
/-- GATHER: COUNT and SRC_COUNT (R353). TRANSPOSE: RECORDS (R355). -/
def count (x : Desc) : Nat := cnt20 x.p0
def srcCount (x : Desc) : Nat := cnt20 x.p1
/-- PACK: source and destination width in bits (R354). -/
def sw (x : Desc) : Nat := 8 * 2 ^ bits x.p0 0 2
def dw (x : Desc) : Nat := 2 ^ bits x.p0 2 3
def elems (x : Desc) : Nat := x.len / (x.sw / 8)
/-- TRANSPOSE: STRIDE and F (R355). -/
def stride (x : Desc) : Nat := let n := bits x.p1 0 16; if n = 0 then 65536 else n
def feats (x : Desc) : Nat := bits x.p1 16 8 + 1
/-- Bytes of a feature record of TRANSPOSE. -/
def recLen (x : Desc) : Nat := 4 * x.feats + cdiv x.feats 8
/-- JOB, REPLAY: the slot; REPLAY: records in the last block, blocks, records in all (R357). -/
def slot (x : Desc) : Nat := bits x.p0 0 8
def lastCnt (x : Desc) : Nat := let n := bits x.p0 8 6; if n = 0 then 64 else n
def blocks (x : Desc) : Nat := let n := bits x.p1 0 16; if n = 0 then 65536 else n
def recs (x : Desc) : Nat := 64 * (x.blocks - 1) + x.lastCnt

end Sys2Proof.Machine.Desc

namespace Sys2Proof.Machine.Ops

/-- A channel; one that has never been enabled has nothing in flight. -/
def chan (d : Dev) (c : Nat) : Chan := getD d.chans c default
def setChan (d : Dev) (c : Nat) (x : Chan) : Dev := { d with chans := set d.chans c x }
def modChan (d : Dev) (c : Nat) (f : Chan → Chan) : Dev := setChan d c (f (chan d c))

/-- `DMA_CH_STAT_c.STATE`: 0 IDLE, 1 RUN, 2 PAUSED, 3 HALTED. -/
def chState (d : Dev) (c : Nat) : Nat := rd d (Reg.dmaChStatState c)
def setChState (d : Dev) (c v : Nat) : Dev := wr d (Reg.dmaChStatState c) v

/-- The tenant of a channel (R344): its owner; SPR acts as tenant 0. -/
def chTenant (d : Dev) (c : Nat) : Nat := tenantOf (rd d (Reg.dmaChOwnerOwner c))
/-- The function whose vectors the channel names; SPR's channels use the PF's. -/
def chFn (d : Dev) (c : Nat) : Nat := let o := rd d (Reg.dmaChOwnerOwner c); if o < 64 then o else 0

/-- Slots of a channel's ring (R346). -/
def ringSize (d : Dev) (c : Nat) : Nat := 2 ^ rd d (Reg.dmaChRingCfgSizeLog2 c)
/-- Address of slot `i` of the ring. -/
def ringSlot (d : Dev) (c i : Nat) : Nat := rd64 d (Reg.dmaChRingLoAddr c) (Reg.dmaChRingHiAddr c) / 64 * 64 + 64 * i

/-- The tenant's ring of KIND `k`: its lowest-numbered enabled channel of that kind (R344). -/
def ringChan (d : Dev) (tenant k : Nat) : Option Nat :=
  (d.chans.find? fun p => rd d (Reg.dmaChOwnerKind p.1) == k && chTenant d p.1 == tenant &&
    rd d (Reg.dmaChOwnerOwner p.1) != 127 && chState d p.1 != 0).map (·.1)

/-- The output of a descriptor once the LINK task `seq` of one of its records has ended (R230): with OK the score enters at
the score bytes of the class that the task returns; the spec names no entry for it (log entry 17). -/
def linkInto (x : Desc) (seq : Nat) (ok : Bool) (score win : Nat) : Desc :=
  match find? x.links seq with
  | none => x
  | some r =>
    let k := x.outb.length / (8 * x.recs)
    let o := if ok ∧ win < k then splice x.outb (8 * (k * r + win) + 6) (leBytes 2 score) else x.outb
    { x with links := del x.links seq, outb := o }

/-- A LINK task of a replay record has ended (R230). -/
def replayLinked (d : Dev) (seq : Nat) (ok : Bool) (score win : Nat) : Dev :=
  match d.chans.find? fun p => p.2.flight.any fun x => (find? x.links seq).isSome with
  | none => d
  | some (c, _) => modChan d c fun ch => { ch with flight := ch.flight.map fun x => linkInto x seq ok score win }

end Sys2Proof.Machine.Ops
end

