-- ==== Sys2Proof/Machine/Image.lean ====
section
/-!
DEFINITION. Image.lean: section tables (R244), certificate chains (R461), and the container of a bit-stream image with the
checks of R463 and R464.
-/
namespace Sys2Proof.Machine.Img
open Sys2Proof.Machine.Ops

/-- The offset of a field that breaks its rule: one where the condition fails. -/
def need (b : Bool) (off : Nat) : List Nat := if b then [] else [off]

/-- The first failing field: the one at the lowest offset. -/
def firstBad (l : List Nat) : Option Nat := match l with | [] => none | a :: r => some (r.foldl min a)

/-- All bytes of a range are zero. -/
def zeroAt (b : Bytes) (off n : Nat) : Bool := le b off n == 0

/-- A section: type, offset, length (R244), with the offset of its table entry. -/
structure Sec where
  type : Nat
  off : Nat
  len : Nat
  at_ : Nat
  deriving DecidableEq, Repr, Inhabited

/-- The entries of a section table at `t`. -/
def secTable (b : Bytes) (t n : Nat) : List Sec :=
  tab n fun i => ⟨le b (t + 16 * i) 1, le b (t + 16 * i + 4) 4, le b (t + 16 * i + 8) 4, t + 16 * i⟩

def findSec (l : List Sec) (type : Nat) : Option Sec := l.find? (·.type == type)

/-- The first non-zero byte from position `i` on that no section covers. -/
def strayByte (l : List Sec) : Nat → Bytes → Option Nat
  | _, [] => none
  | i, x :: r => if x ≠ 0 ∧ !(l.any fun s => decide (s.off ≤ i ∧ i < s.off + s.len)) then some i else strayByte l (i + 1) r

/-- The rules of a section table (R243, R244, R459): the failing fields. `limit` is the end of the sections' space. -/
def secFails (b : Bytes) (l : List Sec) (t limit : Nat) (known : Nat → Bool) : List Nat :=
  let start := t + 16 * l.length
  (l.flatMap fun s =>
    need (known s.type && (l.filter (·.type == s.type)).length == 1) s.at_ ++ need (zeroAt b (s.at_ + 1) 3) (s.at_ + 1) ++
    need (decide (s.off % 64 = 0 ∧ start ≤ s.off ∧ s.off + s.len ≤ limit) &&
      l.all fun u => u.at_ == s.at_ || decide (u.off + u.len ≤ s.off ∨ s.off + s.len ≤ u.off)) (s.at_ + 4) ++
    need (zeroAt b (s.at_ + 12) 4) (s.at_ + 12)) ++
  (match strayByte l start ((b.take limit).drop start) with | some i => [i] | none => [])

/-- A DER element: tag, the element whole, its contents, and what follows it. -/
def tlv (b : Bytes) : Option (Nat × Bytes × Bytes × Bytes) :=
  let l := byteAt b 1
  let h := if l < 128 then some (2, l) else if l = 0x81 then some (3, byteAt b 2)
    else if l = 0x82 then some (4, beNat (slice b 2 2)) else if l = 0x83 then some (5, beNat (slice b 2 3)) else none
  match h with
  | none => none
  | some (k, n) => if b.length < k + n then none
      else some (byteAt b 0, b.take (k + n), (b.drop k).take n, b.drop (k + n))

/-- The contents of an element with the tag, and what follows it. -/
def tagged (t : Nat) (b : Bytes) : Option (Bytes × Bytes) :=
  match tlv b with
  | some (x, _, c, r) => if x = t then some (c, r) else none
  | none => none

/-- An element with the tag, whole, and what follows it. -/
def whole (t : Nat) (b : Bytes) : Option (Bytes × Bytes) :=
  match tlv b with
  | some (x, w, _, r) => if x = t then some (w, r) else none
  | none => none

/-- What the device reads of an X.509 certificate (R461). -/
structure Cert where
  tbs : Bytes
  issuer : Bytes
  subject : Bytes
  spki : Bytes
  pub : Bytes
  sig : Bytes
  deriving DecidableEq, Repr, Inhabited

/-- The P-384 point of a SubjectPublicKeyInfo (key type check of R461). -/
def p384Point (spki : Bytes) : Option Bytes := do
  let (c, _) ← tagged 0x30 spki
  let (alg, r) ← tagged 0x30 c
  let (key, _) ← tagged 0x03 r
  if alg = [0x06, 0x07, 0x2A, 0x86, 0x48, 0xCE, 0x3D, 0x02, 0x01, 0x06, 0x05, 0x2B, 0x81, 0x04, 0x00, 0x22] ∧
      key.length = 98 ∧ byteAt key 0 = 0 ∧ byteAt key 1 = 4 then some (key.drop 1) else none

/-- A DER integer as 48 big-endian bytes. -/
def int48 (b : Bytes) : Option Bytes :=
  let x := b.dropWhile (· == 0)
  if x.length ≤ 48 then some (zeros (48 - x.length) ++ x) else none

/-- r and s of an ECDSA signature in its BIT STRING. -/
def ecdsaSig (bits_ : Bytes) : Option Bytes := do
  let (c, _) ← tagged 0x30 (bits_.drop 1)
  let (r, x) ← tagged 0x02 c
  let (s, _) ← tagged 0x02 x
  let r ← int48 r
  let s ← int48 s
  some (r ++ s)

/-- One certificate, and what follows it (R461): X.509 v3 with a P-384 key. -/
def cert (b : Bytes) : Option (Cert × Bytes) := do
  let (c, rest) ← tagged 0x30 b
  let (tbs, r) ← whole 0x30 c
  let (_, r) ← whole 0x30 r
  let (sigBits, _) ← tagged 0x03 r
  let (t, _) ← tagged 0x30 tbs
  let (ver, t) ← tagged 0xA0 t
  let (_, t) ← whole 0x02 t
  let (_, t) ← whole 0x30 t
  let (issuer, t) ← whole 0x30 t
  let (_, t) ← whole 0x30 t
  let (subject, t) ← whole 0x30 t
  let (spki, _) ← whole 0x30 t
  let pub ← p384Point spki
  let sig ← ecdsaSig sigBits
  if ver = [0x02, 0x01, 0x02] then some (⟨tbs, issuer, subject, spki, pub, sig⟩, rest) else none

/-- The certificates of a chain, at most `n`; nothing may follow the last. -/
def certs : Nat → Bytes → Option (List Cert)
  | 0, b => if b.isEmpty then some [] else none
  | n + 1, b => if b.isEmpty then some [] else
    match cert b with
    | none => none
    | some (c, r) => (certs n r).map (c :: ·)

/-- Each certificate is issued by the next; the last by its own key, whose hash names the root slot (R461). -/
def linked : List Cert → Bool
  | [] => true
  | [c] => c.issuer == c.subject && Config.ecdsaP384 c.pub c.tbs c.sig
  | c :: n :: r => c.issuer == n.subject && Config.ecdsaP384 n.pub c.tbs c.sig && linked (n :: r)

/-- Checks a certificate chain: the leaf's key and the root slot that it ends at (R461). -/
def chain (d : Dev) (b : Bytes) : Option (Bytes × Nat) :=
  match certs 4 b with
  | none => none
  | some l =>
    match l.head?, l.getLast? with
    | some leaf, some root =>
      let h := Config.sha384 root.spki
      let slot := lowest 4 fun k => bit d.sec.programmed k && !bit d.sec.revoked k && d.sec.roots.getD k [] == h
      if linked l then slot.map fun k => (leaf.pub, k) else none
    | _, _ => none

/-- A signature over bytes by any of the keys of a purpose (R460, R462). -/
def anyKey (keys : List VerKey) (purpose tenant : Nat) (msg sig : Bytes) : Bool :=
  keys.any fun k => k.purpose == purpose && k.tenant == tenant && Config.ecdsaP384 k.key msg sig

/-- A checked bit-stream image: its sections in the clear (type, offset, bytes), DIGEST, VERSION and SVN. -/
structure Image where
  secs : List (Nat × Nat × Bytes)
  digest : Bytes
  version : Nat
  svn : Nat
  deriving DecidableEq, Repr, Inhabited

/-- What a check answers: the checked thing, or a code with the offset of the first failing field where the code is FORMAT. -/
inductive Chk (α : Type) where
  | ok (a : α)
  | bad (code off : Nat)
  deriving DecidableEq, Repr

/-- Types that a base image must hold, may hold; types of partial images (R465). -/
def required : List Nat := [0x01, 0x02, 0x03, 0x04, 0x06]
def optional : List Nat := [0x05, 0x07, 0x08, 0x09, 0x0A]
def partialTypes : List Nat := [0x01, 0x02, 0x03, 0x04, 0x05, 0x06]

/-- The failing fields of step 1 of R463. -/
def headFails (b : Bytes) (base : Bool) (limit : Nat) : List Nat :=
  let n := le b 11 1
  let total := le b 12 4
  let cl := le b 24 4
  let t := 128 + 64 * cdiv cl 64
  let secs := secTable b t n
  need (b.take 4 = [0x41, 0x51, 0x42, 0x53]) 0 ++ need (le b 4 2 == 1) 4 ++ need (le b 6 1 == b2n (!base)) 6 ++
  need (le b 7 1 < 2) 7 ++ need (if base then decide (5 ≤ n ∧ n ≤ 10) else n == 1) 11 ++
  need (decide (t + 16 * n + 96 ≤ total ∧ total ≤ b.length ∧ total ≤ limit)) 12 ++ need (le b 20 1 < 64) 20 ++
  need (zeroAt b 21 3) 21 ++ need (decide (1 ≤ cl ∧ cl ≤ 16384)) 24 ++ need (zeroAt b 28 4) 28 ++
  need (zeroAt b 72 56) 72 ++ need (zeroAt b (128 + cl) (t - 128 - cl)) (128 + cl) ++
  need (!base || required.all fun x => (findSec secs x).isSome) 11 ++
  secFails b secs t (total - 96) (if base then (required ++ optional).contains else partialTypes.contains) ++
  (secs.flatMap fun s => need (le b 7 1 == 0 || s.type == 6 || decide (16 ≤ s.len)) (s.at_ + 8))

/-- A section in the clear (R464); `j` is its place in the table. -/
def plain (d : Dev) (b : Bytes) (j : Nat) (s : Sec) : Option (Nat × Nat × Bytes) :=
  let c := slice b s.off s.len
  if le b 7 1 = 0 ∨ s.type = 6 then some (s.type, s.off, c)
  else match d.sec.imgKey with
    | none => none
    | some k =>
      (Config.aesGcmOpen k (slice b 64 8 ++ leBytes 4 j) (slice b s.at_ 16) (c.take (s.len - 16)) (c.drop (s.len - 16))).map
        fun p => (s.type, s.off, p)

/-- Steps 1 to 4 of R463. -/
def container (d : Dev) (b : Bytes) (base : Bool) (limit : Nat) : Chk Image :=
  match firstBad (headFails b base limit) with
  | some o => .bad 0x21 o
  | none =>
    let total := le b 12 4
    let cl := le b 24 4
    let step := 16 * rd d Reg.topIdStepMajor + rd d Reg.topIdStepMinor
    if le b 8 2 ≠ rd d Reg.topIdPart then .bad 0x22 8
    else if step < le b 10 1 then .bad 0x22 10
    else if le b 20 1 < d.sec.svn then .bad 0x22 20
    else
      let body := b.take (total - 96)
      let digest := slice b 32 32
      if digest ≠ Codes.sha256 (slice b 0 32 ++ body.drop 64) then .bad 0x20 32
      else match chain d (slice b 128 cl) with
        | none => .bad 0x20 128
        | some (pub, _) =>
          if !Config.ecdsaP384 pub body (slice b (total - 96) 96) then .bad 0x20 (total - 96)
          else
            let secs := secTable b (128 + 64 * cdiv cl 64) (le b 11 1)
            match ((List.range secs.length).mapM fun j => plain d b j (secs.getD j default)) with
            | none => .bad 0x20 (128 + 64 * cdiv cl 64)
            | some l => .ok { secs := l, digest, version := le b 16 4, svn := le b 20 1 }

end Sys2Proof.Machine.Img
end

