-- ==== Sys2Proof/Machine/Runs.lean ====
section
/-!
DEFINITION. Runs.lean: flow-model runs (R257 to R260, R230) and the assignment of slots (R249).
-/
namespace Sys2Proof.Machine
namespace Ops

/-- The first run of the queue that holds its features leaves it, and takes a context or is discarded (R257). Flow models
live in HBM (R402, R426). -/
def runStart (d : Dev) : Dev :=
  if !moving d ∨ !hbmUp d ∨ skeleton d ∨ fltFailed d then d else
  match firstIdx (·.ready) d.runQueue with
  | none => d
  | some i =>
    let q := d.runQueue.getD i default
    let d := { d with runQueue := d.runQueue.eraseIdx i }
    if ctxFree d = 0 then tick d Ctr.cfgTrigNoctx
    else pfcCheck { d with runs := d.runs ++ [{ q with ctxT := now d }] }

/-- Signet meters a run that has completed or is abandoned (R258, R278, R441); Loupe counts it (R481). -/
def finishRun (d : Dev) (q : FlowRun) (occ : Nat) : Dev :=
  lpeTick (finaliseRun d q.tenant q.slot q.energy occ) (Ctr.lpeTFlowRuns q.tenant)

/-- A run that has left the queue ends: its context is released (R258). -/
def endRun (d : Dev) (i : Nat) : Dev :=
  let q := d.runs.getD i default
  pfcCheck (finishRun { d with runs := d.runs.eraseIdx i } q (now d - q.ctxT))

/-- Writes the verdict cache of a run's entry with the winning class and score, as a command in bank order (R97, R259); nothing in STANDBY
(R387). -/
def writeCache (d : Dev) (q : FlowRun) (cls score : Nat) : Dev :=
  let d := serveDue d
  match ent? d q.entry with
  | none => tick d Ctr.cfgCacheStale
  | some _ =>
    if genOf d q.entry ≠ q.gen then tick d Ctr.cfgCacheStale
    else if standby d then d
    else
      let c := match (modelOf d q.epoch q.slot).bind (·.flow) with | some f => f.cache.getD (cls % 16) 0 | none => 0
      let w := 1 + put q.slot 1 8 + put (bits c 0 4) 9 4 + put (bits c 4 8) 13 8 + put (bits c 12 2) 21 2 +
        put (bits c 14 20) 23 20 + put score 43 16
      mirrorState (meter (putSide d q.entry { sideOf d q.entry with cache := w }) 6 1) q.entry

/-- The result of a completed run reaches the cache (R259). -/
def runResult (d : Dev) (i : Nat) (r : PassRes) : Dev :=
  let q := d.runs.getD i default
  let d := match r with
    | .score c s => writeCache d q c s
    | .nan => tick d Ctr.cfgCacheStale
    | .none => d
  endRun (tick d Ctr.cfgRunDone) i

/-- Charges events to a run (R442). -/
def chargeRun (d : Dev) (i : Nat) (evts : List (Nat × Nat)) : Dev :=
  let before := d.sgn.d
  let d := meters d evts
  { d with runs := d.runs.modify i fun q => { q with energy := q.energy + (d.sgn.d - before) } }

/-- A run whose ensemble has LINK = SPRIG posts its margins as a LINK task; a full queue leaves it without a result (R227,
R230). The addresses of margins and result are open. -/
def runLink (d : Dev) (i : Nat) : Dev :=
  let q := d.runs.getD i default
  let a := fresh d
  let b := fresh a.2
  let p := postTask b.2 { cls := 1, src := 3, tenant := q.tenant, slot := q.slot, epoch := q.epoch, arg0 := a.1 % 2 ^ 64
                          arg1 := b.1 % 2 ^ 64, seq := 0 }
  if p.2 then { p.1 with runs := p.1.runs.modify i fun q => { q with link := some (lastSeq p.1 1) } }
  else endRun p.1 i

/-- The oldest run that is not with a sprig core completes (R184, R258, R259). Of `fault?`, a unit is a physical engine whose read of a node
cannot be corrected: no result (R177); a tensor's record may be lost (R166). -/
def runComplete (d : Dev) (fault? : Option PassFault) : Dev :=
  if !moving d ∨ !hbmUp d then d else
  match firstIdx (fun q => q.link.isNone) d.runs with
  | none => d
  | some i =>
    let q := d.runs.getD i default
    match modelOf d q.epoch q.slot with
    | none => endRun d i
    | some m =>
      match fault? with
      | some (.unit n) => fault (endRun (tick d Ctr.espNodeCheck) i) 2 2 (n % 528)
      | f =>
        let d := recordFault d m q.pipe f
        let w := passStart d m q.pipe q.slot (m.slotSec.passes.getD 0 default) q.feats ⟨zeros 64, false⟩ [] false []
        let d := chargeRun (unscheduled d w.e.d) i w.e.evts
        if w.broken then endRun d i
        else match m.ens with
          | some e => if m.slotSec.scoreSrc = 0 ∧ e.link = 4 then runLink d i else runResult d i (passRes m w)
          | none => runResult d i (passRes m w)

/-- A LINK task has ended (R230): with OK its score and class are the run's result, else the cache stays as it is. -/
def runLinked (d : Dev) (seq : Nat) (ok : Bool) (score win : Nat) : Dev :=
  match firstIdx (fun q => q.link == some seq) d.runs with
  | none => d
  | some i => if ok then runResult d i (.score (win % 256) (score % 65536)) else endRun d i

/-- Slots assigned to a tenant (`CFG_TENANT_MDL_t.SLOTS`). -/
def slotsOf (d : Dev) (t : Nat) : Nat :=
  ((List.range 256).filter fun s => rdB d (Reg.cfgSlotAssigned s) && rd d (Reg.cfgSlotOwner s) == t).length

/-- OWNER and ASSIGNED of a slot written by the PF, or by CFG for a MODELS entry, while the slot is EMPTY; an assignment
past SLOT_MAX is ignored (R249, R472). -/
def assignSlot (d : Dev) (slot owner : Nat) (assigned : Bool) : Dev :=
  let others := slotsOf d owner - b2n (rdB d (Reg.cfgSlotAssigned slot) && rd d (Reg.cfgSlotOwner slot) == owner)
  if slotState d slot ≠ 0 ∨ (assigned ∧ rd d (Reg.cfgTenantMdlSlotMax owner) ≤ others) then d
  else wrs d [(Reg.cfgSlotOwner slot, owner), (Reg.cfgSlotAssigned slot, b2n assigned)]

end Ops

/-- FLOW_RUN_START (R257). -/
def execFlowRunStart (s : State) : Host.Outcome State Fault Refusal := Ops.run s Ops.runStart
/-- FLOW_RUN_COMPLETE (R259). -/
def execFlowRunComplete (fault : Option PassFault) (s : State) : Host.Outcome State Fault Refusal :=
  Ops.run s fun d => Ops.runComplete d fault
/-- SLOT_ASSIGN (R249). -/
def execSlotAssign (slot : Slot) (data : Word) (s : State) : Host.Outcome State Fault Refusal :=
  Ops.run s fun d => Ops.access d 0 (0x00204000 + 4 * slot.val) true fun d => Ops.assignSlot d slot (Ops.bits data.toNat 0 6) (Ops.bit data.toNat 6)

end Sys2Proof.Machine
end

