-- ==== Sys2Proof/Machine/Refit.lean ====
section
/-!
DEFINITION. Refit.lean: the refitted leaves and head weights (R192, R222, R231) and the refit policy of a slot (R263, R264).
-/
namespace Sys2Proof.Machine
namespace Ops

/-- A slot's policy beside its registers. -/
def refitOf (d : Dev) (slot : Nat) : RefitPol :=
  (find? d.refit slot).getD { since := 0, stopping := false, shadowEns := none, shadowHead := none, queued := false }
def setRefit (d : Dev) (slot : Nat) (p : RefitPol) : Dev := { d with refit := set d.refit slot p }

/-- The part that a policy refits: 0 ensemble, 1 head layer. -/
def polPart (d : Dev) (slot : Nat) : Nat := rd d (Reg.cfgRefitPolTarget slot)
def polState (d : Dev) (slot : Nat) : Nat := rd d (Reg.cfgRefitStatState slot)

/-- The policy returns to IDLE; its shadow is dropped, and an ENABLE = 0 that waited takes effect (R263, R264). -/
def polIdle (d : Dev) (slot : Nat) : Dev :=
  let p := refitOf d slot
  let d := setRefit (wr d (Reg.cfgRefitStatState slot) 0) slot
    { p with shadowEns := none, shadowHead := none, queued := false, stopping := false }
  if p.stopping then wr d (Reg.cfgRefitPolEnable slot) 0 else d

/-- Queues the commit graft of a policy at GRF (R263, R269). -/
def queueCommit (d : Dev) (slot : Nat) : Dev :=
  let d := wr d (Reg.cfgRefitStatLastCode slot) 1
  { setRefit d slot { refitOf d slot with queued := true } with grf := { d.grf with queue := d.grf.queue ++ [128 + slot] } }

/-- Removes a queued commit graft of a policy. -/
def dropCommit (d : Dev) (slot : Nat) : Dev := { d with grf := { d.grf with queue := d.grf.queue.filter (· != 128 + slot) } }

/-- The ensemble or the head layer with the leaves of placement B (`hi`) or A (R192, R193). -/
def ensAt (m : Model) (hi : Bool) : Option Ensemble := if m.placeEns = hi then m.ens else m.ensAlt
def headLayer (m : Model) : Option Layer := m.layers.find? (·.headRefit)
def headAt (m : Model) (hi : Bool) : Option Layer := if m.placeHead = hi then headLayer m else m.headAlt

/-- A number of a bank that has been read (R192, R222). -/
def bankLe (d : Dev) (a n : Nat) : Nat := leNat (memGet d a n)

/-- The refitted ensemble from the frozen bank at `a` (R192): every leaf whose record allows it, with new checks (R176). -/
def refitEns (d : Dev) (e : Ensemble) (a : Nat) : Ensemble :=
  let trees := (treeStarts e).zip e.trees
  { e with trees := (tab trees.length fun t =>
      let x := trees.getD t (0, default)
      { x.2 with nodes := tab x.2.nodes.length fun i =>
          let w := x.2.nodes.getD i 0
          if !Esp.leaf w then w else
          let p := a + 64 + 24 * (x.1 + i)
          let v := Esp.refitLeaf e (sgn 32 (Esp.value w)) (sgn 64 (bankLe d p 8)) (bankLe d (p + 8) 8) (bankLe d (p + 16) 4)
          Esp.withCheck t i (w % 2 ^ 48 + put (uns 32 v) 48 32) }) }

/-- The refitted head layer from the frozen bank at `a`, and the codes that were clamped (R222). -/
def refitHead (d : Dev) (l : Layer) (a : Nat) : Layer × Nat :=
  let k := l.kA + l.kB
  let ws := bankLe d (a + 16) 8
  if bankLe d (a + 24) 4 < l.minN ∨ ws = 0 then (l, 0) else
  let w := tab l.n fun o => tab k fun i =>
    Mxt.refitWeight l (sgn 8 ((l.w.getD o []).getD i 0)) (sgn 128 (bankLe d (a + 64 + 16 * (o * k + i)) 16)) ws
  let b := l.bias.map fun b => tab l.n fun o =>
    uns 32 (Mxt.refitBias l (sgn 32 (b.getD o 0)) (sgn 64 (bankLe d (a + 64 + 16 * (l.n * k) + 8 * o) 8)) ws)
  ({ l with w := w.map fun r => r.map fun x => uns 8 x.1, bias := b }, (w.map fun r => (r.filter (·.2)).length).sum)

/-- A refit task of class 3 (part 0) or 4 (part 1) for a slot completes its shadow (R192, R222, R231). Answers false where the
frozen bank's epoch has retired, or where the slot has nothing to refit: the task then ends FAIL. -/
def buildShadow (d : Dev) (slot part : Nat) : Dev × Bool :=
  match bank? d slot part, find? (curCfg d).models slot with
  | some b, some m =>
    let a := bankAddr b (!b.active)
    let r := memRead d a b.size
    let d := r.1
    -- a poisoned bank gives no shadow (log entry 152)
    if r.2.2 then (d, false) else
    let hi := byteAt (memGet d (a + 4) 1) 0 % 2 == 1
    if (epoch? d (bankLe d (a + 5) 1)).isNone then (d, false)
    else if part = 0 then
      match ensAt m hi with
      | some e => (setRefit d slot { refitOf d slot with shadowEns := some (refitEns d e a) }, true)
      | none => (d, false)
    else
      match headAt m hi with
      | some l =>
        let r := refitHead d l a
        (count (setRefit d slot { refitOf d slot with shadowHead := some r.1 }) Ctr.mxtHeadSat r.2, true)
      | none => (d, false)
  | _, _ => (d, false)

/-- Leaves of an ensemble, codes of a head layer: what MAX_PCT is a percentage of (R263). -/
def refitTotal (d : Dev) (slot part : Nat) : Nat :=
  match find? (curCfg d).models slot with
  | none => 0
  | some m =>
    if part = 0 then (match m.ens with
      | some e => (e.trees.map fun t => (t.nodes.filter Esp.leaf).length).sum
      | none => 0)
    else (match headLayer m with | some l => l.n * (l.kA + l.kB) | none => 0)

/-- The policy's task of a slot has ended (R263). -/
def polTaskDone (d : Dev) (slot : Nat) (ok : Bool) : Dev :=
  if polState d slot ≠ 1 then d
  else if !ok then polIdle (tick d Ctr.cfgRefitFail) slot
  else if rd d (Reg.cfgRefitStatChanged slot) * 100 ≤ rd d (Reg.cfgRefitLimMaxPct slot) * refitTotal d slot (polPart d slot) then
    queueCommit (wr d (Reg.cfgRefitStatState slot) 2) slot
  else
    let d := wr (tick d Ctr.cfgRefitHeld) (Reg.cfgRefitStatState slot) 3
    if (refitOf d slot).stopping then polIdle d slot else d

/-- Labels in the active bank of the policy's part. -/
def polLabels (d : Dev) (slot : Nat) : Dev × Nat :=
  match activeBank d slot (polPart d slot) with | some a => memReadLe d (a + 8) 8 | none => (d, 0)

/-- The IDLE row of R263: a task with the bank that is about to freeze, and the swap, in one step. The shadow address is
open. -/
def polPost (d : Dev) (slot : Nat) : Dev :=
  let part := polPart d slot
  match activeBank d slot part, refitPart d slot part with
  | some a, some _ =>
    let n := polLabels d slot
    let d := n.1
    if n.2 < rd d (Reg.cfgRefitLimMinLabels slot) then d else
    let f := fresh d
    let p := postTask f.2 { cls := 3 + part, src := 6, tenant := slotTenant d slot, slot, epoch := curNum d, arg0 := a
                            arg1 := f.1 % 2 ^ 64, seq := 0 }
    if p.2 then wr (swapBanks p.1 slot part) (Reg.cfgRefitStatState slot) 1
    else tick p.1 Ctr.cfgRefitFail
  | _, _ => d

/-- An interval of a slot's policy ends (R263). -/
def polInterval (d : Dev) (slot : Nat) : Dev :=
  let p := refitOf d slot
  let n := rd d (Reg.cfgRefitPolInterval slot) * 1000000
  if !polOn d slot ∨ now d < p.since + n then d else
  let d := setRefit d slot { p with since := p.since + n }
  match polState d slot with
  | 0 => polPost d slot
  | 2 => if p.queued then d else queueCommit d slot
  | _ => d

/-- COMMIT of a HELD shadow (R263); a VF reaches only its own slots. -/
def polCommit (d : Dev) (fn slot : Nat) : Dev :=
  if ownsSlot d fn slot ∧ polState d slot = 3 then queueCommit (wr d (Reg.cfgRefitStatState slot) 2) slot else d

/-- DISCARD of a HELD or READY shadow (R263). A commit graft of it that GRF has taken fails for want of the shadow (R272). -/
def polDiscard (d : Dev) (fn slot : Nat) : Dev :=
  if ownsSlot d fn slot ∧ 2 ≤ polState d slot then
    let d := match d.grf.cur with
      | some g => if g.port = 64 ∧ g.slot = slot then abortSoft d 0x12 0xFF else d
      | none => d
    polIdle (dropCommit d slot) slot
  else d

/-- The model of a slot has been replaced or unloaded, or its structure has changed (R263). -/
def polGone (d : Dev) (slot : Nat) : Dev :=
  if polState d slot = 0 then setRefit d slot { refitOf d slot with shadowEns := none, shadowHead := none }
  else polIdle (tick (dropCommit d slot) Ctr.cfgRefitFail) slot

/-- A write of ENABLE (R263, R264). -/
def polEnable (d : Dev) (slot : Nat) (on : Bool) : Dev :=
  if on then
    if polOn d slot then setRefit d slot { refitOf d slot with stopping := false }
    else setRefit (wr d (Reg.cfgRefitPolEnable slot) 1) slot { refitOf d slot with since := now d, stopping := false }
  else if polState d slot = 0 then wr d (Reg.cfgRefitPolEnable slot) 0
  else
    let d := setRefit d slot { refitOf d slot with stopping := true }
    if polState d slot = 3 then polIdle d slot else d

end Ops

/-- REFIT_INTERVAL (R263). -/
def execRefitInterval (slot : Slot) (s : State) : Host.Outcome State Fault Refusal :=
  Ops.run s fun d => Ops.polInterval d slot
/-- REFIT_COMMIT (R263). -/
def execRefitCommit (fn : Fn) (slot : Slot) (s : State) : Host.Outcome State Fault Refusal :=
  Ops.run s fun d => Ops.access d fn.val 0x00205C00 true fun d => Ops.polCommit d fn slot
/-- REFIT_DISCARD (R263). -/
def execRefitDiscard (fn : Fn) (slot : Slot) (s : State) : Host.Outcome State Fault Refusal :=
  Ops.run s fun d => Ops.access d fn.val 0x00205C00 true fun d => Ops.polDiscard d fn slot

end Sys2Proof.Machine
end

