-- ==== Sys2Proof/Machine/Spr.lean ====
section
/-!
DEFINITION. Spr.lean: the sprig cores (R226 to R241): dispatch, the control page, the watchdog, firmware, faults.
-/
namespace Sys2Proof.Machine
namespace Ops

/-- The core has no task. -/
def coreIdle (x : Core) : Bool := x.given.isNone && x.claimed.isNone

/-- The core is in RUN or DRAINING (R239). -/
def coreUp (d : Dev) (c : Nat) : Bool := coreState d c == 1 || coreState d c == 2

/-- The core runs firmware: no freeze holds its clock (R490, R494). -/
def coreRuns (d : Dev) (c : Nat) : Bool := coreUp d c && !frozen d

/-- The dispatcher gives the head of a class's queue to an idle eligible core (R228). -/
def dispatch (d : Dev) (k c : Nat) : Dev :=
  match taskQueue d k with
  | [] => d
  | t :: rest =>
    if !gateOn d 12 ∨ frozen d ∨ (orderedClass k ∧ classBusy d k) ∨ !eligible d k c ∨ coreState d c ≠ 1 ∨ !coreIdle (core d c) then d
    else setCore { d with spr := { d.spr with queues := set d.spr.queues k rest } } c { core d c with given := some t }

/-- The PF posts the descriptor in the POST words (R227). -/
def pfPost (d : Dev) (last : Nat) : Dev :=
  let d := wr d (Reg.sprTaskPostWord 7) last
  let w := fun i => rd d (Reg.sprTaskPostWord i)
  let k := bits (w 0) 0 8
  if k < 3 ∨ 6 < k then wr d Reg.sprTaskPostStatClassBad 1
  else
    let p := postTask d { cls := k, src := 5, tenant := bits (w 0) 16 8, slot := bits (w 0) 24 8, epoch := bits (w 1) 0 8
                          arg0 := w 2 + 2 ^ 32 * w 3, arg1 := w 4 + 2 ^ 32 * w 5, seq := 0 }
    if p.2 then p.1 else wr p.1 Reg.sprTaskPostStatFull 1

/-- Bytes 8 to 31 of a task, as a core loads them from the control page at `off`: ARG0, ARG1 or SEQ (R229). -/
def taskBody (t : Task) (off : Nat) : Nat :=
  if off = 8 then t.arg0 else if off = 16 then t.arg1 else t.seq

/-- Firmware posts a task of class TABLE or HOUSE (R227), with SRC = 7: a full queue drops it. -/
def corePost (d : Dev) (cls tenant slot epoch arg0 arg1 : Nat) : Dev :=
  if cls = 5 ∨ cls = 7 then (postTask d { cls, src := 7, tenant, slot, epoch, arg0, arg1, seq := 0 }).1 else d

/-- A trap is raised in a core. -/
def coreTrap (d : Dev) (c : Nat) (t : CoreTrap) : Dev := setCore d c { core d c with trap := some t }

/-- An access fault in a core (R232): counted, no data, nothing written. -/
def accessFault (d : Dev) (c addr : Nat) (store : Bool) : Dev := tick (coreTrap d c (.access addr store)) Ctr.sprAccessFault

/-- The machine timer interrupt of a core (R234): the compare value has been reached. -/
def coreTimer (d : Dev) (c : Nat) : Dev :=
  match (core d c).timer with
  | some t => if t ≤ now64 d then coreTrap d c .timer else d
  | none => d

/-- A store to a core's local SRAM; what nothing has written since the load reads as zero (R238). -/
def sramStore (d : Dev) (c a : Nat) (b : Bytes) : Dev :=
  let s := (core d c).sram
  setCore d c { core d c with sram := splice (s ++ zeros (a + b.length - s.length)) a b }

/-- Bytes 0 to 7 of a task as a core reads them (R229). -/
def taskHead (t : Task) : Nat := t.cls + put t.src 8 8 + put t.tenant 16 8 + put t.slot 24 8 + put t.epoch 32 8 + put 1 63 1

/-- A load of TASK_POP (R235). -/
def pop (d : Dev) (c : Nat) : Dev :=
  if !coreRuns d c then d else
  let x := core d c
  match x.claimed, x.given with
  | some (t, _), _ => emit d (.core c 0x100000 (taskHead t))
  | none, some t => emit (setCore d c { x with given := none, claimed := some (t, now d) }) (.core c 0x100000 (taskHead t))
  | none, none => emit d (.core c 0x100000 0)

/-- The counter of a task status: 0 OK, 1 FAIL, 2 FAULT, 3 TIMEOUT. -/
def statusCtr (st k : Nat) : Nat :=
  if st = 0 then Ctr.sprDone k else if st = 1 then Ctr.sprFail k else if st = 2 then Ctr.sprFault k else Ctr.sprTimeout k

/-- A refit task that ends OK leaves its shadow, or fails with its frozen bank's epoch (R231). -/
def refitEnd (d : Dev) (t : Task) (st : Nat) : Dev × Nat :=
  if st ≠ 0 ∨ (t.cls ≠ 3 ∧ t.cls ≠ 4) then (d, st)
  else
    let r := buildShadow d t.slot (t.cls - 3)
    if r.2 then (r.1, 0) else (r.1, 1)

/-- A task ends with a status (R230, R231, R235, R236, R240); a LINK task brings a score and a class. -/
def endTask (d : Dev) (t : Task) (st score win : Nat) : Dev :=
  let r := refitEnd d t st
  let st := r.2
  let d := tick r.1 (statusCtr st t.cls)
  let d := if t.src = 5 then wrs d [(Reg.sprTaskDoneSeq t.cls, t.seq), (Reg.sprTaskResStatus t.cls, st)] else d
  if t.cls = 0 then delUnit d t.arg0
  else if t.cls = 1 then replayLinked (runLinked d t.seq (st == 0) score win) t.seq (st == 0) (score % 65536) (win % 256)
  else if t.cls = 2 then logPost d
  else if t.src = 6 then polTaskDone d t.slot (st == 0)
  else d

/-- Thousands of CLK_SPRIG cycles in a time (R416, R438). -/
def sprKilo (d : Dev) (ns : Nat) : Nat := ns * (300 + 100 * dvfsPoint d 2) / 1000000

/-- The claimed task of a core ends; a draining core has drained (R239). -/
def endClaimed (d : Dev) (c st score win : Nat) : Dev :=
  match (core d c).claimed with
  | none => d
  | some (t, since) =>
    let d := meter (setCore d c { core d c with claimed := none }) 22 (sprKilo d (now d - since))
    let d := endTask d t st score win
    if coreState d c = 2 then setCoreState d c 3 else d

/-- A store to TASK_DONE (R235); a status other than OK is FAIL. -/
def taskDone (d : Dev) (c st score win : Nat) : Dev :=
  if !coreRuns d c then d else endClaimed d c (if st % 4 = 0 then 0 else 1) score win

/-- A task has been claimed for longer than the limit (R236). -/
def taskTimeout (d : Dev) (c : Nat) : Dev :=
  match (core d c).claimed with
  | none => d
  | some (_, since) =>
    if now d ≤ since + rd d Reg.sprWdogLimit * 1000 then d
    else
      let d := endClaimed d c 3 0 0
      setCore d c { core d c with pc := (core d c).entry, timer := none, trap := none }

/-- A load of MBOX_IN. -/
def mboxIn (d : Dev) (c : Nat) : Dev :=
  if !coreRuns d c then d else
  emit (setCore d c { core d c with h2c := none }) (.core c 0x100040 ((core d c).h2c.getD 0))

/-- A store to MBOX_OUT. -/
def mboxOut (d : Dev) (c msg : Nat) : Dev :=
  if !coreRuns d c then d
  else if (core d c).c2h.isSome then wr d (Reg.sprMboxStatOvf c) 1
  else irq (setCore d c { core d c with c2h := some (msg % 2 ^ 64) }) Reg.sprIrqCfgEn Reg.sprIrqCfgVector

/-- The doorbell of a refit shadow: CHANGED of the slot, saturating (R263). -/
def refitReady (d : Dev) (c slot changed : Nat) : Dev :=
  if !coreRuns d c then d else wr d (Reg.cfgRefitStatChanged slot) (min changed 0xFFFFF)

/-- The PF writes the HI word of a core's mailbox. -/
def h2c (d : Dev) (c hi : Nat) : Dev :=
  if (core d c).h2c.isSome then wr d (Reg.sprMboxStatOvf c) 1
  else setCore d c { core d c with h2c := some (rd d (Reg.sprMboxH2cLoMsg c) + 2 ^ 32 * hi) }

/-- The PF reads the HI word of a core's mailbox. -/
def c2h (d : Dev) (c : Nat) : Dev :=
  emit (setCore d c { core d c with c2h := none }) (.read 0 (0x00C0200C + 16 * c) (some (((core d c).c2h.getD 0) / 2 ^ 32)))

/-- DRAIN written 1 (R239). -/
def drainCore (d : Dev) (c : Nat) : Dev :=
  let d := wr d (Reg.sprCoreCtlDrain c) 1
  if coreState d c ≠ 1 then d else setCoreState d c (if coreIdle (core d c) then 3 else 2)

/-- START written 1 (R239). -/
def startCore (d : Dev) (c : Nat) : Dev :=
  if coreState d c ≠ 3 ∨ !(core d c).image then d
  else setCoreState (setCore d c
    { core d c with pc := (core d c).entry, given := none, claimed := none, timer := none, trap := none }) c 1

/-- A core stops in FAULT: its task ends FAULT (R239). -/
def coreStops (d : Dev) (c : Nat) : Dev :=
  if !coreUp d c then d else
  let d := setCoreState d c 4
  let d := endClaimed d c 2 0 0
  match (core d c).given with
  | some t => endTask (setCore d c { core d c with given := none }) t 2 0 0
  | none => d

/-- A core fails (R239, R240): FLT hears of the physical core. -/
def coreFail (d : Dev) (c : Nat) : Dev := if !coreUp d c then d else fault (coreStops d c) 3 3 (physOf d 17 c)

/-- The status of a firmware image (R237, R238): 0, or FORMAT, VERSION, SIGNATURE in that order. -/
def fwCheck (d : Dev) (keys : List VerKey) (b : Bytes) : Nat :=
  let n := le b 16 4
  if b.take 4 ≠ [0x53, 0x50, 0x52, 0x46] ∨ le b 4 2 ≠ 1 ∨ byteAt b 7 ≠ 0 ∨ !Img.zeroAt b 24 8 ∨ n < 4 ∨ 1048576 < n ∨ n % 4 ≠ 0 ∨
      b.length < 64 + n + 96 then 0x21
  else if le b 20 4 ≠ rd d Reg.topIdPart then 0x22
  else if slice b 32 32 ≠ Codes.sha256 (slice b 64 n) ∨ !Img.anyKey keys 1 0 (slice b 0 (64 + n)) (slice b (64 + n) 96) then 0x20
  else 0

/-- An image is copied into a core (R238): local SRAM from address 0, zero beyond. -/
def fwInto (d : Dev) (b : Bytes) (c : Nat) : Dev :=
  wr (setCore d c { core d c with image := true, entry := le b 12 4, classes := le b 6 1, sram := slice b 64 (le b 16 4) })
    (Reg.sprCoreVerVersion c) (le b 8 4)

/-- GO of a firmware load (R238). -/
def fwGo (d : Dev) : Dev :=
  if rdB d Reg.sprFwStatBusy then d
  else { wr d Reg.sprFwStatBusy 1 with spr := { d.spr with
    load := some (rd64 d Reg.sprFwAddrLoAddr Reg.sprFwAddrHiAddr, rd d Reg.sprFwMaskLoCores + 2 ^ 32 * rd d Reg.sprFwMaskHiCores) } }

/-- A firmware load ends (R238, R239). -/
def fwDone (d : Dev) : Dev :=
  match d.spr.load with
  | none => d
  | some (a, mask) =>
    let h := memRead d a 64
    let r := memRead h.1 a (64 + le h.2.1 16 4 % 2 ^ 21 + 96)
    let code := if r.2.2 then 0x20 else fwCheck r.1 r.1.cfg.keys r.2.1
    let d := { r.1 with spr := { r.1.spr with load := none, image := if code = 0 then some r.2.1 else r.1.spr.image } }
    let named := (List.range 64).filter (bit mask)
    let d := if named.any fun c => coreState d c != 3 then wr d Reg.sprFwStatSkipped 1 else d
    let d := wrs d [(Reg.sprFwStatBusy, 0), (Reg.sprFwStatCode, code)]
    if code ≠ 0 then d else each (named.filter fun c => coreState d c == 3) d fun d c => fwInto d r.2.1 c

/-- A spare takes the place of a failed core (R240): the retained image, started. With SPR gated off every core stays OFF (R239). -/
def coreSpare (d : Dev) (c : Nat) : Dev :=
  if !gateOn d 12 then d else
  let d := setCore d c default
  match d.spr.image with
  | some b => startCore (setCoreState (fwInto d b c) c 3) c
  | none => setCoreState d c 3

/-- SPR's gate reads ON: every core that is OFF reads DRAINED (R239). -/
def sprOn (d : Dev) : Dev :=
  each (List.range 64) d fun d c => if coreState d c = 0 ∧ !unitRemoved d 17 c then setCoreState d c 3 else d

/-- SPR is gated off (R241): every task ends FAIL, every core is OFF. -/
def sprOff (d : Dev) : Dev :=
  let ts := (d.spr.queues.flatMap (·.2)) ++ d.spr.cores.flatMap fun p => p.2.given.toList ++ (p.2.claimed.map (·.1)).toList
  let d := { d with spr := { d.spr with queues := [], cores := [] } }
  let d := each (List.range 64) d fun d c => wr (setCoreState d c 0) (Reg.sprCoreVerVersion c) 0
  each ts d fun d t => endTask d t 1 0 0

end Ops

/-- TASK_DISPATCH (R228). -/
def execTaskDispatch (cls : Nat) (core : CoreNo) (s : State) : Host.Outcome State Fault Refusal :=
  Ops.run s fun d => Ops.dispatch d cls core
/-- PF_TASK_POST (R227). -/
def execPfTaskPost (data : Word) (s : State) : Host.Outcome State Fault Refusal :=
  Ops.run s fun d => Ops.access d 0 0x00C0091C true fun d => Ops.pfPost d data.toNat
/-- TASK_POP (R235). -/
def execTaskPop (core : CoreNo) (s : State) : Host.Outcome State Fault Refusal := Ops.run s fun d => Ops.pop d core
/-- TASK_DONE (R235). -/
def execTaskDone (core : CoreNo) (status score win : Nat) (s : State) : Host.Outcome State Fault Refusal :=
  Ops.run s fun d => Ops.taskDone d core status score win
/-- TASK_WATCHDOG (R236). -/
def execTaskWatchdog (core : CoreNo) (s : State) : Host.Outcome State Fault Refusal :=
  Ops.run s fun d => Ops.taskTimeout d core
/-- MBOX_IN (R234). -/
def execMboxIn (core : CoreNo) (s : State) : Host.Outcome State Fault Refusal := Ops.run s fun d => Ops.mboxIn d core
/-- MBOX_OUT (R234). -/
def execMboxOut (core : CoreNo) (msg : Nat) (s : State) : Host.Outcome State Fault Refusal :=
  Ops.run s fun d => Ops.mboxOut d core msg
/-- DOORBELL_REFIT_READY (R263). -/
def execDoorbellRefitReady (core : CoreNo) (slot : Slot) (changed : Nat) (s : State) : Host.Outcome State Fault Refusal :=
  Ops.run s fun d => Ops.refitReady d core slot changed
/-- H2C_DELIVER (R234). -/
def execH2cDeliver (core : CoreNo) (hi : Word) (s : State) : Host.Outcome State Fault Refusal :=
  Ops.run s fun d => Ops.access d 0 (0x00C02004 + 16 * core.val) true fun d => Ops.h2c d core hi.toNat
/-- C2H_FREE (R234). -/
def execC2hFree (core : CoreNo) (s : State) : Host.Outcome State Fault Refusal :=
  Ops.run s fun d => Ops.access d 0 (0x00C0200C + 16 * core.val) false fun d => Ops.c2h d core
/-- CORE_DRAIN (R239). -/
def execCoreDrain (core : CoreNo) (s : State) : Host.Outcome State Fault Refusal :=
  Ops.run s fun d => Ops.access d 0 (0x00C00400 + 4 * core.val) true fun d => Ops.drainCore d core
/-- CORE_START (R239). -/
def execCoreStart (core : CoreNo) (s : State) : Host.Outcome State Fault Refusal :=
  Ops.run s fun d => Ops.access d 0 (0x00C00400 + 4 * core.val) true fun d => Ops.startCore d core
/-- CORE_FAULT (R240). -/
def execCoreFault (core : CoreNo) (s : State) : Host.Outcome State Fault Refusal := Ops.run s fun d => Ops.coreFail d core
/-- FW_LOAD (R238). -/
def execFwLoad (s : State) : Host.Outcome State Fault Refusal :=
  Ops.run s fun d => Ops.access d 0 0x00C00810 true Ops.fwGo
/-- FW_LOAD_DONE (R238). -/
def execFwLoadDone (s : State) : Host.Outcome State Fault Refusal := Ops.run s Ops.fwDone

end Sys2Proof.Machine
end

