-- ==== Sys2Proof/Machine/Dma.lean ====
section
/-!
DEFINITION. Dma.lean: the DMA engine (R344 to R364): rings, descriptors, operations, host jobs, replay, exception records,
errors, barriers and pauses.
-/
namespace Sys2Proof.Machine
namespace Ops

/-- The RWS fields of `DMA_CH_SCHED_c` (R363). -/
def schedFlds (c : Nat) : List Fld :=
  [Reg.dmaChSchedPrio c, Reg.dmaChSchedWeight c, Reg.dmaChSchedBurst c, Reg.dmaChSchedUrgent c]

/-- The engine works: its gate is ON or waits for its channels to pause, and its clock runs (R361, R420, R431). -/
def dmaRuns (d : Dev) : Bool := moving d && (gate d 16 == .on || gate d 16 == .pendOff)

/-- A channel enters RUN (R351): from IDLE or HALTED it takes SCHED (R363), and fetching starts at HEAD past what is still in flight. -/
def chRun (d : Dev) (c : Nat) : Dev :=
  let d := setChState (if chState d c = 2 then d else handover d (schedFlds c)) c 1
  modChan d c fun x => { x with
    bad := false, pausing := false, tries := 0, waiting := false
    fetch := (rd d (Reg.dmaChHeadHead c) + x.flight.length) % ringSize d c }

/-- ENABLE written 1. -/
def chEnable (d : Dev) (c : Nat) : Dev :=
  let d := wr d (Reg.dmaChCtlEnable c) 1
  if chState d c ≠ 0 then d
  else chRun (setChan (wrs d [(Reg.dmaChHeadHead c, 0), (Reg.dmaChTailTail c, 0)]) c default) c

/-- The last channel has paused. -/
def allPaused (d : Dev) : Bool := !(d.chans.any fun p => chState d p.1 == 1)

/-- The forced gate-off count of DMA starts when the last channel has paused (R361, R420). -/
def dmaCount (d : Dev) : Dev :=
  if gate d 16 = .pendOff ∧ allPaused d ∧ (find? d.clk.gateDl 16).isNone then
    { d with clk := { d.clk with gateDl := set d.clk.gateDl 16 (now d + 4096) } }
  else d

/-- A channel returns to IDLE: what is in flight is abandoned, and the jobs among it release their contexts (R351). -/
def chIdle (d : Dev) (c : Nat) : Dev :=
  let d := each (chan d c).flight d fun d x => match x.ctx with | some u => delUnit d u | none => d
  let d := setChan (dmaCount (setChState d c 0)) c default
  pfcCheck (wrs d [(Reg.dmaChHeadHead c, 0), (Reg.dmaChTailTail c, 0)])

/-- ENABLE written 0. -/
def chDisable (d : Dev) (c : Nat) : Dev := chIdle (wr d (Reg.dmaChCtlEnable c) 0) c

/-- RESUME written 1. -/
def chResume (d : Dev) (c : Nat) : Dev := if chState d c = 2 ∨ chState d c = 3 then chRun d c else d

/-- A write of TAIL (R347). -/
def tailWrite (d : Dev) (c tail : Nat) : Dev :=
  let n := ringSize d c
  let fill := fun t => (t % n + n - rd d (Reg.dmaChHeadHead c) % n) % n
  if fill tail = fill (rd d (Reg.dmaChTailTail c)) then d else wr d (Reg.dmaChTailTail c) tail

/-- The channel may be reached by a function: a VF reaches its own (R505). -/
def reachesChan (d : Dev) (fn c : Nat) : Bool := tenantOf fn == 0 || rd d (Reg.dmaChOwnerOwner c) == fn

/-- A doorbell from a sprig core reaches the channels that SPR owns (R232). -/
def coreDoorbell (d : Dev) (core c tail : Nat) : Dev :=
  if coreRuns d core ∧ gateOn d 16 ∧ rd d (Reg.dmaChOwnerOwner c) = 64 then tailWrite d c tail else d

/-- The model that a job's slot holds in the job's epoch. -/
def jobEpoch (d : Dev) (x : Desc) : Nat := match x.ctx.bind (unit? d) with | some r => r.epoch | none => curNum d
def jobModel (d : Dev) (x : Desc) : Option Model := modelOf d (jobEpoch d x) x.slot
/-- The ensemble that a replay scores. -/
def replayEns (d : Dev) (x : Desc) : Option Ensemble := (jobModel d x).bind (·.ens)

/-- The operations that a channel's kind allows (R344). -/
def kindAllows (kind op : Nat) : Bool :=
  match kind with
  | 0 => decide (op ≤ 4)
  | 1 => op == 0 || op == 5 || op == 6
  | 2 => op == 0 || op == 7
  | _ => op == 8

/-- A field rule of the descriptor is broken (R348, R349, R353 to R357). -/
def descFormat (kind : Nat) (x : Desc) : Bool :=
  !kindAllows kind x.op || decide (bits (byteAt x.raw 27) 5 3 ≠ 0) || le x.raw 40 16 != 0 || decide (bits x.tag 18 14 ≠ 0) ||
  (decide (x.op ≠ 2 ∧ x.op ≠ 5 ∧ x.op ≠ 6) && x.aux != 0) ||
  match x.op with
  | 2 => decide (bits x.p0 20 12 ≠ 0 ∨ bits x.p1 20 12 ≠ 0)
  | 3 => decide (bits x.p0 0 2 = 3 ∨ 6 ≤ bits x.p0 2 3) || decide (x.len % (x.sw / 8) ≠ 0)
  | 4 => decide (x.stride < x.recLen)
  | 5 => decide (x.len < 260 ∨ 8448 < x.len ∨ x.len % 4 ≠ 0)
  | 7 => decide (x.len % 32 ≠ 0)
  | 8 => decide (x.len < 128)
  | _ => false

/-- The device memory that a descriptor touches: address and length (R345, R350). -/
def devRanges (d : Dev) (x : Desc) : List (Nat × Nat) :=
  let e := replayEns d x
  let f := match e with | some e => e.feats.length | none => 0
  let k := match e with | some e => e.k | none => 0
  let srcN := match x.op with
    | 1 | 3 | 5 | 7 => x.len
    | 2 => x.srcCount * x.len
    | 4 => (x.count - 1) * x.stride + x.recLen
    | 6 => x.blocks * f * 264
    | _ => 0
  let dstN := match x.op with
    | 1 | 8 => x.len
    | 2 => x.count * x.len
    | 3 => cdiv (x.elems * x.dw) 8
    | 4 => cdiv x.count 64 * x.feats * 264
    | _ => 0
  let auxN := match x.op with | 2 => 4 * x.count | 5 => 32 | 6 => 8 * x.recs * k | _ => 0
  ((if x.srcDev then [(x.src, srcN)] else []) ++ (if x.dstDev then [(x.dst, dstN)] else []) ++
    (if x.auxDev then [(x.aux, auxN)] else [])).filter fun r => r.2 != 0

/-- The device window of a channel holds `n` bytes at `a` (R345). -/
def inWindow (d : Dev) (c a n : Nat) : Bool :=
  let b := rd64 d (Reg.dmaChDwinLoAddr c) (Reg.dmaChDwinHiAddr c) / 65536 * 65536
  decide (b ≤ a ∧ a + n ≤ b + rd d (Reg.dmaChDwinSizeSize c) * 65536)

/-- The power domain of a scheduled engine (R423): a tile, or an espalier. -/
def unitDom (d : Dev) (pool l : Nat) : Nat :=
  if pool = 0 then (if physOf d 0 l < 17 then 11 else 12) else if pool ≤ 8 then 9 else 10

/-- The switchable domains that a descriptor touches: HBM, and for JOB and REPLAY the engines (R361). -/
def descDoms (d : Dev) (x : Desc) : List Nat :=
  (if (devRanges d x).any fun r => decide (0x200000000 < r.1 + r.2) then [5] else []) ++
  (if x.op = 5 ∨ x.op = 6 then
    match jobModel d x with
    | some m => (m.sched.filter fun e => e.pass == 0).filterMap fun e => (schedUnit e).map fun u => unitDom d u.1 u.2
    | none => []
  else [])

/-- A descriptor that does not run: its status (R349, R350, R360, R361). The spec gives no order between the causes; the
barrier comes first, then the descriptor's form, its slot, its bounds, its domains (log entry 18). A job whose epoch has expired still
gets its verdict (R278), and a channel that is about to pause finishes its descriptor while the domain waits (R361). -/
def descRefused (d : Dev) (c : Nat) (x : Desc) : Option Nat :=
  let expired := match x.ctx.bind (unit? d) with | some r => r.expired | none => false
  if x.barrier ∧ (chan d c).bad then some 6
  else if descFormat (rd d (Reg.dmaChOwnerKind c)) x then some 2
  else if (x.op = 5 ∨ x.op = 6) ∧ !ownsSlot d (chTenant d c) x.slot then some 7
  else if expired then none
  else if x.op = 5 ∧ (jobModel d x).isNone then some 7
  else if x.op = 6 ∧ (replayEns d x).isNone then some 7
  else if (devRanges d x).any fun r => !inWindow d c r.1 r.2 then some 1
  else if (descDoms d x).any fun k => !(if (chan d c).pausing then powered d k else domOn d k) then some 5
  else if (devRanges d x).any fun r => !reachable d r.1 || !reachable d (r.1 + r.2 - 1) then some 1
  else none

/-- A status that halts the channel (R349). -/
def halting (st : Nat) : Bool := st == 4 || st == 6

/-- The next descriptor to run: the oldest that has not started, while none before it halts the channel; a channel about to
pause starts none past its oldest (R346, R351, R361). -/
def current (x : Chan) : Option Nat :=
  match firstIdx (fun e => e.status.isNone && !e.posted && e.outb.isEmpty) x.flight with
  | none => none
  | some i =>
    if (x.flight.take i).any (fun e => match e.status with | some s => halting s | none => false) then none
    else if x.pausing && i != 0 then none else some i

/-- Changes descriptor `i` in flight. -/
def modDesc (d : Dev) (c i : Nat) (f : Desc → Desc) : Dev := modChan d c fun x => { x with flight := x.flight.modify i f }

/-- A descriptor has run: its status and the destination bytes written. -/
def ran (d : Dev) (c i st done : Nat) : Dev := modDesc d c i fun x => { x with status := some st, done, waiting := false }

/-- A host read of a data operand has failed (R359). -/
def readFailed (d : Dev) (c i : Nat) (x : Desc) : Dev :=
  if x.tries < rd d Reg.dmaRetryCount then modDesc d c i fun y => { y with tries := y.tries + 1, waiting := true }
  else ran d c i 4 0

/-- The TRANSPOSE descriptors under way, each with a block buffer (R355). -/
def buffersHeld (d : Dev) : Nat :=
  (d.chans.map fun p => (p.2.flight.filter fun x => x.op == 4 && x.started && x.status.isNone).length).sum

/-- A descriptor starts: its channel takes SCHED, once for each (R363). -/
def descStart (d : Dev) (c i : Nat) : Dev :=
  if ((chan d c).flight.getD i default).started then d
  else modChan (handover d (schedFlds c)) c fun x => { x with flight := x.flight.modify i fun y => { y with started := true } }

/-- The start of the current descriptor, if its operation is `op` (R346, R360, R363): a barrier waits for every earlier descriptor, a
TRANSPOSE for one of 16 buffers (R355). What it costs is kept with it (R442). -/
def startOp (d : Dev) (c op : Nat) (f : Dev → Nat → Desc → Dev) : Dev :=
  if !dmaRuns d ∨ chState d c ≠ 1 then d else
  match current (chan d c) with
  | none => d
  | some i =>
    let x := (chan d c).flight.getD i default
    if x.op ≠ op ∨ x.waiting ∨ (x.barrier ∧ i ≠ 0) ∨ (op = 4 ∧ !x.started ∧ 16 ≤ buffersHeld d) then d else
    let d := descStart d c i
    match descRefused d c x with
    | some st => ran d c i st 0
    | none =>
      let d := if x.barrier then modChan d c fun y => { y with bad := false } else d
      let d' := f d i x
      modDesc d' c i fun y => { y with energy := y.energy + (d'.sgn.d - d.sgn.d) }

/-- The outcome of a read: the bytes; the bytes before a poisoned line; a failed host read. -/
inductive Rd where
  | data (b : Bytes)
  | poison (b : Bytes)
  | fail
  deriving DecidableEq, Repr

/-- The bytes before the first poisoned line of a range. -/
def goodLen (d : Dev) (a n : Nat) : Nat :=
  (blocksOf a n).foldl (fun m b => (readBlock d (128 * b) 0).2.foldl (fun m j =>
    let l := 128 * b + 32 * j
    if l + 32 ≤ a then m else min m (l - a)) m) n

/-- Reads `n` bytes at `a` of device or host memory (R345, R359). -/
def dmaRead (d : Dev) (dev : Bool) (a n : Nat) (host : Option Bytes) : Dev × Rd :=
  if dev then
    let r := fabRead d a n
    if r.2.2 then (r.1, .poison (r.2.1.take (goodLen r.1 a n))) else (r.1, .data r.2.1)
  else match host with
    | some b => if b.length < n then (emit d (.hostRead a n), .fail)
                else (emit (meter d 20 (cdiv n 64)) (.hostRead a n), .data (b.take n))
    | none => (emit d (.hostRead a n), .fail)

/-- Writes bytes to device or host memory. -/
def dmaWrite (d : Dev) (dev : Bool) (a : Nat) (b : Bytes) : Dev :=
  if b.isEmpty then d
  else if dev then fabWrite d a b else emit (meter d 20 (cdiv b.length 64)) (.hostWrite a b)

/-- Counts suspended bursts (R362): an URGENT channel in RUN can suspend those of a channel that is not URGENT. How many were depends on
timing and is the command's operand (log entry 139). -/
def preempts (d : Dev) (c n : Nat) : Dev :=
  let urgent := fun k => rdB d (Reg.dmaChSchedUrgent k)
  if !urgent c && d.chans.any (fun p => chState d p.1 == 1 && urgent p.1) then count d Ctr.dmaPreempt n else d

/-- A transfer: reads the source, and writes what `f` makes of it, or of its part before a poisoned line (R349, R352,
R354, R355). `preempt` bursts were suspended (R362). -/
def transfer (c n : Nat) (src : Option Bytes) (preempt : Nat) (f : Desc → Bytes → Bytes) (d : Dev) (i : Nat) (x : Desc) :
    Dev :=
  let r := dmaRead d x.srcDev x.src n src
  let write := fun (b : Bytes) (st : Nat) =>
    let o := f x b
    ran (dmaWrite (preempts (meter r.1 19 (cdiv n 64)) c preempt) x.dstDev x.dst o) c i st o.length
  match r.2 with
  | .data b => write b 0
  | .poison b => write b 3
  | .fail => readFailed r.1 c i x

/-- The element of GATHER at index `k` (R353). -/
def gatherOne (x : Desc) (src : Option Bytes) (a : Dev × Bytes × Option Nat) (k : Nat) : Dev × Bytes × Option Nat :=
  match a.2.2 with
  | some _ => a
  | none =>
    if x.srcCount ≤ k then (a.1, a.2.1, some 1)
    else
      let r := dmaRead a.1 x.srcDev (x.src + k * x.len) x.len (src.map fun b => (b.drop (k * x.len)).take x.len)
      match r.2 with
      | .data b => (r.1, a.2.1 ++ b, none)
      | .poison b => (r.1, a.2.1 ++ b, some 3)
      | .fail => (r.1, a.2.1, some 4)

/-- GATHER (R353). -/
def gather (c : Nat) (src aux : Option Bytes) (preempt : Nat) (d : Dev) (i : Nat) (x : Desc) : Dev :=
  let t := dmaRead d x.auxDev x.aux (4 * x.count) aux
  let go := fun (b : Bytes) (last : Option Nat) =>
    let r := (tab (b.length / 4) fun j => le b (4 * j) 4).foldl (gatherOne x src) (t.1, [], none)
    match r.2.2.orElse fun _ => last with
    | some 4 => readFailed r.1 c i x
    | st =>
      let d := preempts (meter r.1 19 (cdiv r.2.1.length 64)) c preempt
      ran (dmaWrite d x.dstDev x.dst r.2.1) c i (st.getD 0) r.2.1.length
  match t.2 with
  | .data b => go b none
  | .poison b => go b (some 3)
  | .fail => readFailed t.1 c i x

/-- PACK (R354): eight elements at a time fill a whole number of bytes. -/
def packed (x : Desc) (b : Bytes) : Bytes :=
  let s := x.sw / 8
  let n := b.length / s
  let conv := fun (v : Nat) => if bit x.p0 5 ∧ x.sw < x.dw then uns x.dw (sgn x.sw v) else v % 2 ^ x.dw
  let elem := fun j => if j < n then conv (le b (s * j) s) else 0
  ((List.range (cdiv n 8)).flatMap fun g =>
    leBytes x.dw (((List.range 8).map fun j => elem (8 * g + j) <<< (j * x.dw)).sum)).take (cdiv (n * x.dw) 8)

/-- The 33 words of feature `j` in the block that holds records `64 g` onward (R185, R355). -/
def planes (x : Desc) (b : Bytes) (n g j : Nat) : Bytes :=
  let lanes := (List.range 64).filter fun l => 64 * g + l < n
  let val := fun l => le b ((64 * g + l) * x.stride + 4 * j) 4
  let ok := fun l => bit (byteAt b ((64 * g + l) * x.stride + 4 * x.feats + j / 8)) (j % 8)
  let word := fun (p : Nat → Bool) => leBytes 8 ((lanes.filter p).map (2 ^ ·)).sum
  ((List.range 32).flatMap fun w => word fun l => bit (val l) w) ++ word ok

/-- TRANSPOSE (R355): whole blocks of the records that have been read. -/
def transposed (x : Desc) (b : Bytes) : Bytes :=
  let whole := (x.count - 1) * x.stride + x.recLen ≤ b.length
  let n := if whole then x.count else (b.length / x.stride) / 64 * 64
  (List.range (cdiv n 64)).flatMap fun g => (List.range x.feats).flatMap fun j => planes x b n g j

/-- The features of a job's record (R356). -/
def jobFeats (x : Desc) (b : Bytes) : Map Nat :=
  ((List.range ((x.len - 256) / 4)).filter fun j => bit (byteAt b (j / 8)) (j % 8)).map fun j => (j, le b (256 + 4 * j) 4)

/-- Pass 0 of a job on the engines (R356): its turn starts from zeros. -/
def jobPass (d : Dev) (u : Nat) (r : UnitRec) (m : Model) : Dev :=
  let ps := passSec m 0
  let d' := match m.turn with
    | some t => if ps.turn then turnRun d u r m t (zeros 64) else d
    | none => d
  let q := (unit? d' u).getD r
  let st : StateIn := ⟨q.state, q.poisonState⟩
  let w := if q.stage = .turning then workOf d' q m else passStart d' m r.pipe r.slot ps r.feats st [] false []
  let w := if w.broken then w else passRest w m r.pipe r.slot ps r.feats st
  let d' := storeWork u m w .inferred
  let d' := unscheduled d (if w.broken then fault d' 2 2 0 else d')
  -- a slot that is not active in the job's pipe has no tensor records to keep there (R159)
  if activeIn d r.epoch r.slot r.pipe then d' else { d' with qnt := d.qnt }

/-- The verdict of a job (R356): steps 1, 4, 5, 7 and 13 of R292. -/
def jobVerdict (d : Dev) (u : Nat) (r : UnitRec) : Dev × Verdict :=
  let tail := fun (d : Dev) (v : Verdict) (fl : Nat) =>
    let v := if v.compat then compatStep d v none else v
    (countRsvd d v, { v with flags := r.flags ||| fl, epoch := r.epoch })
  if r.expired then
    let y := expiryVerdict (tick d Ctr.grfExpiredUnits) r
    (countRsvd y.1 y.2, { y.2 with flags := r.flags ||| 16, epoch := r.epoch })
  else if missing d r u then
    let y := endMissing d u r
    tail y.1 y.2.v y.2.flags
  else match r.res with
    | .nan =>
      let y := defaultOf (tick d (Ctr.vrdNanScore r.slot)) r r.slot
      tail y.1 y.2 64
    | .score c s => tail d (mapVerdict d r c s).1 0
    | .none =>
      let y := endMissing d u r
      tail y.1 y.2.v y.2.flags

/-- A context for the job of a descriptor that is fetched (R26, R273). -/
def jobContext (d : Dev) (c : Nat) (x : Desc) : Dev × Option Nat :=
  if ctxFree d = 0 then (d, none)
  else
    let r := newUnit (.job c) (Config.jobPipe x.slot).val [] 0 0 0 x.t
    let a := addUnit d { r with hasCtx := true, epoch := curNum d, tenant := chTenant d c, slot0 := x.slot, slot := x.slot
                                stage := .featured, ctxT := now d }
    (pfcCheck a.1, some a.2)

/-- The default verdict of a job or replay that found no context (R27). -/
def jobDefault (d : Dev) (c : Nat) (x : Desc) : Dev × Verdict :=
  let r := { newUnit (.job c) 0 [] 0 0 0 x.t with epoch := curNum d, tenant := chTenant d c, slot := x.slot, slot0 := x.slot }
  let y := defaultOf d r x.slot
  let v := if y.2.compat then compatStep y.1 y.2 none else y.2
  (countRsvd y.1 v, { v with flags := 2, epoch := curNum d })

/-- JOB (R356, R27): `fault?` is what fails under it. -/
def jobRun (c : Nat) (src : Option Bytes) (fault? : Option PassFault) (d : Dev) (i : Nat) (x : Desc) : Dev :=
  if !gateOn d 13 then d else
  let keep := fun (d : Dev) (v : Verdict) =>
    ran (modDesc (meter d 15 1) c i fun y => { y with verd := some { v with tag := bits x.tag 0 18 } }) c i 0 32
  match x.ctx.bind fun u => (unit? d u).map fun r => (u, r) with
  | none =>
    let y := jobDefault d c x
    keep y.1 y.2
  | some (u, r) =>
    if r.expired then let y := jobVerdict d u r; keep y.1 y.2 else
    let t := dmaRead d x.srcDev x.src x.len src
    match t.2 with
    | .fail => readFailed t.1 c i x
    | .poison _ => ran t.1 c i 3 0
    | .data b =>
      let r := { r with feats := jobFeats x b }
      let d := setUnit (meter t.1 19 (cdiv x.len 64)) u r
      let d := match modelOf d r.epoch r.slot with
        | none => d
        | some m =>
          let l := lost d r m
          if l.1 then modUnit (match l.2 with | some k => tick d k | none => d) u fun q => { q with failed := true }
          else match fault? with
            | some (.unit k) => engineFault (modUnit d u fun q => { q with failed := true }) m k
            | some (.lane n) =>
              fault (modUnit (tick d Ctr.mxtTurnFault) u fun q => { q with failed := true }) 4 4 (4 * r.pipe + physOf d (18 + r.pipe) (n % 4))
            | f => jobPass (recordFault d m r.pipe f) u r m
      let y := jobVerdict d u ((unit? d u).getD r)
      keep y.1 y.2

/-- The features of record `l` of a replay block (R185). -/
def replayFeats (e : Ensemble) (b : Bytes) (g l : Nat) : Map Nat :=
  let f := e.feats.length
  let word := fun j w => le b (264 * (g * f + j) + 8 * w) 8
  (List.range f).foldl (fun m j =>
    if bit (word j 32) l then set m (e.feats.getD j 0) (((List.range 32).filter fun w => bit (word j w) l).map (2 ^ ·)).sum else m) []

/-- The score of class `k` of a replay record (R185), and whether IDENTITY clamped it. -/
def replayScore (e : Ensemble) (ms : List Int) (ps : List Nat) (k : Nat) : Nat × Bool :=
  match e.link with
  | 1 => Esp.identity e.leafExp (ms.getD k 0)
  | 2 => (Esp.sigmoid e.leafExp (ms.getD k 0), false)
  | 3 => (ps.getD k 0, false)
  | _ => (0, false)

/-- One record of a replay (R185, R186): its K entries, and a LINK task for LINK = SPRIG (R227). A record with a node that
fails its check has no result, and its bytes are open (R177). -/
def replayOne (e : Ensemble) (x : Desc) (tenant epoch : Nat) (b : Bytes) (a : Dev × Bytes × Map Nat) (n : Nat) :
    Dev × Bytes × Map Nat :=
  let fs := replayFeats e b (n / 64) (n % 64)
  let d := tick a.1 Ctr.espReplayRec
  match Esp.leaves e fs with
  | none =>
    let f := fresh (tick d Ctr.espNodeCheck)
    (fault f.2 2 2 0, a.2.1 ++ leBytes (8 * e.k) f.1, a.2.2)
  | some ls =>
    let ms := Esp.margins e ls
    let ps := if e.link = 3 then Esp.softmax e.leafExp ms else []
    let d := count (meter d 10 e.trees.length) Ctr.espBgEval e.trees.length
    let d := count d Ctr.espIdentSat ((List.range e.k).filter fun k => (replayScore e ms ps k).2).length
    let o := (List.range e.k).flatMap fun k => leBytes 6 (uns 48 (ms.getD k 0)) ++ leBytes 2 (replayScore e ms ps k).1
    if e.link ≠ 4 then (d, a.2.1 ++ o, a.2.2)
    else
      let p := fresh d
      let q := fresh p.2
      let t := postTask q.2 { cls := 1, src := 3, tenant, slot := x.slot, epoch, arg0 := p.1 % 2 ^ 64, arg1 := q.1 % 2 ^ 64
                              seq := 0 }
      (t.1, a.2.1 ++ o, if t.2 then set a.2.2 (lastSeq t.1 1) n else a.2.2)

/-- The paging fetches of a replay: an engine evaluates a node for all records of a block at once (R186), so that each node that a walk of the
block reaches is fetched once (R182, R184; log entry 145). -/
def replayFetches (e : Ensemble) (b : Bytes) (recs : Nat) : Nat :=
  ((List.range (cdiv recs 64)).map fun g =>
    let rows := (List.range (min 64 (recs - 64 * g))).map fun l => replayFeats e b g l
    (e.trees.map fun t => ((rows.flatMap fun fs => pagedReads e.flow t fs (t.depth + 1) 0).eraseDups).length).sum).sum

/-- REPLAY (R357). Without a context it completes with the default verdict in its request and no output (R27), after an expiry with
the expiry verdict (R278; log entry 51). -/
def replayRun (c : Nat) (src : Option Bytes) (d : Dev) (i : Nat) (x : Desc) : Dev :=
  if !gateOn d 10 then d else
  let keep := fun (y : Dev × Verdict) => ran (modDesc y.1 c i fun z => { z with verd := some y.2 }) c i 0 0
  match x.ctx.bind fun u => (unit? d u).map fun r => (u, r), replayEns d x with
  | none, _ => keep (jobDefault d c x)
  | some (u, r), e? =>
    if r.expired then keep (jobVerdict d u r)
    else if r.failed then ran d c i 0 0
    else match e? with
    | none => d
    | some e =>
    let n := x.blocks * e.feats.length * 264
    let t := dmaRead d x.srcDev x.src n src
    let go := fun (b : Bytes) (recs st : Nat) =>
      let pg := replayFetches e b recs
      let d := count (meter (meter t.1 19 (cdiv b.length 64)) 11 pg) Ctr.espPageFetch pg
      let a := (List.range recs).foldl (replayOne e x r.tenant r.epoch b) (d, [], [])
      if a.2.2.isEmpty then ran (dmaWrite a.1 x.auxDev x.aux a.2.1) c i st a.2.1.length
      else modDesc a.1 c i fun y => { y with links := a.2.2, outb := a.2.1, done := st }
    match t.2 with
    | .data b => go b x.recs 0
    | .poison b => go b (b.length / (264 * max 1 e.feats.length) * 64) 3
    | .fail => readFailed t.1 c i x

/-- LABEL (R357): the labels that could be read go to label intake in order. -/
def labelRun (c : Nat) (src : Option Bytes) (d : Dev) (i : Nat) (x : Desc) : Dev :=
  let t := dmaRead d x.srcDev x.src x.len src
  let go := fun (b : Bytes) (st : Nat) =>
    let d := meter t.1 19 (cdiv x.len 64)
    ran (each (tab (b.length / 32) fun j => slice b (32 * j) 32) d fun d raw => labelIntake d (.ring (chTenant d c)) raw) c i st 0
  match t.2 with
  | .data b => go b 0
  | .poison b => go b 3
  | .fail => readFailed t.1 c i x

/-- Posts an empty buffer (R357). -/
def exceptRun (c : Nat) (d : Dev) (i : Nat) (_ : Desc) : Dev := modDesc d c i fun y => { y with posted := true }

/-- A channel takes descriptors: one of KIND LABEL or EXCEPT only where it is its tenant's ring (R344). -/
def takesWork (d : Dev) (c : Nat) : Bool :=
  let k := rd d (Reg.dmaChOwnerKind c)
  decide (k < 2) || ringChan d (chTenant d c) k == some c

/-- A channel stops in HALTED (R351). -/
def chHalt (d : Dev) (c : Nat) : Dev :=
  let d := dmaCount (setChState d c 3)
  if rdB d (Reg.dmaChIrqErrEn c) then msix d (chFn d c) (rd d (Reg.dmaChIrqVector c)) else d

/-- A descriptor fetch has failed for good (R351, R359). -/
def fetchHalt (d : Dev) (c : Nat) : Dev := chHalt (wr d (Reg.dmaChStatFetchErr c) 1) c

/-- A descriptor fetch has failed once (R359). -/
def fetchFailed (d : Dev) (c : Nat) : Dev :=
  if (chan d c).tries < rd d Reg.dmaRetryCount then modChan d c fun x => { x with tries := x.tries + 1, waiting := true }
  else fetchHalt d c

/-- A fetched descriptor is in flight; a job takes its context (R26, R346). -/
def fetched (d : Dev) (c : Nat) (raw : Bytes) (st : Option Nat) : Dev :=
  let ch := chan d c
  let x : Desc := { (default : Desc) with idx := ch.fetch, raw, t := now d, status := st, verd := none, ctx := none }
  let z := if st.isNone ∧ (x.op = 5 ∨ x.op = 6) ∧ !descFormat (rd d (Reg.dmaChOwnerKind c)) x then jobContext d c x else (d, none)
  setChan z.1 c { ch with flight := ch.flight ++ [{ x with ctx := z.2 }], fetch := (ch.fetch + 1) % ringSize d c, tries := 0
                          waiting := false }

/-- DESCRIPTOR_FETCH (R346): a slot of the ring, where fewer than 4 descriptors are in flight. A ring in device memory lies in
the window; a poisoned slot gives POISON. -/
def descFetch (d : Dev) (c : Nat) (host : Option Bytes) : Dev :=
  let ch := chan d c
  if !dmaRuns d ∨ chState d c ≠ 1 ∨ ch.pausing ∨ ch.waiting ∨ 4 ≤ ch.flight.length ∨ !takesWork d c ∨
      ch.flight.any (fun x => match x.status with | some s => halting s | none => false) ∨
      ch.fetch = rd d (Reg.dmaChTailTail c) % ringSize d c then d else
  let dev := rdB d (Reg.dmaChRingCfgDev c)
  let a := ringSlot d c ch.fetch
  if dev ∧ (!inWindow d c a 64 ∨ !reachable d a) then fetchHalt d c else
  let r := dmaRead d dev a 64 host
  match r.2 with
  | .data b => fetched r.1 c b none
  | .poison _ => fetched r.1 c (zeros 64) (some 3)
  | .fail => fetchFailed r.1 c

/-- The counter of a status (R365). -/
def statusCount (st : Nat) : Nat :=
  [Ctr.dmaDescOk, Ctr.dmaBounds, Ctr.dmaFormat, Ctr.dmaPoison, Ctr.dmaBusErr, Ctr.dmaDomainOff, Ctr.dmaSkipped, Ctr.dmaNoSlot].getD st 0

/-- The request of a descriptor is finalised (R441, R448): the energy field, and for a job its verdict with it. -/
def descFinal (d : Dev) (c : Nat) (x : Desc) : Dev × Verdict :=
  let job := x.op = 5 ∨ x.op = 6
  let t := chTenant d c
  let slot := if job then x.slot else 256
  let occ := match x.ctx.bind (unit? d) with | some r => occupancy d r | none => 0
  let v := x.verd.getD { noVerdict with slot := slot % 256, epoch := jobEpoch d x }
  let f := finalise d t slot (if x.op = 5 then 3 else if x.op = 6 then 4 else 5) x.energy occ v
  (if job then tenantCounts f.1 t f.2.flags else f.1, f.2)

/-- A pause takes effect at a descriptor boundary (R361): buffers posted for exceptions stay in flight. -/
def chPause (d : Dev) (c : Nat) : Dev :=
  let x := chan d c
  let busy := x.flight.any fun y => !y.posted && (y.status.isSome || decide (0 < y.tries) || !y.outb.isEmpty)
  if !x.pausing ∨ busy ∨ chState d c ≠ 1 then d
  else
    let d := each (x.flight.filter fun y => !y.posted) d fun d y => match y.ctx with | some u => delUnit d u | none => d
    pfcCheck (dmaCount (setChState (modChan d c fun x => { x with pausing := false, flight := x.flight.filter (·.posted) }) c 2))

/-- The oldest descriptor of a channel completes (R347 to R349, R351, R356, R360). -/
def descComplete (d : Dev) (c : Nat) : Dev :=
  if !dmaRuns d ∨ chState d c ≠ 1 then d else
  match (chan d c).flight with
  | [] => d
  | x :: rest =>
    -- an output that waited for LINK tasks is written once the last of them has ended
    let ready := !x.outb.isEmpty && x.links.isEmpty && x.status.isNone
    let d := if ready then dmaWrite d x.auxDev x.aux x.outb else d
    match (if ready then some x.done else if x.outb.isEmpty && !x.posted && !x.waiting then x.status.orElse fun _ => descRefused d c x
           else x.status) with
    | none => d
    | some st =>
      let d := descStart d c 0
      let done := if ready then x.outb.length else x.done
      let dev := rdB d (Reg.dmaChRingCfgDev c)
      let f := descFinal (tick d (statusCount st)) c x
      let d := match x.verd with
        | some _ => if st = 0 ∧ x.op = 5 then dmaWrite f.1 x.auxDev x.aux (verdictBytes f.2 ++ leBytes 8 x.t ++ zeros 8) else f.1
        | none => f.1
      let d := dmaWrite d dev (ringSlot d c x.idx + 56) (leBytes 1 st ++ [1] ++ leBytes 2 f.2.energy ++ leBytes 4 done)
      let d := wr d (Reg.dmaChHeadHead c) ((x.idx + 1) % ringSize d c)
      let d := if st = 0 then d else wr d (Reg.dmaChStatLast c) st
      let d := match x.ctx with | some u => pfcCheck (delUnit d u) | none => d
      let d := modChan d c fun y => { y with flight := rest, bad := y.bad || st != 0 }
      let d := if x.irq ∧ rdB d (Reg.dmaChIrqEn c) then msix d (chFn d c) (rd d (Reg.dmaChIrqVector c)) else d
      if halting st then
        let d := each rest d fun d y => match y.ctx with | some u => delUnit d u | none => d
        pfcCheck (chHalt (modChan d c fun y => { y with flight := [], pausing := false }) c)
      else chPause d c

/-- A retry of a failed host read, DELAY after it (R359). -/
def busRetry (d : Dev) (c : Nat) (ok : Bool) : Dev :=
  if !dmaRuns d ∨ chState d c ≠ 1 then d else
  let ch := chan d c
  if ch.waiting then
    let d := modChan (tick d Ctr.dmaBusRetry) c fun x => { x with waiting := false }
    if ok then d else fetchFailed d c
  else match firstIdx (·.waiting) ch.flight with
    | none => d
    | some i =>
      let d := modDesc (tick d Ctr.dmaBusRetry) c i fun x => { x with waiting := false }
      if ok then d else readFailed d c i ((chan d c).flight.getD i default)

/-- The current descriptor of a channel in RUN touches a domain (R361). -/
def chTouches (d : Dev) (c k : Nat) : Bool :=
  chState d c == 1 && match (chan d c).flight.head? with | some x => (descDoms d x).contains k | none => false

/-- A channel is asked to pause: at once where it works on nothing, else once its current descriptor has completed (R361). -/
def askPause (d : Dev) (c : Nat) : Dev :=
  let d := modChan d c fun x => { x with pausing := true }
  if (chan d c).flight.any fun y => !y.posted then d else chPause d c

/-- Every channel whose current descriptor touches the domain is asked to pause (R361, R424). -/
def pauseDomain (d : Dev) (k : Nat) : Dev :=
  each (d.chans.map (·.1)) d fun d c => if chTouches d c k then askPause d c else d

/-- No channel works on a descriptor that touches the domain (R424). -/
def domainQuiet (d : Dev) (k : Nat) : Bool := !(d.chans.any fun p => chTouches d p.1 k)

/-- A gate-off request for DMA asks every channel to pause (R361). -/
def pauseAll (d : Dev) : Dev :=
  each (d.chans.map (·.1)) d fun d c => if chState d c = 1 then askPause d c else d

/-- The request is withdrawn before the gate is OFF (R420): nothing was stopped. -/
def pauseNone (d : Dev) : Dev := each (d.chans.map (·.1)) d fun d c => modChan d c fun x => { x with pausing := false }

/-- An exception record (R358) of the EXCEPTION task that a core has claimed. -/
def exceptRecord (r : UnitRec) (evT len : Nat) : Bytes :=
  let v := r.verdict.getD noVerdict
  let n := min r.len (len - 64)
  let reason := if r.cpuState ∧ v.action = 5 then 3 else if v.action = 2 then 1 else 2
  let flow := match r.entry with | some (i, _) => i | none => 0xFFFFFFFF
  verdictBytes v ++ leBytes 8 evT ++ leBytes 2 r.len ++ leBytes 1 r.src ++ leBytes 1 r.pipe ++ leBytes 1 reason ++ zeros 3 ++
    leBytes 4 flow ++ leBytes 4 n ++ zeros 24 ++ slice r.bytes 0 n

/-- EXCEPTION_RECORD (R227, R358): the record fills the oldest buffer that the tenant has posted. -/
def exceptionRecord (d : Dev) (core' : Nat) : Dev :=
  match (core d core').claimed with
  | none => d
  | some (t, _) =>
    if t.cls ≠ 0 then d else
    withUnit d t.arg0 fun r =>
      let none' := tick d Ctr.dmaExcNobuf
      match (if gateOn d 16 then ringChan d r.tenant 3 else none) with
      | none => none'
      | some c => match firstIdx (fun x => x.posted && x.status.isNone) (chan d c).flight with
        | none => none'
        | some i =>
          let x := (chan d c).flight.getD i default
          let b := exceptRecord r t.arg1 x.len
          let d' := dmaWrite (meter d 19 (cdiv b.length 64)) x.dstDev x.dst b
          modDesc d' c i fun y => { y with posted := false, status := some 0, done := b.length
                                           energy := y.energy + (d'.sgn.d - d.sgn.d) }

/-- The address of a register in a channel's block. -/
def chAddr (c off : Nat) : Nat := 0x01010000 + 64 * c + off

end Ops

/-- CHANNEL_ENABLE (R351). -/
def execChannelEnable (ch : Chn) (s : State) : Host.Outcome State Fault Refusal :=
  Ops.run s fun d => Ops.access d 0 (Ops.chAddr ch 0x14) true fun d => Ops.chEnable d ch
/-- CHANNEL_DISABLE (R351). -/
def execChannelDisable (ch : Chn) (s : State) : Host.Outcome State Fault Refusal :=
  Ops.run s fun d => Ops.access d 0 (Ops.chAddr ch 0x14) true fun d => Ops.chDisable d ch
/-- CHANNEL_RESUME (R351). -/
def execChannelResume (ch : Chn) (s : State) : Host.Outcome State Fault Refusal :=
  Ops.run s fun d => Ops.access d 0 (Ops.chAddr ch 0x14) true fun d => Ops.chResume d ch
/-- CHANNEL_RESET (R351). -/
def execChannelReset (ch : Chn) (s : State) : Host.Outcome State Fault Refusal :=
  Ops.run s fun d => Ops.access d 0 (Ops.chAddr ch 0x14) true fun d => Ops.chIdle d ch
/-- TAIL_DOORBELL (R347). -/
def execTailDoorbell (fn : Fn) (ch : Chn) (tail : Nat) (s : State) : Host.Outcome State Fault Refusal :=
  Ops.run s fun d => if Ops.reachesChan d fn ch then
      Ops.access d fn (Ops.chAddr ch 0x0C) true fun d => Ops.tailWrite d ch (tail % 65536)
    else d
/-- DESCRIPTOR_FETCH (R346). -/
def execDescriptorFetch (ch : Chn) (host : Option Bytes) (s : State) : Host.Outcome State Fault Refusal :=
  Ops.run s fun d => Ops.descFetch d ch host
/-- NOP (R352). -/
def execNop (ch : Chn) (s : State) : Host.Outcome State Fault Refusal :=
  Ops.run s fun d => Ops.startOp d ch 0 fun d i _ => Ops.ran d ch i 0 0
/-- COPY (R352). -/
def execCopy (ch : Chn) (src : Option Bytes) (preempt : Nat) (s : State) : Host.Outcome State Fault Refusal :=
  Ops.run s fun d => Ops.startOp d ch 1 fun d i x => Ops.transfer ch x.len src preempt (fun _ b => b) d i x
/-- GATHER (R353). -/
def execGather (ch : Chn) (src aux : Option Bytes) (preempt : Nat) (s : State) : Host.Outcome State Fault Refusal :=
  Ops.run s fun d => Ops.startOp d ch 2 (Ops.gather ch src aux preempt)
/-- PACK (R354). -/
def execPack (ch : Chn) (src : Option Bytes) (preempt : Nat) (s : State) : Host.Outcome State Fault Refusal :=
  Ops.run s fun d => Ops.startOp d ch 3 fun d i x => Ops.transfer ch x.len src preempt Ops.packed d i x
/-- TRANSPOSE (R355). -/
def execTranspose (ch : Chn) (src : Option Bytes) (preempt : Nat) (s : State) : Host.Outcome State Fault Refusal :=
  Ops.run s fun d => Ops.startOp d ch 4 fun d i x =>
    Ops.transfer ch ((x.count - 1) * x.stride + x.recLen) src preempt Ops.transposed d i x
/-- JOB (R356). -/
def execJob (ch : Chn) (src : Option Bytes) (fault : Option PassFault) (s : State) : Host.Outcome State Fault Refusal :=
  Ops.run s fun d => Ops.startOp d ch 5 (Ops.jobRun ch src fault)
/-- REPLAY (R357). -/
def execReplay (ch : Chn) (src : Option Bytes) (s : State) : Host.Outcome State Fault Refusal :=
  Ops.run s fun d => Ops.startOp d ch 6 (Ops.replayRun ch src)
/-- LABEL (R357). -/
def execLabel (ch : Chn) (src : Option Bytes) (s : State) : Host.Outcome State Fault Refusal :=
  Ops.run s fun d => Ops.startOp d ch 7 (Ops.labelRun ch src)
/-- EXCEPT (R357). -/
def execExcept (ch : Chn) (s : State) : Host.Outcome State Fault Refusal :=
  Ops.run s fun d => Ops.startOp d ch 8 (Ops.exceptRun ch)
/-- DESCRIPTOR_COMPLETE (R349). -/
def execDescriptorComplete (ch : Chn) (s : State) : Host.Outcome State Fault Refusal :=
  Ops.run s fun d => Ops.descComplete d ch
/-- BUS_RETRY (R359). -/
def execBusRetry (ch : Chn) (ok : Bool) (s : State) : Host.Outcome State Fault Refusal :=
  Ops.run s fun d => Ops.busRetry d ch ok
/-- DOORBELL_DMA_CHANNEL (R232). -/
def execDoorbellDmaChannel (core : CoreNo) (ch : Chn) (tail : Nat) (s : State) : Host.Outcome State Fault Refusal :=
  Ops.run s fun d => Ops.coreDoorbell d core ch (tail % 65536)
/-- EXCEPTION_RECORD (R358). -/
def execExceptionRecord (core : CoreNo) (s : State) : Host.Outcome State Fault Refusal :=
  Ops.run s fun d => Ops.exceptionRecord d core

end Sys2Proof.Machine
end

