-- ==== Sys2Proof/Machine/Sgn.lean ====
section
/-!
DEFINITION. Sgn.lean: Signet's intervals, batches and sessions (R437 to R455).
-/
namespace Sys2Proof.Machine
namespace Ops

/-- The on-times of the domains brought up to date (R439). -/
def domTime (d : Dev) : Dev :=
  let dt := now d - d.sgn.domT
  { d with sgn := { d.sgn with
    domOn := tab 14 fun k => d.sgn.domOn.getD k 0 + if domOn d k then dt else 0
    domT := now d } }

/-- The static estimate of the interval in U (R439). -/
def staticEst (d : Dev) : Nat :=
  let t := sgn 11 d.sgn.temp
  ((List.range 14).map fun k =>
    d.sgn.domOn.getD k 0 * ((d.sgn.cal.domA.getD k 0 : Int) + d.sgn.cal.domB.getD k 0 * t).toNat).sum

/-- K of the next interval and whether it is clamped (R446). -/
def nextK (k dyn m s : Nat) : Nat × Bool :=
  if dyn = 0 then (k, false)
  else
    let x := divRhe ((m * 65536 - s) * 2 ^ 24) dyn
    (min (max x (2 ^ 23)) (2 ^ 25), decide (x < 2 ^ 23 ∨ 2 ^ 25 < x))

/-- The sums of an interval (R446), in pJ but for `dyn` and `stat`, which are in U. -/
structure Sums where
  rails : List Nat
  dyn : Nat
  stat : Nat
  attr : Nat
  unattr : Int
  residual : Int
  deriving DecidableEq, Repr

def sumsOf (d : Dev) : Sums :=
  let rails := d.sgn.rails.map fun x => divRhe x 65536
  let s := staticEst d
  let a := divRhe (divRhe (d.sgn.d * rd d Reg.sgnKK) (2 ^ 24) + s) 65536
  { rails, dyn := d.sgn.d, stat := s, attr := d.sgn.attr, unattr := (a : Int) - d.sgn.attr
    residual := (rails.sum : Int) - a }

/-- The chain after the interval (R447). -/
def chainEnd (c : Chain) : Bytes :=
  if c.fields.isEmpty then c.val else Codes.sha256 (c.val ++ c.fields.flatMap fun f => leBytes 2 f)

/-- Bytes of a signed 64-bit amount. -/
def leInt (x : Int) : Bytes := leBytes 8 (uns 64 x)

/-- The device record (R450). -/
def devRecord (d : Dev) (x : Sums) (i fin flags skipped : Nat) : Bytes :=
  [0] ++ leBytes 1 flags ++ zeros 2 ++ leBytes 4 skipped ++ leBytes 8 i ++ leBytes 8 d.sgn.start ++ leBytes 8 fin ++
  (tab 7 fun k => leBytes 8 (x.rails.getD k 0)).flatten ++ leBytes 8 x.attr ++ leInt x.unattr ++ leInt x.residual ++
  leBytes 4 (rd d Reg.sgnKK) ++ leBytes 4 d.sgn.cal.version ++ zeros 8

/-- A slot record (R451) of the chain `key`. -/
def slotRecord (x : Sums) (i key : Nat) (c : Chain) : Bytes :=
  let e := (c.fields.map decEnergy).sum
  let q := (c.fields.map stepEnergy).sum
  let share : Int := if x.attr = 0 then 0 else (x.residual * e).tdiv x.attr
  [1] ++ leBytes 1 (key / 512) ++ leBytes 2 (key % 512) ++ leBytes 4 (min c.logLost (2 ^ 32 - 1)) ++ leBytes 8 i ++
  leBytes 8 c.fields.length ++ leBytes 8 e ++ leBytes 8 q ++ leInt share ++
  leBytes 8 (cdiv (e * 5) 1000 + share.natAbs + cdiv q 2) ++ leBytes 8 c.seq ++ chainEnd c ++ leBytes 8 c.runs ++
  leBytes 8 c.flowEnergy ++ leBytes 8 c.hopEnergy ++ zeros 8

/-- A partner record (R455). -/
def partnerRecord (key : Nat) (h : ChainHead) : Bytes :=
  [2] ++ leBytes 1 (key / 512) ++ leBytes 2 (key % 512) ++ zeros 4 ++ leBytes 8 h.interval ++ zeros 40 ++ leBytes 8 h.count ++
  padTo 32 h.val ++ leBytes 4 h.boot ++ leBytes 4 h.resets ++ zeros 24

/-- One level of the Merkle tree (R452): pairs are hashed, an odd last node goes up unchanged. -/
def merkleUp : List Bytes → List Bytes
  | a :: b :: r => Codes.sha256 ([1] ++ a ++ b) :: merkleUp r
  | l => l

/-- The root over `n` levels at most. -/
def merkleRoot : Nat → List Bytes → Bytes
  | _, [] => zero32
  | _, [a] => a
  | 0, a :: _ => a
  | n + 1, l => merkleRoot n (merkleUp l)

/-- A batch (R452). -/
def batchBytes (d : Dev) (records : List Bytes) : Bytes :=
  let root := merkleRoot records.length (records.map fun r => Codes.sha256 ([0] ++ r))
  let h := [0x53, 0x47, 0x4E, 0x42] ++ leBytes 2 1 ++ zeros 2 ++ leBytes 4 records.length ++ leBytes 4 d.sgn.boot ++
    leBytes 4 d.sgn.resets ++ zeros 4 ++ leBytes 8 d.sgn.bseq ++ root
  h ++ records.flatten ++ Config.ed25519 h

/-- Something of a chain falls into the interval (R449). -/
def chainActive (c : Chain) : Bool := !c.fields.isEmpty || decide (0 < c.runs) || decide (0 < c.hopEnergy)

/-- The heads of the batch's chains go to the Clasp partner (R455); the order of the fields is the model's (log entry 12). -/
def sendHeads (d : Dev) (i : Nat) (cs : Map Chain) : Dev :=
  if rd d Reg.clpStatState ≠ 1 ∧ rd d Reg.clpStatState ≠ 2 then d else
  each cs d fun d p => sendPartner d 14 ([3] ++ leBytes 1 (p.1 / 512) ++ leBytes 2 (p.1 % 512) ++ leBytes 4 d.sgn.boot ++
    leBytes 4 d.sgn.resets ++ leBytes 8 i ++ leBytes 8 p.2.seq ++ chainEnd p.2)

/-- A checked calibration table comes into force (R440). -/
def calSwap (d : Dev) : Dev :=
  match d.sgn.calPend with
  | none => d
  | some c => wrs { d with sgn := { d.sgn with cal := c, calPend := none, calSwap := true } }
      [(Reg.sgnStatCalPend, 0), (Reg.sgnCalVerVersion, c.version)]

/-- The open interval closes at `fin`, with STEP or FROZEN and SKIPPED as R454 states, and the next one starts at
`next` (R446 to R452). -/
def closeInterval (d : Dev) (fin next : Nat) (step frozen : Bool) (skipped : Nat) : Dev :=
  let d := domTime d
  let x := sumsOf d
  let i := d.sgn.start / 1000000
  let k := nextK (rd d Reg.sgnKK) x.dyn x.rails.sum x.stat
  let flags := b2n step + 2 * b2n frozen + 4 * b2n k.2 + 8 * b2n d.sgn.bootSat +
    16 * b2n (d.sgn.fallback || rdB d Reg.clkTbStatFallback) + 32 * b2n (d.sgn.hold || holding d) + 64 * b2n d.sgn.calSwap
  let cs := d.sgn.chains.filter fun p => chainActive p.2
  let partners := if d.clp.partnerRec then d.clp.heads.map fun p => partnerRecord p.1 p.2 else []
  let recs := devRecord d x i fin flags skipped :: cs.map (fun p => slotRecord x i p.1 p.2) ++ partners
  let batch := batchBytes d recs
  let d := wr64 (sendHeads (tick d Ctr.sgnIntervals) i cs) Reg.sgnBseqLoBseq Reg.sgnBseqHiBseq d.sgn.bseq
  let last := x.rails ++ [0, x.attr, uns 64 x.unattr, uns 64 x.residual, i]
  let d := each (List.range 12) d fun d j => wr64 d (Reg.sgnLastWord (2 * j)) (Reg.sgnLastWord (2 * j + 1)) (last.getD j 0)
  let d := if k.2 then wr d Reg.sgnStatKClamp 1 else d
  let d := wr d Reg.sgnKK k.1
  let sigma := x.stat / max d.sgn.occ (rd d Reg.sgnStaticCfgCtx * 1000000)
  let chains := d.sgn.chains.map fun p =>
    (p.1, { p.2 with val := chainEnd p.2, fields := [], runs := 0, flowEnergy := 0, hopEnergy := 0 })
  let d := { d with
    sgn := { d.sgn with
      bseq := d.sgn.bseq + 1, start := next, sigma, d := 0, occ := 0, attr := 0, rails := List.replicate 7 0
      domOn := List.replicate 14 0, temp := rd d Reg.clkThermStatMax, chains, calSwap := false
      fallback := rdB d Reg.clkTbStatFallback, hold := holding d, batches := d.sgn.batches ++ [batch] }
    clp := { d.clp with partnerRec := false } }
  calSwap d

/-- The boundary that ends the open interval. -/
def intervalEnd (d : Dev) : Nat := (d.sgn.start / 1000000 + 1) * 1000000

/-- SIGNET_INTERVAL_END (R446): no interval closes in a freeze (R454). -/
def signetEnd (d : Dev) : Dev :=
  if !sgnOn d ∨ frozen d ∨ now d < intervalEnd d then d
  else closeInterval d (intervalEnd d) (intervalEnd d) false false 0

/-- The interval that a forward step of the time base closes (R454); `old` is the time before the step. -/
def signetStep (d : Dev) (old : Nat) : Dev :=
  let k := now d / 1000000 - old / 1000000
  if !sgnOn d ∨ frozen d ∨ k = 0 then d
  else closeInterval d (now d) ((now d / 1000000 + 1) * 1000000) true false (k - 1)

/-- The interval that covers a freeze closes at its end (R454). -/
def signetThaw (d : Dev) : Dev :=
  let k := now d / 1000000 - d.sgn.start / 1000000
  if !sgnOn d ∨ k = 0 then d
  else
    let e := now d / 1000000 * 1000000
    closeInterval d e e false true (k - 1)

/-- A batch is written to the ledger, or lost (R452). The ring keeps one unit free, so that WR = RD means an empty ring
(log entry 9). A batch formed before the gate left ON is still written while the gate is PENDING_OFF. -/
def batchWrite (d : Dev) : Dev :=
  if gate d 21 = .off ∨ gate d 21 = .pendOn then d else
  match d.sgn.batches with
  | [] => d
  | b :: rest =>
    let d := { d with sgn := { d.sgn with batches := rest } }
    let n := rd d Reg.sgnLedgerSizeSize * 1024
    let w := rd d Reg.sgnLedgerWrWr
    let len := b.length / 64
    let used := (w + n - rd d Reg.sgnLedgerRdRd % max 1 n) % max 1 n
    let d := if !rdB d Reg.sgnCtlLedgerEn ∨ n ≤ used + len then wr (tick d Ctr.sgnLedgerLost) Reg.sgnStatLedgerFull 1
      else
        let a := rd64 d Reg.sgnLedgerLoAddr Reg.sgnLedgerHiAddr / 65536 * 65536
        let first := 64 * (n - w)
        let d := emit (meter d 20 len) (.hostWrite (a + 64 * w) (b.take first))
        let d := if b.length ≤ first then d else emit d (.hostWrite a (b.drop first))
        wr d Reg.sgnLedgerWrWr ((w + len) % n)
    irq d Reg.sgnIrqEn Reg.sgnIrqVector

/-- A session starts (R453): SGN's gate reads ON. -/
def sessionStart (d : Dev) : Dev :=
  let raise := !d.sgn.booted
  let full := decide (8191 ≤ d.sgn.boot)
  let d := each (List.range 64) d fun d t => setCtr (setCtr d (Ctr.sgnTEnergy t) 0) (Ctr.sgnTReqs t) 0
  let d := { d with sgn := { d.sgn with
    session := true, boot := if raise && !full then d.sgn.boot + 1 else d.sgn.boot, booted := true
    bootSat := d.sgn.bootSat || (raise && full), resets := (d.sgn.resets + 1) % 2 ^ 32, bseq := 0
    start := now d, sigma := 0, d := 0, occ := 0, attr := 0, rails := List.replicate 7 0, domOn := List.replicate 14 0
    domT := now d, temp := rd d Reg.clkThermStatMax, chains := [], fallback := rdB d Reg.clkTbStatFallback
    hold := holding d, calSwap := false } }
  wrs d [(Reg.sgnStatSession, 1), (Reg.sgnStatBootSat, b2n d.sgn.bootSat), (Reg.sgnKK, 2 ^ 24)]

/-- A session ends (R453): its open interval is discarded. -/
def sessionEnd (d : Dev) : Dev :=
  wr { d with sgn := { d.sgn with session := false } } Reg.sgnStatSession 0

/-- A calibration table as its 416 bytes give it (R440). -/
def calOf (b : Bytes) : Cal :=
  { version := le b 12 4, coef := tab 24 fun j => le b (64 + 4 * j) 4
    domA := tab 14 fun k => le b (160 + 8 * k) 4, domB := tab 14 fun k => sgn 32 (le b (164 + 8 * k) 4)
    vscale := tab 24 fun j => le b (272 + 2 * j) 2 }

/-- The code of a calibration table (R440): 0, or FORMAT, VERSION, SIGNATURE in that order. -/
def calCheck (d : Dev) (keys : List VerKey) (b : Bytes) : Nat :=
  if b.length < 416 ∨ b.take 4 ≠ [0x53, 0x47, 0x43, 0x54] ∨ le b 4 2 ≠ 1 ∨ !Img.zeroAt b 6 2 ∨ !Img.zeroAt b 10 2 ∨
      !Img.zeroAt b 16 48 ∨ ([0, 1, 2].any fun k => le b (272 + 16 * k + 14) 2 != 32768) then 0x21
  else if le b 8 2 ≠ rd d Reg.topIdPart then 0x22
  else if !Img.anyKey keys 2 0 (slice b 0 320) (slice b 320 96) then 0x20
  else 0

/-- CAL_LOAD written 1 (R440). -/
def calLoad (d : Dev) : Dev := if rdB d Reg.sgnStatCalBusy then d else wr d Reg.sgnStatCalBusy 1

/-- A load of a calibration table ends (R440). -/
def calDone (d : Dev) : Dev :=
  if !rdB d Reg.sgnStatCalBusy then d else
  let r := memRead d (rd64 d Reg.sgnCalAddrLoAddr Reg.sgnCalAddrHiAddr) 416
  let code := if r.2.2 then 0x20 else calCheck r.1 r.1.cfg.keys r.2.1
  let d := wrs r.1 [(Reg.sgnStatCalBusy, 0), (Reg.sgnCalStatCode, code)]
  if code ≠ 0 then d
  else wr { d with sgn := { d.sgn with calPend := some (calOf r.2.1) } } Reg.sgnStatCalPend 1

/-- One microsecond of the rails: V times I times 1 µs of each rail in units of 2^-16 pJ (R437), and the lanes that were idle
(R438). -/
def railSample (d : Dev) (e : List Nat) (idle : Nat) : Dev :=
  if !d.sgn.session then d
  else
    let d := meter d 23 idle
    { d with sgn := { d.sgn with rails := tab 7 fun k => d.sgn.rails.getD k 0 + e.getD k 0 } }

end Ops

/-- SIGNET_INTERVAL_END (R446). -/
def execSignetIntervalEnd (s : State) : Host.Outcome State Fault Refusal := Ops.run s Ops.signetEnd
/-- BATCH_WRITE (R452). -/
def execBatchWrite (s : State) : Host.Outcome State Fault Refusal := Ops.run s Ops.batchWrite
/-- CAL_LOAD (R440). -/
def execCalLoad (s : State) : Host.Outcome State Fault Refusal :=
  Ops.run s fun d => Ops.access d 0 0x01500000 true Ops.calLoad
/-- CAL_LOAD_DONE (R440). -/
def execCalLoadDone (s : State) : Host.Outcome State Fault Refusal := Ops.run s Ops.calDone
/-- RAIL_SAMPLE (R437). -/
def execRailSample (energy : RailEnergy) (s : State) : Host.Outcome State Fault Refusal :=
  Ops.run s fun d => Ops.railSample d energy.rails energy.idle

end Sys2Proof.Machine
end

