-- ==== Sys2Proof/Machine/Gates.lean ====
section
/-!
DEFINITION. Gates.lean: gates and power domains (R419 to R427), and what blocks discard at gating (R194, R224, R241, R312, R361,
R394, R453).
-/
namespace Sys2Proof.Machine
namespace Ops

/-- Blocks that are never gated (R419). -/
def neverGated (k : Nat) : Bool := [0, 1, 2, 3, 17, 20, 23].contains k

/-- The domain that holds a block's control (R423). -/
def gateDom (k : Nat) : Nat :=
  match k with
  | 15 => 3 | 16 => 2 | 17 => 2 | 4 => 7 | 5 | 18 | 19 => 8 | 10 => 9 | 11 => 11 | 12 => 13
  | 6 | 7 | 8 | 9 | 13 | 14 => 6
  | _ => 1

/-- Domains that may be switched (R423). -/
def switchable (k : Nat) : Bool := [5, 7, 8, 9, 10, 11, 12, 13].contains k

def setGate (d : Dev) (k : Nat) (s : GateSt) : Dev := { d with clk := { d.clk with gate := d.clk.gate.setIfInBounds k s } }
def setDom (d : Dev) (k : Nat) (s : GateSt) : Dev := { domTime d with clk := { d.clk with dom := d.clk.dom.setIfInBounds k s } }

/-- The request bit of a block (R420). -/
def enBit (d : Dev) (k : Nat) : Bool := if k < 16 then bit (rd d Reg.topGateEn0En) k else bit (rd d Reg.topGateEn1En) (k - 16)
def setEn (d : Dev) (k : Nat) (b : Bool) : Dev :=
  let f := if k < 16 then Reg.topGateEn0En else Reg.topGateEn1En
  let i := k % 16
  wr d f (rd d f - put (b2n (bit (rd d f) i)) i 1 + put (b2n b) i 1)

/-- A block reads ON: a session starts with SGN, the cores read DRAINED with SPR and the learn log's task is posted (R109, R239, R453), and links whose ENABLE and signal stand
leave DOWN (R62). -/
def gateOnFx (d : Dev) (k : Nat) : Dev :=
  match k with
  | 5 => lTry d .stem
  | 18 => each [0, 1, 2, 3] d fun d l => lTry d (.trl l)
  | 19 => each [0, 1] d fun d l => lTry d (.clp l)
  | 12 => logPost (sprOn d)
  | 21 => sessionStart { d with sgn := { d.sgn with batches := [] } }
  | _ => d

/-- ESP is gated off (R194). -/
def espOff (d : Dev) : Dev :=
  { count d Ctr.espLpsExpire (d.leafRecs.filter (!·.used)).length with
    leafRecs := [], labels := [], banks := d.banks.filter fun p => p.1 % 2 != 0 }

/-- MXT is gated off (R224): head records and banks go, and turns in the lanes are lost; what waits for their writes reads the state as it is. -/
def mxtOff (d : Dev) : Dev :=
  let d' := { d with
    headRecs := []
    banks := d.banks.filter fun p => p.1 % 2 != 1
    flw := { d.flw with pend := [] }
    units := d.units.map fun p => (p.1, if p.2.stage = .turning then { p.2 with failed := true } else p.2) }
  each (d.units.filterMap fun p => p.2.readOf) d' settle

/-- A link goes DOWN whatever its ENABLE says. -/
def linkOff (d : Dev) (k : LinkId) : Dev := lEnter (lLeave d k) k 0
def trlOff (d : Dev) : Dev := linkOff (linkOff (linkOff (linkOff d (.trl 0)) (.trl 1)) (.trl 2)) (.trl 3)
def clpOff (d : Dev) : Dev := linkOff (linkOff d (.clp 0)) (.clp 1)

/-- A block reads OFF: what its own chapter discards. -/
def gateOffFx (d : Dev) (k : Nat) : Dev :=
  match k with
  | 10 => espOff d
  | 11 => mxtOff d
  | 12 => sprOff d
  | 14 => tmgDiscard d
  | 18 => trlOff d
  | 19 => clpOff d
  | _ => d

/-- The forced gate-off count of a block: from the write of 0, but for DMA and MEM (R335, R361, R420). -/
def startCount (d : Dev) (k : Nat) : Dev :=
  if k = 15 ∨ k = 16 then d else { d with clk := { d.clk with gateDl := set d.clk.gateDl k (now d + 4096) } }

/-- A gate is asked off: it is PENDING_OFF, and the DMA channels pause (R361, R420). -/
def gateClosing (d : Dev) (k : Nat) : Dev :=
  let d := setGate d k .pendOff
  if k = 16 then dmaCount (pauseAll d) else d

/-- A gate leaves ON: a session ends with it (R453). -/
def gatePendOff (d : Dev) (k : Nat) : Dev := startCount (gateClosing (if k = 21 then sessionEnd d else d) k) k

/-- A block's request bit is written (R420). -/
def gateBit (d : Dev) (k : Nat) (b : Bool) : Dev :=
  if neverGated k ∨ 24 ≤ k then d else
  let d := setEn d k b
  match gate d k, b with
  | .off, true => setGate d k .pendOn
  | .pendOff, true =>
    let d := setGate { d with clk := { d.clk with gateDl := del d.clk.gateDl k } } k .on
    if k = 16 then pauseNone d else if k = 21 then sessionStart d else d
  | .pendOn, true => { d with clk := { d.clk with gateDl := del d.clk.gateDl k } }
  | .pendOn, false => startCount d k
  | .on, false => gatePendOff d k
  | _, _ => d

/-- A write of `TOP_GATE_EN0` or `TOP_GATE_EN1`; in a freeze it waits (R435). -/
def gateWrite (d : Dev) (upper : Bool) (data : Nat) : Dev :=
  if frozen d then { d with clk := { d.clk with frozenRq := d.clk.frozenRq ++ [(if upper then 0x104 else 0x100, data)] } }
  else if upper then each (List.range 8) d fun d i => gateBit d (16 + i) (bit data i)
  else each (List.range 16) d fun d i => gateBit d i (bit data i)

/-- A block's clocks have started and its reset has elapsed (R420). A domain that waits to go OFF still supplies a block that is asked off
(log entry 165). -/
def gateOnDone (d : Dev) (k : Nat) : Dev :=
  if gate d k ≠ .pendOn ∨ frozen d ∨ holding d then d
  else if enBit d k then (if domOn d (gateDom k) then gateOnFx (setGate d k .on) k else d)
  else if domOn d (gateDom k) || dom d (gateDom k) == .pendOff then gateClosing d k
  else d

/-- Blocks that use the memory fabric (R317, R335). -/
def fabricUsers : List Nat := [6, 7, 8, 10, 11, 12, 14, 16]

/-- The block's own condition for its gate to close (R335, R361). -/
def gateIdle (d : Dev) (k : Nat) : Bool :=
  if k = 15 then fabricUsers.all fun j => gate d j == .off else if k = 16 then allPaused d
  else if k = 21 then d.sgn.batches.isEmpty else true

/-- A gate reads OFF. -/
def gateClose (d : Dev) (k : Nat) : Dev :=
  gateOffFx (setGate { d with clk := { d.clk with gateDl := del d.clk.gateDl k } } k .off) k

/-- A block's ports are idle, with its own condition (R420). -/
def gateOffDone (d : Dev) (k : Nat) : Dev :=
  if gate d k ≠ .pendOff ∨ frozen d ∨ !gateIdle d k then d else gateClose d k

/-- The count of a pending gate-off has elapsed (R420). -/
def gateForced (d : Dev) (k : Nat) : Dev :=
  match find? d.clk.gateDl k with
  | some t => if gate d k ≠ .pendOff ∨ frozen d ∨ now d < t then d else gateClose (tick d Ctr.clkGateForced) k
  | none => d

/-- A refused domain request (R424, R425). -/
def domRefused (d : Dev) (k reason : Nat) : Dev :=
  tick (wrs d [(Reg.pwrDomRejDomain, k), (Reg.pwrDomRejReason, reason), (Reg.pwrDomRejValid, 1)]) Ctr.clkPwrRefused

def setReq (d : Dev) (k : Nat) (b : Bool) : Dev :=
  let f := Reg.pwrDomReqOn
  wr d f (rd d f - put (b2n (bit (rd d f) k)) k 1 + put (b2n b) k 1)

/-- A live epoch uses a unit inside an engine domain (R424). -/
def domUsed (d : Dev) (k : Nat) : Bool :=
  decide (9 ≤ k ∧ k ≤ 12) && d.epochs.any fun e => e.cfg.models.any fun p => p.2.sched.any fun s =>
    match schedUnit s with | some u => unitDom d u.1 u.2 == k | none => false

/-- A pending request belongs to the write of `PWR_DOM_REQ` that made it. -/
def domBatched (d : Dev) (k : Nat) : Dev := { d with clk := { d.clk with domBatch := set d.clk.domBatch k d.clk.domWrites } }

/-- Another request of the same kind, made together with that of `k`, completes before it: a lower power-up or a higher power-down
(R427). -/
def domWaits (d : Dev) (k : Nat) : Bool :=
  (List.range 14).any fun j =>
    dom d j == dom d k && find? d.clk.domBatch j == find? d.clk.domBatch k &&
      (if dom d k = .pendOn then decide (j < k) else decide (k < j))

/-- Power-down of a domain is requested (R424). -/
def domDown (d : Dev) (k : Nat) : Dev :=
  if !switchable k then domRefused d k 1
  else match dom d k with
  | .on =>
    if domUsed d k then domRefused d k 2
    else if (k = 9 ∧ domOn d 10) ∨ (k = 11 ∧ domOn d 12) then domRefused d k 3
    else
      let d := domBatched (setDom (setReq d k false) k .pendOff) k
      let d := each ((List.range 24).filter fun g => gateDom g == k) d fun d g => gateBit d g false
      pauseDomain d k
  | .pendOn => { setReq d k false with clk := { d.clk with domNext := set d.clk.domNext k false } }
  | _ => { setReq d k false with clk := { d.clk with domNext := del d.clk.domNext k } }

/-- Power-up of a domain is requested (R425). -/
def domUp (d : Dev) (k : Nat) : Dev :=
  match dom d k with
  | .off =>
    if (k = 10 ∧ dom d 9 = .off) ∨ (k = 12 ∧ dom d 11 = .off) then domRefused d k 3
    else domBatched (setDom (setReq d k true) k .pendOn) k
  | .pendOff => { setReq d k true with clk := { d.clk with domNext := set d.clk.domNext k true } }
  | _ => { setReq d k true with clk := { d.clk with domNext := del d.clk.domNext k } }

/-- A write of `PWR_DOM_REQ` (R424, R425, R427): power-ups in index order, power-downs in descending order. -/
def domWrite (d : Dev) (data : Nat) : Dev :=
  if frozen d then { d with clk := { d.clk with frozenRq := d.clk.frozenRq ++ [(0x00100200, data)] } }
  else
    let d := { d with clk := { d.clk with domWrites := d.clk.domWrites + 1 } }
    let d := each ((List.range 14).filter fun k => switchable k && bit data k) d domUp
    each ((List.range 14).reverse.filter fun k => !bit data k) d domDown

/-- An opposite request that has waited takes effect (R425). -/
def domPending (d : Dev) (k : Nat) : Dev :=
  match find? d.clk.domNext k with
  | none => d
  | some b =>
    let d := { d with clk := { d.clk with domNext := del d.clk.domNext k, domWrites := d.clk.domWrites + 1 } }
    if b then domUp d k else domDown d k

/-- What a switched-off domain takes with it (R426). -/
def domOffFx (d : Dev) (k : Nat) : Dev :=
  match k with
  | 7 => each (List.range 32) d fun d n => wr d (Reg.prtPortStatLinkUp n) 0
  | 8 => clpOff (trlOff (linkOff d .stem))
  | _ => d

/-- The power switches of a domain have opened (R424). -/
def domOffDone (d : Dev) (k : Nat) : Dev :=
  let gates := (List.range 24).filter fun g => gateDom g == k
  if dom d k ≠ .pendOff ∨ frozen d ∨ !(gates.all fun g => gate d g == .off) ∨ !domainQuiet d k ∨ domWaits d k then d
  else domPending (domOffFx (setDom d k .off) k) k

/-- The registers of a block return to their reset values (R425). -/
def blockReset (d : Dev) (k : Nat) : Dev :=
  let mine := fun (a : Nat) => decide (a % 2 ^ 40 / 32 / 0x100000 = k)
  { d with
    regs := d.regs.filter fun p => !mine p.1
    shadow := d.shadow.filter fun p => !mine p.1
    ctrs := d.ctrs.filter fun p => p.1 / 0x100000 != k }

/-- What a block holds beside its registers is lost with its supply (R425). -/
def blockEmpty (d : Dev) (k : Nat) : Dev :=
  match k with
  | 5 => { d with stm := Dev.reset.stm }
  | 12 => { d with spr := Dev.reset.spr }
  | 18 => { d with trl := Dev.reset.trl }
  | 19 => { d with clp := Dev.reset.clp }
  | _ => d

/-- A domain's power-up time has elapsed (R425). -/
def domOnDone (d : Dev) (k : Nat) : Dev :=
  if dom d k ≠ .pendOn ∨ frozen d ∨ domWaits d k then d
  else
    let d := each ((List.range 24).filter fun g => gateDom g == k) (setDom d k .on) fun d g => blockEmpty (blockReset d g) g
    domPending d k

end Ops

/-- GATE_REQUEST (R420). -/
def execGateRequest (upper : Bool) (data : Word) (s : State) : Host.Outcome State Fault Refusal :=
  Ops.run s fun d => Ops.access d 0 (if upper then 0x104 else 0x100) true fun d => Ops.gateWrite d upper data.toNat
/-- GATE_ON_DONE (R420). -/
def execGateOnDone (gate : Gate) (s : State) : Host.Outcome State Fault Refusal := Ops.run s fun d => Ops.gateOnDone d gate
/-- GATE_OFF_DONE (R420). -/
def execGateOffDone (gate : Gate) (s : State) : Host.Outcome State Fault Refusal := Ops.run s fun d => Ops.gateOffDone d gate
/-- GATE_FORCED_OFF (R420). -/
def execGateForcedOff (gate : Gate) (s : State) : Host.Outcome State Fault Refusal := Ops.run s fun d => Ops.gateForced d gate
/-- DOMAIN_REQUEST (R424, R425). -/
def execDomainRequest (data : Word) (s : State) : Host.Outcome State Fault Refusal :=
  Ops.run s fun d => Ops.access d 0 0x00100200 true fun d => Ops.domWrite d data.toNat
/-- DOMAIN_OFF_DONE (R424). -/
def execDomainOffDone (dom : Dom) (s : State) : Host.Outcome State Fault Refusal := Ops.run s fun d => Ops.domOffDone d dom
/-- DOMAIN_ON_DONE (R425). -/
def execDomainOnDone (dom : Dom) (s : State) : Host.Outcome State Fault Refusal := Ops.run s fun d => Ops.domOnDone d dom

end Sys2Proof.Machine
end

