-- ==== Sys2Proof/Machine/Clk.lean ====
section
/-!
DEFINITION. Clk.lean: DVFS (R415 to R418), source selection, the clock monitor and clock holds (R428 to R433), thermal trips
(R434), and requests that wait for the end of a freeze (R435).
-/
namespace Sys2Proof.Machine
namespace Ops

/-- A write of TARGET (R417); during a freeze its steps wait (R435). -/
def dvfsWrite (d : Dev) (k target : Nat) : Dev :=
  if 3 ≤ k ∨ !rdB d (Reg.clkDvfsCfgMode k) then d
  else if target % 8 < rd d (Reg.clkDvfsCfgFloor k) then tick (wr d (Reg.clkDvfsStatRefused k) 1) Ctr.clkDvfsRefused
  else dvfsAim d k target

/-- A step of the sequencer ends (R417); a target written during it takes effect now. -/
def dvfsStep (d : Dev) (k : Nat) : Dev :=
  if 3 ≤ k ∨ !rdB d (Reg.clkDvfsStatBusy k) ∨ !moving d then d
  else
    let p := (find? d.clk.dvfsNext k).getD (rd d (Reg.clkDvfsStatPoint k))
    dvfsStart (wrs (tick d Ctr.clkDvfsStep) [(Reg.clkDvfsStatPoint k, p), (Reg.clkDvfsStatBusy k, 0)]) k

/-- The root PLL's reference is switched (R428, R142). -/
def switchTo (d : Dev) (fb : Bool) : Dev :=
  let d := wrs { d with clk := { d.clk with onFb := fb } } [(Reg.clkRootStatSrc, b2n fb), (Reg.clkTbStatFallback, b2n fb)]
  let d := { d with sgn := { d.sgn with fallback := d.sgn.fallback || fb } }
  if fb then wr d Reg.clkTbStatUnsynced 1 else d

/-- A source is READY (R428, R429). -/
def srcReady (d : Dev) (fb : Bool) : Bool := if fb then rdB d Reg.clkSrcStatFbReady else rdB d Reg.clkSrcStatRefReady

/-- A write of SEL (R428). -/
def selWrite (d : Dev) (fb : Bool) : Dev :=
  if rd d Reg.clkSwStatResult = 1 ∨ holding d then d
  else if fb = d.clk.onFb then wr d Reg.clkSwStatResult 2
  else if !srcReady d fb then tick (wr d Reg.clkSwStatResult 3) Ctr.clkSwRefused
  else wrs (switchTo d fb) [(Reg.clkSrcCtlSel, b2n fb), (Reg.clkSwStatResult, 1)]

/-- A write of FB_EN (R429). -/
def fbWrite (d : Dev) (en : Bool) : Dev :=
  if !en ∧ d.clk.onFb then d
  else
    let d := wr d Reg.clkSrcCtlFbEn (b2n en)
    if en then d else wr d Reg.clkSrcStatFbReady 0

/-- A write of `CLK_SRC_CTL`; in a freeze a source switch waits (R435). -/
def sourceWrite (d : Dev) (data : Nat) : Dev :=
  let d := fbWrite d (bit data 1)
  if frozen d then { d with clk := { d.clk with frozenRq := d.clk.frozenRq ++ [(0x00100004, data)] } } else selWrite d (bit data 0)

/-- The PLL reports lock: a switch ends (R428). -/
def pllLock (d : Dev) : Dev :=
  let d := wr d Reg.clkRootStatLocked 1
  if rd d Reg.clkSwStatResult = 1 then tick (wr d Reg.clkSwStatResult 2) Ctr.clkSwDone else d

/-- In a clock hold, the PLL goes over to the new source once that is READY (R431). -/
def holdSwitch (d : Dev) : Dev :=
  match d.clk.holdTo with
  | some fb => if srcReady d fb ∧ d.clk.onFb ≠ fb then wr (switchTo d fb) Reg.clkRootStatLocked 0 else d
  | none => d

/-- The fallback oscillator has started: software or a clock hold has asked for it (R429, R431). -/
def fbReady (d : Dev) : Dev :=
  if rdB d Reg.clkSrcCtlFbEn ∨ d.clk.holdTo = some true then holdSwitch (wr d Reg.clkSrcStatFbReady 1) else d

/-- The reference has run for 10 ms without a trip condition (R429). -/
def refReady (d : Dev) : Dev := holdSwitch (wr d Reg.clkSrcStatRefReady 1)

/-- The monitor trips on the current source (R430): a clock hold starts (R431). -/
def monitorTrip (d : Dev) (pll : Bool) : Dev :=
  let d := wrs (tick d Ctr.clkMonTrip)
    [(Reg.clkMonStatTrip, 1), (Reg.clkMonStatLastCause, if pll then 2 else 1)]
  let d := if d.clk.onFb then d else wr d Reg.clkSrcStatRefReady 0
  let d := if pll then wr d Reg.clkRootStatLocked 0 else d
  let d := irq d Reg.clkIrqEn Reg.clkIrqVector
  if holding d then d
  else
    let d := wr d Reg.clkRootStatHolding 1
    holdSwitch { d with clk := { d.clk with holdTo := some (!d.clk.onFb), holdDl := some (now d + 2000000) }
                        sgn := { d.sgn with hold := true } }

/-- A comparison of both sources over a window (R430): `far` is the disagreement in percent. -/
def sourceCompare (d : Dev) (far : Nat) : Dev :=
  if rd d Reg.clkMonCfgTol < far then wr d Reg.clkSrcStatDisagree 1 else d

/-- An inline unit that a clock hold or a freeze has interrupted is dropped and counted in `c` (R432, R495); one past stage 2 is a
request (R441). -/
def holdDropUnit (d : Dev) (c u : Nat) (r : UnitRec) (n : Nat) : Dev :=
  let d := if r.fcs.isNone then tick d (Ctr.prtRxErr n) else tick d c
  let d := if r.hasCtx then
      tenantCounts (finalise d r.tenant r.slot 1 r.energy (occupancy d r) { noVerdict with slot := r.slot }).1 r.tenant 0
    else d
  delUnit (endTurn d u r) u

/-- What a clock hold or a freeze interrupts ends at the restart; what is dropped is counted in `c` (R432, R495). -/
def holdEnds (d : Dev) (c : Nat) : Dev :=
  let d := each d.units d fun d p => match p.2.kind with
    | .inline n => if p.2.stage = .done then d else holdDropUnit d c p.1 p.2 n
    | .job _ => if p.2.res = .none then setUnit d p.1 { p.2 with failed := true } else d
    | _ => d
  let d := count d c (d.tmg.queues.map fun q => q.2.pkts.length).sum
  let d := { d with
    tmg := { d.tmg with queues := d.tmg.queues.map (fun q => (q.1, { q.2 with pkts := [] })), used := 0 }
    flw := { d.flw with pend := [] } }
  let d := each (List.range d.runs.length) d fun d _ => endRun d 0
  let d := each (d.units.filterMap fun p => p.2.readOf) d settle
  pfcCheck (each [.stem, .trl 0, .trl 1, .trl 2, .trl 3, .clp 0, .clp 1] d lRetrain)

/-- The stopped domains restart (R431). -/
def holdRestart (d : Dev) : Dev :=
  match d.clk.holdTo with
  | none => d
  | some fb =>
    if d.clk.onFb ≠ fb ∨ !srcReady d fb ∨ !rdB d Reg.clkRootStatLocked ∨ rdB d Reg.clkMonStatFatal then d
    else
      let d := { wr d Reg.clkRootStatHolding 0 with clk := { d.clk with holdTo := none, holdDl := none } }
      irq (holdEnds (tick d Ctr.clkHold) Ctr.clkHoldDrop) Reg.clkIrqEn Reg.clkIrqVector

/-- The wait of a clock hold expires (R431). -/
def holdFatal (d : Dev) : Dev :=
  match d.clk.holdDl with
  | some t => if now d < t ∨ rdB d Reg.clkMonStatFatal then d else fault (wr d Reg.clkMonStatFatal 1) 11 11 0
  | none => d

/-- The SerDes reference is lost (R433). -/
def sdRefLost (d : Dev) : Dev :=
  let d := wr d Reg.clkMonStatSdRefLost 1
  let d := each ((List.range (portCount d)).filter fun n => rdB d (Reg.prtPortStatLinkUp n)) d fun d n =>
    fault (wrs d [(Reg.prtPortStatLinkUp n, 0), (Reg.prtPortStatLaneFail n, 1)]) 6 6 n
  each [.stem, .trl 0, .trl 1, .trl 2, .trl 3, .clp 0, .clp 1] d lRetrain

/-- One sample of the sixteen sensors (R434), in units of 0.25 °C. -/
def thermalSample (d : Dev) (temps : List Nat) : Dev :=
  let ts := tab 16 fun k => temps.getD k 0 % 2048
  let t := fun k => sgn 11 (ts.getD k 0)
  let hot := (List.range 16).foldl (fun b k => if t k > t b then k else b) 0
  let d := each (List.range 16) d fun d k => wr d (Reg.clkThermTemp k) (ts.getD k 0)
  let d := wrs d [(Reg.clkThermStatMax, ts.getD hot 0), (Reg.clkThermStatHot, hot)]
  let warn := decide (sgn 11 (rd d Reg.clkThermCfgWarn) ≤ t hot)
  let d := if warn then irq (wr d Reg.clkThermStatWarn 1) Reg.clkIrqEn Reg.clkIrqVector else d
  let hi := (List.range 16).filter fun k => decide (460 ≤ t k)
  let both := hi.find? fun k => d.clk.thermHi.contains k
  let d := { d with clk := { d.clk with thermHi := hi } }
  if rdB d Reg.clkThermStatTrip then (if t hot < 420 then wr d Reg.clkThermStatTrip 0 else d)
  else match both with
    | none => d
    | some k =>
      let d := irq (tick (wr d Reg.clkThermStatTrip 1) Ctr.clkThermTrip) Reg.clkIrqEn Reg.clkIrqVector
      let d := each [0, 1, 2] d fun d j =>
        if rdB d (Reg.clkDvfsCfgMode j) then
          let f := rd d (Reg.clkDvfsCfgFloor j)
          dvfsAim d j f
        else d
      fault d 10 10 k

/-- Requests that waited for the end of a freeze take effect, oldest first (R435). -/
def clkThaw (d : Dev) : Dev :=
  each d.clk.frozenRq { d with clk := { d.clk with frozenRq := [] } } fun d r =>
    match r.1 with
    | 0x100 => gateWrite d false r.2
    | 0x104 => gateWrite d true r.2
    | 0x00100200 => domWrite d r.2
    | _ => selWrite d (bit r.2 0)

end Ops

/-- DVFS_TARGET_WRITE (R417). -/
def execDvfsTargetWrite (dom : Nat) (data : Word) (s : State) : Host.Outcome State Fault Refusal :=
  Ops.run s fun d => Ops.access d 0 (0x00100104 + 16 * (dom % 3)) true fun d => Ops.dvfsWrite d dom (data.toNat % 8)
/-- DVFS_STEP_DONE (R417). -/
def execDvfsStepDone (dom : Nat) (s : State) : Host.Outcome State Fault Refusal := Ops.run s fun d => Ops.dvfsStep d dom
/-- SOURCE_SELECT (R428, R429). -/
def execSourceSelect (data : Word) (s : State) : Host.Outcome State Fault Refusal :=
  Ops.run s fun d => Ops.access d 0 0x00100004 true fun d => Ops.sourceWrite d data.toNat
/-- PLL_LOCK (R428). -/
def execPllLock (s : State) : Host.Outcome State Fault Refusal := Ops.run s Ops.pllLock
/-- FALLBACK_READY (R429). -/
def execFallbackReady (s : State) : Host.Outcome State Fault Refusal := Ops.runAon s Ops.fbReady
/-- REF_READY (R429). -/
def execRefReady (s : State) : Host.Outcome State Fault Refusal := Ops.runAon s Ops.refReady
/-- MONITOR_TRIP (R430). -/
def execMonitorTrip (pll : Bool) (s : State) : Host.Outcome State Fault Refusal := Ops.run s fun d => Ops.monitorTrip d pll
/-- SOURCE_COMPARE (R430). -/
def execSourceCompare (far : Nat) (s : State) : Host.Outcome State Fault Refusal := Ops.run s fun d => Ops.sourceCompare d far
/-- HOLD_RESTART (R431). -/
def execHoldRestart (s : State) : Host.Outcome State Fault Refusal := Ops.run s Ops.holdRestart
/-- HOLD_FATAL (R431). -/
def execHoldFatal (s : State) : Host.Outcome State Fault Refusal := Ops.run s Ops.holdFatal
/-- SD_REF_LOST (R433). -/
def execSdRefLost (s : State) : Host.Outcome State Fault Refusal := Ops.run s Ops.sdRefLost
/-- THERMAL_SAMPLE (R434). -/
def execThermalSample (temps : List Nat) (s : State) : Host.Outcome State Fault Refusal :=
  Ops.run s fun d => Ops.thermalSample d temps

end Sys2Proof.Machine
end

