-- ==== Sys2Proof/Machine/Operands.lean ====
section
/-!
DEFINITION. Operands.lean: how a function and an offset name a register: the apertures of PF BAR0, the windows of a VF's BAR0
(R504 to R506), the copies that functions have of a register, and the objects behind a select register (R303, R305, R311).
-/
namespace Sys2Proof.Machine

/-- Where an access lands. -/
inductive Loc where
  /-- A register or counter at a PF BAR0 address; the copy of a per-function register. -/
  | reg (addr copy : Nat)
  /-- `HIF_VF_INFO` (R506). -/
  | info
  /-- A word of the MSI-X table or of the PBA. -/
  | msix (word : Nat)
  | pba (word : Nat)
  /-- Nothing: reads zero, ignores writes (R341, R503 to R505). -/
  | none
  deriving DecidableEq, Repr

namespace Ops

/-- The indices of the array element at an offset from element 0. -/
def dimIdx : Nat → List (Nat × Nat) → Option (List Nat)
  | 0, [] => some []
  | _ + 1, [] => none
  | off, (s, n) :: r => if off / s < n then (dimIdx (off % s) r).map fun l => off / s :: l else none

/-- The register row at an address of PF BAR0. -/
def rowAt (a : Nat) : Option Row :=
  (Reg.rowsOf (a / 0x100000)).find? fun r => decide (r.base ≤ a) && (dimIdx (a - r.base) r.dims).isSome

/-- A 64-bit counter has its low half at the address (R10). -/
def isCtr (a : Nat) : Bool :=
  (Ctr.rowsOf (a / 0x100000)).any fun r => decide (r.1 ≤ a) && (dimIdx (a - r.1) r.2).isSome

/-- Registers of which each function has a copy: the graft port (R269), the tensor snapshot and hold status (R163, R166),
the bank status (R191, R221), the queue snapshot (R311). -/
def perFn (a : Nat) : Bool :=
  (decide (0x301000 ≤ a) && decide (a ≤ 0x301018)) || (decide (0x900000 ≤ a) && decide (a ≤ 0x90003C)) ||
  (decide (0x900080 ≤ a) && decide (a ≤ 0x900084)) || (decide (0xA00204 ≤ a) && decide (a ≤ 0xA0020C)) ||
  (decide (0xB00204 ≤ a) && decide (a ≤ 0xB0020C)) || (decide (0xE00410 ≤ a) && decide (a ≤ 0xE00454))

/-- The object that a select register names for a register of a policer, a queue or a node (R299, R303, R305). -/
def selObj (d : Dev) (a : Nat) : Option Nat :=
  if 0xE00004 ≤ a ∧ a ≤ 0xE00014 then some (rd d Reg.tmgPolSelIndex)
  else if 0xE00104 ≤ a ∧ a ≤ 0xE00114 then some (rd d Reg.tmgQSelQueue)
  else if 0xE00204 ≤ a ∧ a ≤ 0xE00210 then some (nodeNo (rd d Reg.tmgNSelLevel) (rd d Reg.tmgNSelIndex))
  else none

/-- The home of a field of the register at `a`. -/
def homeFld (d : Dev) (a copy : Nat) (f : Fld) : Fld :=
  if perFn a then portF copy f else match selObj d a with
    | some i => objF i f
    | none => f

/-- The channel behind local channel `l` of VF `n` (R505). -/
def localChan (d : Dev) (n l : Nat) : Option Nat :=
  lowest 4096 fun c => rd d (Reg.dmaChOwnerOwner c) == n && rd d (Reg.dmaChOwnerLocal c) == l

/-- A slot window of a VF (R504): element `s` of an array, where the tenant owns the slot. -/
def slotLoc (d : Dev) (n s a : Nat) : Loc := if s < 256 ∧ ownsSlot d n s then .reg a n else .none

/-- Where an offset of VF `n`'s BAR0 leads (R504, R505). -/
def locateVf (d : Dev) (n off : Nat) : Loc :=
  if off = 0 then .info
  else if off = 4 then .reg 0 n
  else if 0x100 ≤ off ∧ off ≤ 0x118 then .reg (0x301000 + (off - 0x100)) n
  else if 0x200 ≤ off ∧ off ≤ 0x23C then .reg (0x900000 + (off - 0x200)) n
  else if 0x280 ≤ off ∧ off ≤ 0x284 then .reg (0x900080 + (off - 0x280)) n
  else if 0x300 ≤ off ∧ off ≤ 0x30C then .reg (0xA00200 + (off - 0x300)) n
  else if 0x310 ≤ off ∧ off ≤ 0x31C then .reg (0xB00200 + (off - 0x310)) n
  else if off = 0x400 then .reg 0x205C00 n
  else if 0x500 ≤ off ∧ off ≤ 0x544 then .reg (0xE00410 + (off - 0x500)) n
  else if 0x600 ≤ off ∧ off ≤ 0x610 then .reg (0x1500400 + 32 * n + (off - 0x600)) n
  else if 0x620 ≤ off ∧ off ≤ 0x62C then .reg (0x1502000 + 16 * n + (off - 0x620)) n
  else if 0x800 ≤ off ∧ off ≤ 0x85C then .reg (0x1604000 + 0x80 * n + (off - 0x800)) n
  else if 0x1000 ≤ off ∧ off < 0x1400 then slotLoc d n ((off - 0x1000) / 4) (0x204000 + (off - 0x1000))
  else if 0x1400 ≤ off ∧ off < 0x1800 then slotLoc d n ((off - 0x1400) / 4) (0x204400 + (off - 0x1400))
  else if 0x1800 ≤ off ∧ off < 0x1C00 then slotLoc d n ((off - 0x1800) / 4) (0x204800 + (off - 0x1800))
  else if 0x1C00 ≤ off ∧ off < 0x2000 then slotLoc d n ((off - 0x1C00) / 4) (0x205800 + (off - 0x1C00))
  else if 0x2000 ≤ off ∧ off < 0x2800 then slotLoc d n ((off - 0x2000) / 8) (0x205000 + (off - 0x2000))
  else if 0x2800 ≤ off ∧ off < 0x2C00 then slotLoc d n ((off - 0x2800) / 4) (0xD00000 + (off - 0x2800))
  else if 0x4000 ≤ off ∧ off < 0x6000 then slotLoc d n ((off - 0x4000) / 32) (0xD02000 + (off - 0x4000))
  else if 0x10000 ≤ off ∧ off < 0x20000 then slotLoc d n ((off - 0x10000) / 256) (0xD10000 + (off - 0x10000))
  else if 0x20000 ≤ off ∧ off < 0x21000 then
    match localChan d n ((off - 0x20000) / 64) with
    | some c => .reg (0x1010000 + 64 * c + off % 64) n
    | none => .none
  else if 0x21000 ≤ off ∧ off < 0x21100 then
    match localChan d n ((off - 0x21000) / 4) with
    | some c => .reg (0x101000C + 64 * c) n
    | none => .none
  else if 0x3E000 ≤ off ∧ off < 0x3E100 then .msix ((off - 0x3E000) / 4)
  else if 0x3F000 ≤ off ∧ off < 0x3F008 then .pba ((off - 0x3F000) / 4)
  else .none

/-- Where an offset of a function's BAR0 leads; the bridge sees PF BAR0 (R341, R499, R504). An access is to a whole
register: the low two bits of the offset are not looked at. -/
def locate (d : Dev) (fn off : Nat) : Loc :=
  let off := off / 4 * 4
  if fn = 0 ∨ fn = 64 then
    if off < 0x1800000 then .reg off (copyNo fn)
    else if 0x1F00000 ≤ off ∧ off < 0x1F00000 + 16 * 1040 then .msix ((off - 0x1F00000) / 4)
    else if 0x1F80000 ≤ off ∧ off < 0x1F80000 + 136 then .pba ((off - 0x1F80000) / 4)
    else .none
  else locateVf d fn off

/-- Fields that a VF's window shows but does not let it write (R504, R505, R344). -/
def vfReadOnly (a : Nat) : Bool :=
  (decide (0x204000 ≤ a) && decide (a < 0x204400)) ||
  (decide (0x1010000 ≤ a) && decide (a < 0x1050000) && decide (0x1C ≤ a % 64) && (a % 64 != 0x2C))

end Ops
end Sys2Proof.Machine
end

