-- ==== Sys2Proof/Machine/ModelImg.lean ====
section
/-!
DEFINITION. ModelImg.lean: the model image (R243 to R247, R256): its decoding, and the checks of R246.
-/
namespace Sys2Proof.Machine.Img
open Sys2Proof.Machine.Ops

/-- A tensor descriptor from its word (R158). -/
def tensorOf (w : Nat) : TensorDesc :=
  { fmt := bits w 0 4, src := bits w 4 2, s0 := sgn 6 (bits w 6 6), adapt := bit w 12, state := bit w 13, miss := bit w 14
    intvLog2 := bits w 15 5, head := bits w 20 3, slew := bits w 23 4, satTol := bits w 27 5, sample := bits w 32 16
    mseEn := bit w 48 }

/-- The rules of R158 for a descriptor at offset `o`. -/
def tensorFails (o w : Nat) : List Nat :=
  let t := tensorOf w
  need (t.fmt ≤ 6) o ++ need (!(t.adapt && t.state)) (o + 1) ++ need (decide (8 ≤ t.intvLog2 ∧ t.intvLog2 ≤ 20)) (o + 1) ++
  need (decide (1 ≤ t.slew ∧ t.slew ≤ 8)) (o + 2) ++ need (bits w 49 15 == 0) (o + 6)

/-- Bits of an instruction word that its OP names beyond [22:0] (R121); `none` = a reserved OP. -/
def opMask (op : Nat) : Option Nat :=
  if op = 0x00 then some 0
  else if op = 0x01 then some (put (2 ^ 32 - 1) 32 32)
  else if op = 0x02 then some (put 127 32 7)
  else if op = 0x03 then some (put 511 32 9)
  else if op = 0x04 ∨ op = 0x07 then some (put 255 32 8)
  else if op = 0x05 then some (put 255 32 8 + put 0xFFFF 48 16)
  else if op = 0x06 then some (put 7 23 3 + put (2 ^ 30 - 1) 32 30)
  else if op = 0x08 then some (put 2047 32 11)
  else if 0x10 ≤ op ∧ op ≤ 0x1F then some (put (2 ^ 28 - 1) 32 28)
  else none

/-- The operation reads its B operand (R124). -/
def readsB (op : Nat) : Bool := !([0x15, 0x16, 0x1B, 0x1C, 0x1D].contains op)

/-- An instruction is well formed (R120, R121). -/
def instrOk (w : Nat) : Bool :=
  let op := Fea.op w
  let c := Fea.cnt w
  match opMask op with
  | none => false
  | some m =>
    (w &&& (m + 0x7FFFFF)) == w && (op == 0 || op == 8 || decide (Fea.dst w + c ≤ 2047)) &&
    (if op = 2 then decide (bits w 32 7 + c ≤ 127)
     else if op = 3 then decide (bits w 32 9 + c ≤ 511)
     else if op = 4 then decide (bits w 32 8 ≤ 12) && c == 0
     else if op = 5 then decide (bits w 32 8 ≤ 7) && c == 0
     else if op = 6 then c == 0
     else if op = 7 then decide (bits w 32 8 ≤ 3) && c == 0
     else if op = 8 then decide (bits w 32 11 + c ≤ 2047)
     else if 0x10 ≤ op then
       decide (bits w 32 11 + c ≤ 2047) && (!readsB op || bit w 59 || decide (bits w 43 11 + c ≤ 2047))
     else true)

/-- The words of a program; the first 64 are its PRE part (log entry 14). -/
def progOf (b : Bytes) (o idx len : Nat) : FeaProg :=
  let ws := tab len fun i => le b (o + 8 * (idx + i)) 8
  ⟨ws.take 64, ws.drop 64⟩

/-- The rules of R120 for a program whose words start at offset `o`; `desc` tells the descriptors that its WIN instructions
may name. -/
def progFails (p : FeaProg) (o : Nat) (later : Bool) (desc : Nat → Bool) : List Nat :=
  let wins := ((p.pre ++ p.post).filter fun w => Fea.op w == 6).length
  ((List.range (p.pre.length + p.post.length)).flatMap fun i =>
    let w := (p.pre ++ p.post).getD i 0
    need (instrOk w && (Fea.op w != 6 || (!later && decide (i < 64) && desc (bits w 32 8)))) (o + 8 * i)) ++
  need (decide (wins ≤ 4)) o

/-- Longest path and most paged nodes below each node of a tree, from index `i` on (R170, R175). -/
def treeShape (res : Nat) : Nat → List Nat → List (Nat × Nat)
  | _, [] => []
  | i, w :: r =>
    let rest := treeShape res (i + 1) r
    let l := rest.getD (Esp.left w - i - 1) (0, 0)
    let q := rest.getD (Esp.right w - i - 1) (0, 0)
    let own := b2n (decide (res ≤ i))
    (if Esp.leaf w then (0, own) else (1 + max l.1 q.1, own + max l.2 q.2)) :: rest

/-- A node word is well formed (R173, R174, R176): tree `t`, local index `i`, `n` nodes. -/
def nodeOk (t i n w : Nat) (feats : List Nat) : Bool :=
  Esp.check w == Esp.nodeCheck t i w &&
  (if Esp.leaf w then bits w 0 15 == 0 && bits w 16 32 == 0
   else decide (Esp.kind w ≤ 4) && feats.contains (Esp.feat w) && decide (i < Esp.left w ∧ Esp.left w < n) &&
     decide (i < Esp.right w ∧ Esp.right w < n) && !(Esp.kind w == 2 && Esp.f32Nan (Esp.value w)))

/-- A tree from its table entry at `o` and the node array (R175). -/
def treeOf (b : Bytes) (o : Nat) (nodes : Sec) : Tree :=
  let st := le b o 4
  let n := min (le b (o + 4) 4) 65536
  { nodes := if st + n ≤ nodes.len / 12 then tab n fun i => le b (nodes.off + 12 * (st + i)) 12 else []
    start := st, cls := le b (o + 12) 1, depth := le b (o + 13) 1, resNodes := le b (o + 8) 4, paged := le b (o + 14) 1 }

/-- The rules for tree `t` whose table entry is at `o`. -/
def treeFails (b : Bytes) (o t : Nat) (tr : Tree) (nodes : Sec) (k maxDepth : Nat) (feats : List Nat) : List Nat :=
  let n := le b (o + 4) 4
  let shape := (treeShape tr.resNodes 0 tr.nodes).getD 0 (0, 0)
  need (decide (tr.start + n ≤ nodes.len / 12)) o ++ need (decide (1 ≤ n ∧ n ≤ 65536)) (o + 4) ++
  need (decide (tr.cls < k)) (o + 12) ++ need (tr.depth == shape.1 && decide (tr.depth ≤ maxDepth)) (o + 13) ++
  need (tr.paged == shape.2) (o + 14) ++ need (zeroAt b (o + 15) 1) (o + 15) ++
  ((List.range tr.nodes.length).flatMap fun i =>
    need (nodeOk t i tr.nodes.length (tr.nodes.getD i 0) feats) (nodes.off + 12 * (tr.start + i)))

/-- An ensemble from its section and the node array (R178). -/
def ensOf (b : Bytes) (s nodes : Sec) : Ensemble :=
  let o := s.off
  let k := le b (o + 2) 1
  { k, link := le b (o + 3) 1, leafExp := sgn 8 (le b (o + 4) 1), record := bit (le b (o + 5) 1) 0
    refitEn := bit (le b (o + 5) 1) 1, flow := bit (le b (o + 5) 1) 2, resultTensor := le b (o + 6) 1, loss := le b (o + 7) 1
    minLeafN := le b (o + 10) 2, structId := le b (o + 12) 4
    base := tab k fun i => sgn 32 (le b (o + le b (o + 24) 4 + 4 * i) 4)
    eta := le b (o + 28) 2, lambda := le b (o + 32) 8, maxStep := le b (o + 40) 4
    feats := tab (le b (o + 8) 2) fun i => le b (o + le b (o + 20) 4 + 2 * i) 2
    trees := tab (le b o 2) fun t => treeOf b (o + le b (o + 16) 4 + 16 * t) nodes
    total := nodes.len / 12 }

/-- The rules of R173 to R178 for an ensemble. -/
def ensFails (b : Bytes) (s nodes : Sec) (e : Ensemble) (flowImg : Bool) (nTens : Nat) : List Nat :=
  let o := s.off
  let n := le b o 2
  let inside := fun (off len : Nat) => decide (off + len ≤ s.len)
  need (decide (64 ≤ s.len)) o ++ need (decide (1 ≤ n ∧ n ≤ 4096) && (e.flow || decide (n ≤ 512))) o ++
  need (decide (1 ≤ e.k ∧ e.k ≤ 16)) (o + 2) ++
  need (decide (e.link ≤ 4) && (e.link != 2 || e.k == 1) && (e.link != 3 || decide (2 ≤ e.k)) && (e.link != 4 || e.flow)) (o + 3) ++
  need (decide (-31 ≤ e.leafExp ∧ e.leafExp ≤ 0)) (o + 4) ++
  need (decide (le b (o + 5) 1 < 8) && e.flow == flowImg && !(e.flow && (e.record || e.refitEn)) && (!e.refitEn || e.record)) (o + 5) ++
  need (e.resultTensor == 0xFF || decide (e.resultTensor < nTens)) (o + 6) ++
  need (!e.refitEn || (decide (e.loss ≤ 2) && (e.loss != 1 || e.link == 2) && (e.loss != 2 || e.link == 3))) (o + 7) ++
  need (decide (1 ≤ e.feats.length ∧ e.feats.length ≤ 256)) (o + 8) ++
  need (inside (le b (o + 16) 4) (16 * n)) (o + 16) ++
  need (inside (le b (o + 20) 4) (2 * e.feats.length) && e.feats.all (· ≤ 2047)) (o + 20) ++
  need (inside (le b (o + 24) 4) (4 * e.k)) (o + 24) ++ need (!e.refitEn || e.eta != 0) (o + 28) ++
  need (zeroAt b (o + 30) 2) (o + 30) ++ need (zeroAt b (o + 44) 20) (o + 44) ++
  need (nodes.len % 12 == 0) nodes.off ++
  ((List.range e.trees.length).flatMap fun t =>
    treeFails b (o + le b (o + 16) 4 + 16 * t) t (e.trees.getD t default) nodes e.k (if flowImg then 16 else 12) e.feats)

/-- Padded inputs of a layer (R198), bits of a weight code, bytes of its weight image. -/
def layerKp (l : Layer) : Nat :=
  let k := l.kA + l.kB
  if l.path = 1 then 128 * cdiv k 128 else if l.path = 3 then 32 * cdiv k 32 else 64 * cdiv k 64
def codeBits (l : Layer) : Nat := if l.path = 1 ∨ (l.path = 3 ∧ l.wfmt ≠ 0) then 4 else 8
def weightBytes (l : Layer) : Nat := l.n * layerKp l * codeBits l / 8

/-- Consecutive weight codes from an offset (R147). -/
def codesAt (b : Bytes) (o n w : Nat) : List Nat :=
  if w = 8 then (slice b o n).map (·.toNat)
  else ((slice b o (cdiv n 2)).flatMap fun x => [x.toNat % 16, x.toNat / 16]).take n

/-- Entries of a layer's feature list for one input (R198). -/
def listed (ts : List TensorDesc) (t : Nat) : Bool :=
  match ts[t]? with | some x => !x.state && x.src != 3 | none => false

/-- A layer from its descriptor at `o`, its section, and its weight image at `w` (R198). -/
def layerOf (b : Bytes) (s : Sec) (o w : Nat) (ts : List TensorDesc) : Layer :=
  let f := le b (o + 7) 1
  let l : Layer :=
    { type := le b o 1, path := le b (o + 1) 1, wfmt := le b (o + 2) 1, act := le b (o + 3) 1, inA := le b (o + 4) 1
      inB := le b (o + 5) 1, out := le b (o + 6) 1, final := bit f 0, headRefit := bit f 1, group := bits f 2 2
      kA := le b (o + 8) 2, kB := le b (o + 10) 2, n := le b (o + 12) 2, wexp := sgn 8 (le b (o + 14) 1)
      bexp := sgn 8 (le b (o + 15) 1), tileMask := le b (o + 16) 4, weightOff := le b (o + 20) 4, w := [], bias := none
      books := [], scales := [], featA := [], featB := [], loss := le b (o + 36) 1, maxStep := le b (o + 37) 1
      eta := le b (o + 38) 2, minN := le b (o + 40) 4 }
  let kp := layerKp l
  let bo := le b (o + 24) 4
  let ao := s.off + le b (o + 28) 4
  let fo := s.off + le b (o + 32) 4
  let a := if listed ts l.inA then l.kA else 0
  let row := kp * codeBits l / 8
  { l with
    w := tab l.n fun i => (codesAt b (w + i * row) kp (codeBits l)).take (l.kA + l.kB)
    bias := if bo = 0xFFFFFFFF then none else some (tab l.n fun i => le b (s.off + bo + 4 * i) 4)
    books := if l.path = 1 ∧ l.wfmt = 1 then tab l.n fun i => tab 16 fun c => le b (ao + 32 * i + 2 * c) 2 else []
    scales := if l.path = 3 then tab (l.n * kp / 32) fun i => le b (ao + i) 1 else []
    featA := tab a fun i => le b (fo + 2 * i) 2
    featB := tab (if l.inB ≠ 0xFF ∧ listed ts l.inB then l.kB else 0) fun i => le b (fo + 2 * (a + i)) 2 }

/-- Tiles of a layer, its column blocks and input blocks (R526). -/
def tilesOf (l : Layer) : List Nat := (List.range 32).filter fun t => bit l.tileMask t
def colBlocks (l : Layer) : Nat := cdiv l.n 64
def inBlocks (l : Layer) : Nat := cdiv (l.kA + l.kB) (if l.path = 1 then 128 else 64)

/-- Steps that a layer puts on the `i`-th of its tiles (R526). -/
def stepsOn (l : Layer) (i : Nat) : Nat :=
  let t := (tilesOf l).length
  let nb := colBlocks l
  let kb := inBlocks l
  if t ≤ nb then ((List.range nb).filter fun j => j % t == i).length * kb
  else let g := t / nb; kb / g + b2n (decide (i % g < kb % g))

/-- Steps that a layer puts on a logical tile. -/
def tileSteps (l : Layer) (tile : Nat) : Nat :=
  match firstIdx (· == tile) (tilesOf l) with | some i => stepsOn l i | none => 0

/-- The busiest tile's steps *s*, and *X* (R526). -/
def layerS (l : Layer) : Nat := ((List.range (tilesOf l).length).map (stepsOn l)).foldl max 0
def layerX (l : Layer) : Nat := if (tilesOf l).length ≤ colBlocks l then 1 else (tilesOf l).length / colBlocks l

/-- An FP16, F32 or E4M3 code that is not finite or is reserved (R150). -/
def badF16 (c : Nat) : Bool := bits c 10 5 == 31
def badF32 (c : Nat) : Bool := bits c 23 8 == 255

/-- The rules of R147 to R150, R198 to R207, R219 and R526 for a layer. -/
def layerFails (b : Bytes) (s : Sec) (o w : Nat) (weights : Sec) (l : Layer) (ts : List TensorDesc) : List Nat :=
  let f := le b (o + 7) 1
  let k := l.kA + l.kB
  let kp := layerKp l
  let t := (tilesOf l).length
  let nb := colBlocks l
  let inside := fun (off len : Nat) => decide (off + len ≤ s.len)
  let inFmt := fun (i : Nat) => match ts[i]? with
    | some x => if l.path = 2 then x.fmt == 2 || x.fmt == 3 else x.fmt == 0
    | none => false
  let aux := if l.path = 1 ∧ l.wfmt = 1 then 32 * l.n else if l.path = 3 then l.n * kp / 32 else 0
  let pad := tab l.n fun i => (codesAt b (w + i * (kp * codeBits l / 8)) kp (codeBits l)).drop k
  need (decide (l.type ≤ 2)) o ++ need (decide (l.path ≤ 3)) (o + 1) ++
  need (decide (l.wfmt ≤ [0, 1, 0, 2].getD l.path 0)) (o + 2) ++
  need (decide (l.act ≤ 4) && (l.act != 4 || l.final) && (l.type == 0 || l.act == 0) &&
    (!l.final || (l.act == 0 || (l.act == 2 && l.n == 1) || (l.act == 4 && decide (2 ≤ l.n ∧ l.n ≤ 16))))) (o + 3) ++
  need (inFmt l.inA) (o + 4) ++ need (l.inB == 0xFF || inFmt l.inB) (o + 5) ++
  need (if l.final || l.type != 0 then l.out == 0xFF else decide (l.out < ts.length)) (o + 6) ++
  need (decide (f < 16) && l.group != 3 && !(l.final && l.type != 0)) (o + 7) ++
  need (!l.headRefit || (l.final && l.path == 0 && decide (k ≤ 256) && decide (l.n ≤ 16))) (o + 7) ++
  need (decide (1 ≤ l.kA ∧ l.kA ≤ 8192)) (o + 8) ++
  need (decide (k ≤ 8192) && (l.inB == 0xFF) == (l.kB == 0)) (o + 10) ++ need (decide (1 ≤ l.n ∧ l.n ≤ 4096)) (o + 12) ++
  need (l.path == 3 || decide (-40 ≤ l.wexp ∧ l.wexp ≤ 8)) (o + 14) ++
  need (l.path == 3 || decide (-40 ≤ l.bexp ∧ l.bexp ≤ 8)) (o + 15) ++
  need (t != 0 && (decide (t ≤ nb) || (l.path != 3 && t % nb == 0 && decide (t / nb ≤ inBlocks l)))) (o + 16) ++
  need (l.weightOff % 64 == 0) (o + 20) ++
  need (match l.bias with
    | none => true
    | some v => inside (le b (o + 24) 4) (4 * l.n) && !(l.path == 3 && v.any badF32)) (o + 24) ++
  need (aux == 0 || (inside (le b (o + 28) 4) aux && !(l.books.any (·.any badF16)) && !(l.scales.any (· == 0xFF)))) (o + 28) ++
  need (inside (if l.featA.isEmpty && l.featB.isEmpty then 0 else le b (o + 32) 4) (2 * (l.featA.length + l.featB.length)) &&
    (l.featA ++ l.featB).all (· ≤ 2047)) (o + 32) ++
  need (!l.headRefit || (l.loss == 0 && l.act == 0 && l.n == 1) || (l.loss == 1 && l.act == 2) || (l.loss == 2 && l.act == 4)) (o + 36) ++
  need (!l.headRefit || decide (1 ≤ l.maxStep ∧ l.maxStep ≤ 127)) (o + 37) ++ need (!l.headRefit || l.eta != 0) (o + 38) ++
  need (zeroAt b (o + 44) 20) (o + 44) ++
  need (decide (w + weightBytes l ≤ weights.off + weights.len) && pad.all (·.all (· == 0)) &&
    !(l.path == 2 && l.w.any fun r => r.any fun c => c % 128 == 0x7F)) w

/-- Layers of a pass by number: none where LAST is 0xFF (R245). -/
def layersIn (p : PassSec) (n : Nat) : List Nat :=
  if p.last = 0xFF then [] else (List.range n).filter fun i => decide (p.first ≤ i ∧ i ≤ p.last)

/-- The place of layer `i` of `n` among the SCHEDULE entries (R244): the first TILE entry of its pass and of one of its tiles that holds its
weights; after all entries where there is none (log entry 15). -/
def layerRank (es : List SchedEnt) (x : SlotSec) (n i : Nat) (l : Layer) : Nat :=
  (firstIdx (fun e => e.kind == 2 && bit l.tileMask e.unit && (layersIn (x.passes.getD e.pass default) n).contains i &&
    decide (64 * e.off ≤ l.weightOff ∧ l.weightOff < 64 * (e.off + e.amount))) es).getD es.length

/-- The layers of a LAYERS section: the offset of each one's descriptor and of its weight image, and the layer. The weight images follow one
another in the order of the layers' SCHEDULE entries (R244). -/
def layersOf (b : Bytes) (s weights : Sec) (ts : List TensorDesc) (es : List SchedEnt) (x : SlotSec) : List (Nat × Nat × Layer) :=
  let n := min (le b s.off 4) 256
  let ls := tab n fun i => layerOf b s (s.off + 64 + 64 * i) 0 ts
  let ranks := tab n fun i => layerRank es x n i (ls.getD i default)
  let order := (List.range (es.length + 1)).flatMap fun r => (List.range n).filter fun i => ranks.getD i 0 == r
  tab n fun i =>
    let w := weights.off + ((order.takeWhile (· != i)).map fun j => weightBytes (ls.getD j default)).sum
    (s.off + 64 + 64 * i, w, layerOf b s (s.off + 64 + 64 * i) w ts)

/-- The turn descriptor with its parameters (R208). -/
def turnOf (b : Bytes) (s : Sec) (ts : List TensorDesc) : TurnDesc :=
  let o := s.off
  let fmt := (ts.getD (le b (o + 1) 1) default).fmt
  let n := Mxt.stateN fmt
  { form := le b o 1, stateTensor := le b (o + 1) 1, viewTensor := le b (o + 2) 1, uexp := sgn 8 (le b (o + 3) 1)
    params := tab (if le b o 1 = 1 then 3 * n else n) fun i => le b (o + le b (o + 4) 4 + 2 * i) 2
    tu := le b (o + 8) 2, slack := le b (o + 10) 2 }

/-- The rules of R208. -/
def turnFails (b : Bytes) (s : Sec) (t : TurnDesc) (ts : List TensorDesc) (xp : Option Layer) : List Nat :=
  let o := s.off
  let st := ts.getD t.stateTensor default
  let n := Mxt.stateN st.fmt
  need (decide (16 ≤ s.len)) o ++
  need ((t.form == 1 || t.form == 2) && (match xp with
    | some l => l.type == t.form && l.n == (if t.form = 1 then 3 * n else n)
    | none => false)) o ++
  need (decide (t.stateTensor < ts.length) && st.state && (st.fmt == 0 || st.fmt == 4)) (o + 1) ++
  need (t.viewTensor == 0xFF || (decide (t.viewTensor < ts.length) && !(ts.getD t.viewTensor default).state)) (o + 2) ++
  need (t.form != 1 || decide (-15 ≤ t.uexp ∧ t.uexp ≤ 0)) (o + 3) ++
  need (decide (le b (o + 4) 4 + 2 * t.params.length ≤ s.len)) (o + 4) ++
  need (decide (1 ≤ t.tu ∧ t.tu ≤ 2047)) (o + 8) ++ need (decide (t.slack ≤ 2047)) (o + 10) ++ need (zeroAt b (o + 12) 4) (o + 12)

/-- The SLOT section (R245). -/
def slotOf (b : Bytes) (s : Sec) : SlotSec :=
  let o := s.off
  { defAct := bits (le b o 1) 0 4, defCompat := bit (le b o 1) 4, defClass := le b (o + 1) 1, defColour := bits (le b (o + 2) 1) 0 2
    scoreSrc := le b (o + 3) 1, defQueue := bits (le b (o + 4) 4) 0 20, defScore := le b (o + 8) 2
    passes := tab 3 fun k =>
      let w := le b (o + 12 + 4 * k) 4
      ⟨bit w 0, bit w 1, bits w 8 8, bits w 16 8⟩ }

/-- A pass is used (R246). -/
def passUsed (p : PassSec) : Bool := p.ens || p.turn || p.last != 0xFF

/-- The rules of R245 and R246 for the SLOT section. -/
def slotFails (b : Bytes) (s : Sec) (x : SlotSec) (passes : Nat) (ens : Option Ensemble) (layers : List Layer)
    (turn : Bool) : List Nat :=
  let o := s.off
  let n := layers.length
  let last := x.passes.getD (passes - 1) default
  let xps := (List.range n).filter fun i => (layers.getD i default).type != 0
  let finals := (List.range n).filter fun i => (layers.getD i default).final
  need (s.len == 32) s.at_ ++ need (decide (le b o 1 < 32)) o ++ need (decide (le b (o + 2) 1 < 4)) (o + 2) ++
  need (if x.scoreSrc = 0 then last.ens && (match ens with | some e => e.link != 0 | none => false)
    else x.scoreSrc == 1 && finals.length == 1 && (layersIn last n).any fun i => finals.contains i) (o + 3) ++
  need (decide (le b (o + 4) 4 < 2 ^ 20)) (o + 4) ++ need (zeroAt b (o + 10) 2) (o + 10) ++
  ((List.range 3).flatMap fun k =>
    let w := le b (o + 12 + 4 * k) 4
    let p := x.passes.getD k default
    let before := (x.passes.take k).filter fun q => q.last != 0xFF
    need (bits w 2 6 == 0 && bits w 24 8 == 0 && (decide (k < passes) || !passUsed p) && (!p.turn || k == 0) &&
      (!p.ens || ens.isSome) &&
      (p.last == 0xFF || (decide (p.first ≤ p.last ∧ p.last < n) && before.all fun q => decide (q.last < p.first)))) (o + 12 + 4 * k)) ++
  (let p := x.passes.getD 0 default
   need ((p.ens || p.last != 0xFF) && p.turn == turn && xps.length == b2n turn &&
     (!turn || xps.all fun i => (layersIn p n).contains i)) (o + 12)) ++
  need (zeroAt b (o + 24) 8) (o + 24)

/-- A SCHEDULE entry at `o` (R247). -/
def schedOf (b : Bytes) (o : Nat) : SchedEnt :=
  { kind := le b o 1, pass := le b (o + 1) 1, pipe := le b (o + 2) 1, dbl := bit (le b (o + 3) 1) 0, unit := le b (o + 4) 2
    load := le b (o + 6) 2, off := le b (o + 8) 4, amount := le b (o + 12) 4 }

/-- Size of an entry's placements, A and B (R247). -/
def span (e : SchedEnt) : Nat := e.amount * (1 + b2n e.dbl)

/-- Units of a kind, and the memory of one unit in its units; 0 for REGION and HBM, whose size the partition gives. -/
def kindUnits (k : Nat) : Nat := [0, 512, 32, 16, 8, 1, 1].getD k 0
def kindSize (k : Nat) : Nat := [0, 5461, 65536, 0, 1024, 0, 0].getD k 0

/-- An entry of a kind that holds memory. -/
def holdsMem (e : SchedEnt) : Bool := e.kind != 3 && e.amount != 0

/-- The rules of R247 for entry `i` at `o`; `size` gives the lines of the REGION (5) and HBM (6) regions. -/
def schedFails (b : Bytes) (o i : Nat) (es : List SchedEnt) (passes : Nat) (flow : Bool) (size : Nat → Nat)
    (needDbl : SchedEnt → Bool) : List Nat :=
  let e := es.getD i default
  let lim := if e.kind ≥ 5 then size e.kind else kindSize e.kind
  let clash := (es.take i).any fun q => holdsMem e && holdsMem q && q.kind == e.kind && q.unit == e.unit &&
    !(q.off == e.off && q.amount == e.amount) && decide (e.off < q.off + span q ∧ q.off < e.off + span e)
  need (decide (1 ≤ e.kind ∧ e.kind ≤ 6) && !(flow && decide (e.kind ≤ 4))) o ++
  need (decide (e.pass < passes)) (o + 1) ++ need (decide (e.pipe ≤ 7) || (e.pipe == 0xFF && decide (5 ≤ e.kind))) (o + 2) ++
  need (decide (le b (o + 3) 1 < 2) && (e.dbl || !needDbl e)) (o + 3) ++
  need (decide (e.unit < kindUnits e.kind) && (e.kind != 4 || e.unit == e.pipe)) (o + 4) ++
  need (decide (e.kind ≤ 3) || e.load == 0) (o + 6) ++
  need ((e.kind != 3 || e.off == 0) && decide (e.off + span e ≤ lim) && !clash) (o + 8) ++
  need (e.kind != 3 || e.amount == 0) (o + 12)

/-- The LOADs of R526 and R527: entry `i` at `o` of the pass and pipe that it names. -/
def loadFails (o i : Nat) (es : List SchedEnt) (x : SlotSec) (ens : Option Ensemble) (layers : List Layer) : List Nat :=
  let e := es.getD i default
  let p := x.passes.getD e.pass default
  if e.kind = 2 then
    need (e.load == ((layersIn p layers.length).map fun j => tileSteps (layers.getD j default) e.unit).sum) (o + 6)
  else if e.kind = 1 then
    let sum := ((es.filter fun q => q.kind == 1 && q.pass == e.pass && q.pipe == e.pipe).map (·.load)).sum
    need (sum == (match ens with | some n => if p.ens then n.trees.length else 0 | none => 0)) (o + 6)
  else []

/-- Every pipe that the schedule serves has the ENGINE entries of each pass that runs the ensemble (R527). -/
def missingLoads (es : List SchedEnt) (x : SlotSec) (ens : Option Ensemble) : Bool :=
  (List.range 8).any fun p => (es.any fun e => e.pipe == p && (e.kind == 1 || e.kind == 2)) &&
    (List.range 3).any fun k => (x.passes.getD k default).ens && ens.isSome &&
      !(es.any fun e => e.kind == 1 && e.pipe == p && e.pass == k)

/-- The FLOW section (R256). -/
def flowOf (b : Bytes) (s : Sec) : FlowSec :=
  { trig := le b s.off 1, n := le b (s.off + 2) 2, classMask := le b (s.off + 4) 2, scoreMin := le b (s.off + 6) 2
    cache := tab 16 fun c => le b (s.off + 8 + 8 * c) 8 }

def flowFails (b : Bytes) (s : Sec) (f : FlowSec) : List Nat :=
  need (s.len == 136) s.at_ ++ need (decide (1 ≤ f.trig ∧ f.trig < 8)) s.off ++ need (zeroAt b (s.off + 1) 1) (s.off + 1) ++
  need (!bit f.trig 1 || decide (2 ≤ f.n)) (s.off + 2) ++
  ((List.range 16).flatMap fun c => need (decide (f.cache.getD c 0 < 2 ^ 34)) (s.off + 8 + 8 * c))

/-- The failing fields of step 1 of R246. -/
def modelHead (b : Bytes) : List Nat :=
  let n := le b 11 1
  let total := le b 24 4
  let signed := bit (le b 29 1) 0
  let lim := total - (if signed then 96 else 0)
  need (b.take 4 = [0x41, 0x51, 0x4D, 0x49]) 0 ++ need (le b 4 2 == 1) 4 ++ need (decide (le b 6 1 ≤ 1)) 6 ++
  need (decide (1 ≤ le b 7 1 ∧ le b 7 1 ≤ 3) && (le b 6 1 != 1 || le b 7 1 == 1)) 7 ++
  need (decide (1 ≤ n ∧ n ≤ 16)) 11 ++
  need (decide (64 + 16 * n + (if signed then 96 else 0) ≤ total ∧ total ≤ b.length)) 24 ++
  need (decide (le b 28 1 ≤ 15)) 28 ++ need (decide (le b 29 1 < 2)) 29 ++ need (zeroAt b 30 2) 30 ++
  secFails b (secTable b 64 n) 64 lim fun t => decide (1 ≤ t ∧ t ≤ 10)

/-- Two entries name the same memory (R247). -/
def sameMem (q e : SchedEnt) : Bool := q.kind == e.kind && q.unit == e.unit && q.off == e.off && q.amount == e.amount

/-- Entries that name the same memory, once; with placement B where one of them has DOUBLE (R247). -/
def distinct (l : List SchedEnt) : List SchedEnt :=
  l.foldl (fun a e => if a.any (sameMem · e) then a.map fun q => if sameMem q e then { q with dbl := q.dbl || e.dbl } else q
    else a ++ [e]) []

/-- An image as its sections spell it; a section that is absent gives nothing. -/
def modelOfImage (b : Bytes) : Model :=
  let secs := secTable b 64 (le b 11 1)
  let get := findSec secs
  let none' : Sec := ⟨0, 0, 0, 0⟩
  let ts := match get 4 with | some s => tab (s.len / 8) fun i => tensorOf (le b (s.off + 8 * i) 8) | none => []
  let sched := match get 2 with
    | some s => tab (min (le b s.off 2) (s.len / 16 - 1)) fun i => schedOf b (s.off + 16 + 16 * i)
    | none => []
  let slotSec := match get 1 with | some s => slotOf b s | none => default
  let layers := match get 7 with
    | some s => (layersOf b s ((get 8).getD none') ts sched slotSec).map (·.2.2)
    | none => []
  let regions := sched.filter fun e => e.kind == 5
  let copies := distinct (sched.filter fun e => e.kind == 1 || e.kind == 2)
  let p := match get 3 with | some s => s.off | none => 0
  { flowKind := le b 6 1 == 1, passes := le b 7 1, modelId := le b 12 4, version := le b 16 4, structId := le b 20 4
    flowProfile := le b 28 1
    slotSec
    sched
    progFirst := if (get 3).isSome then progOf b (p + 8) (le b p 2) (le b (p + 2) 2) else ⟨[], []⟩
    progLater := if (get 3).isSome then progOf b (p + 8) (le b (p + 4) 2) (le b (p + 6) 2) else ⟨[], []⟩
    tensors := ts
    ens := (get 5).map fun s => ensOf b s ((get 6).getD none')
    layers
    turn := (get 9).map fun s => turnOf b s ts
    flow := (get 10).map fun s => flowOf b s
    host := 0, digest := slice b 32 32, loadNo := 0, placeEns := false, placeHead := false, ensAlt := none, headAlt := none
    -- the REGION entries can hold a copy of every ENGINE and TILE placement (R399; log entry 16)
    group := false, acts := []
    reload := decide ((copies.map fun e => if e.kind = 1 then cdiv (12 * e.amount) 64 else e.amount).sum ≤
      (regions.map (·.amount)).sum) }

/-- The failing fields of step 5 of R246. `desc` tells the window descriptors that the slot's owner may name in the new epoch,
`size` the lines of the REGION and HBM regions. -/
def modelBody (b : Bytes) (m : Model) (desc : Nat → Bool) (size : Nat → Nat) : List Nat :=
  let secs := secTable b 64 (le b 11 1)
  let get := findSec secs
  let has := fun t => (get t).isSome
  let none' : Sec := ⟨0, 0, 0, 0⟩
  let sec := fun t => (get t).getD none'
  let heads := m.layers.filter (·.headRefit)
  let mask := heads.foldl (fun a l => a ||| l.tileMask) 0
  let dbl := fun (e : SchedEnt) => (e.kind == 1 && (match m.ens with | some x => x.refitEn | none => false)) ||
    (e.kind == 2 && bit mask e.unit)
  let xp := m.layers.find? (·.type != 0)
  -- the table of R244
  need (has 1 && has 2 && (m.flowKind || has 3) && (!m.flowKind || has 10) && has 5 == has 6 && has 7 == has 8) 11 ++
  (secs.flatMap fun s => need (if m.flowKind then s.type != 3 && s.type != 9 else s.type != 10) s.at_) ++
  need (!heads.isEmpty || m.structId == 0) 20 ++
  need (!(has 9 && m.flowProfile == 15)) 28 ++
  (if has 1 then slotFails b (sec 1) m.slotSec m.passes m.ens m.layers (has 9) else []) ++
  (if has 2 then
    let s := sec 2
    let n := le b s.off 2
    need (decide (16 + 16 * n ≤ s.len)) s.off ++ need (zeroAt b (s.off + 2) 14) (s.off + 2) ++
    need (!missingLoads m.sched m.slotSec m.ens) s.off ++
    ((List.range m.sched.length).flatMap fun i =>
      let o := s.off + 16 + 16 * i
      schedFails b o i m.sched m.passes m.flowKind size dbl ++ loadFails o i m.sched m.slotSec m.ens m.layers)
   else []) ++
  (if has 3 then
    let s := sec 3
    let o := s.off
    let words := (s.len - 8) / 8
    need (decide (8 ≤ s.len) && decide (le b o 2 + le b (o + 2) 2 ≤ words)) o ++
    need (decide (le b (o + 4) 2 + le b (o + 6) 2 ≤ words) && (le b (o + 6) 2 != 0) == decide (1 < m.passes)) (o + 4) ++
    progFails m.progFirst (o + 8 + 8 * le b o 2) false desc ++ progFails m.progLater (o + 8 + 8 * le b (o + 4) 2) true desc
   else []) ++
  (if has 4 then
    let s := sec 4
    need (decide (s.len % 8 = 0 ∧ s.len ≤ 2048)) s.at_ ++
    ((List.range m.tensors.length).flatMap fun i => tensorFails (s.off + 8 * i) (le b (s.off + 8 * i) 8))
   else []) ++
  (match m.ens with
   | some e => ensFails b (sec 5) (sec 6) e m.flowKind m.tensors.length
   | none => []) ++
  (if has 7 then
    let s := sec 7
    need (decide (64 + 64 * le b s.off 4 ≤ s.len ∧ le b s.off 4 ≤ 255)) s.off ++ need (zeroAt b (s.off + 4) 60) (s.off + 4) ++
    ((layersOf b s (sec 8) m.tensors m.sched m.slotSec).flatMap fun x => layerFails b s x.1 x.2.1 (sec 8) x.2.2 m.tensors)
   else []) ++
  (match m.turn with
   | some t => turnFails b (sec 9) t m.tensors xp
   | none => []) ++
  (match m.flow with
   | some f => flowFails b (sec 10) f
   | none => [])

/-- Checks a model image for a tenant in the order of R246. -/
def checkModel (d : Dev) (tenant : Nat) (desc : Nat → Bool) (size : Nat → Nat) (b : Bytes) : Chk Model :=
  match firstBad (modelHead b) with
  | some o => .bad 0x21 o
  | none =>
    let total := le b 24 4
    let signed := bit (le b 29 1) 0
    let body := b.take (total - (if signed then 96 else 0))
    if le b 8 2 ≠ rd d Reg.topIdPart then .bad 0x22 8
    else if 16 * rd d Reg.topIdStepMajor + rd d Reg.topIdStepMinor < le b 10 1 then .bad 0x22 10
    else if slice b 32 32 ≠ Codes.sha256 (slice b 0 32 ++ body.drop 64) then .bad 0x20 32
    else if (if signed then !anyKey d.cfg.keys 3 tenant body (slice b (total - 96) 96)
        else rdB d (Reg.cfgTenantMdlSigReq tenant)) then .bad 0x20 29
    else
      let m := modelOfImage b
      match firstBad (modelBody b m desc size) with
      | some o => .bad 0x21 o
      | none => .ok m

end Sys2Proof.Machine.Img
end

