-- ==== Sys2Proof/Machine/Admit.lean ====
section
/-!
DEFINITION. Admit.lean: what live models hold (R251), what is free, and the admission of a model (R248, R252 to R254).
-/
namespace Sys2Proof.Machine.Ops

/-- A shortfall (R253). -/
structure Short where
  st : Nat
  res : Nat
  pipe : Nat
  pass : Nat
  unit : Nat
  need : Nat
  short : Nat
  deriving DecidableEq, Repr

/-- The models that some live epoch holds, each load once (R251). -/
def liveModels (d : Dev) : List Model :=
  (d.epochs.flatMap fun e => e.cfg.models.map (·.2)).foldl
    (fun a m => if a.any (·.loadNo == m.loadNo) then a else a ++ [m]) []

/-- The (model, pipe) pairs that some live epoch runs: each holds its rates and program words (R248, R251). -/
def reservations (d : Dev) : List (Model × Nat) :=
  (d.epochs.flatMap fun e => e.cfg.models.flatMap fun p =>
    ((List.range 8).filter fun k => !p.2.flowKind && bit (getD e.cfg.active p.1 0) k).map fun k => (p.2, k)).foldl
    (fun a r => if a.any fun q => q.1.loadNo == r.1.loadNo && q.2 == r.2 then a else a ++ [r]) []

/-- The placements of a model on a unit: start and size, each memory once (R247). -/
def placements (m : Model) (kind unit : Nat) : List (Nat × Nat) :=
  ((Img.distinct (m.sched.filter Img.holdsMem)).filter fun e => e.kind == kind && e.unit == unit).map fun e =>
    (e.off, Img.span e)

/-- Lines of a region of the layout in force (R320). -/
def regionLines (d : Dev) (kind : Nat) : Nat := (region d (if kind = 5 then 2 else 9)).2 / 64

/-- The logical engine or tile can take work: it has not been removed and its domain is ON (R400, R426). -/
def unitUp (d : Dev) (kind unit : Nat) : Bool :=
  if kind = 1 then !unitRemoved d (1 + unit / 32) (unit % 32) && domOn d (if unit < 256 then 9 else 10)
  else if kind = 2 then !unitRemoved d 0 unit && domOn d (if physOf d 0 unit < 17 then 11 else 12)
  else true

/-- The memory of a unit of a kind (R247, R253). -/
def memCap (d : Dev) (kind unit : Nat) : Nat :=
  if !unitUp d kind unit then 0 else if kind = 5 ∨ kind = 6 then regionLines d kind else Img.kindSize kind

/-- What live models hold of it. -/
def memHeld (d : Dev) (kind unit : Nat) : Nat :=
  ((liveModels d).map fun m => ((placements m kind unit).map (·.2)).sum).sum
def memFree (d : Dev) (kind unit : Nat) : Nat := memCap d kind unit - memHeld d kind unit

/-- The point at which admission computes a DVFS domain: its FLOOR, or 7 in divided mode (R22, R415). -/
def floorPoint (d : Dev) (k : Nat) : Nat := if rdB d (Reg.clkDvfsCfgMode k) then rd d (Reg.clkDvfsCfgFloor k) else 7

/-- One period of CLK_RECIRC for all pipes: the common denominator of their rates (R33). -/
def rateDen (d : Dev) : Nat := (List.range 8).foldl (fun a p => a * max 1 (recircK d p)) 1
/-- Units of work per µs of a pass of a pipe, times `rateDen` (R33, R216). -/
def rateOf (d : Dev) (pipe pass : Nat) : Nat :=
  if pass = 0 then 1250 * rateDen d else 1250 * rateDen d / max 1 (recircK d pipe)

/-- The flits per µs that a deepened slot reserves on Trellis link `l` (R376); a model that no group graft has loaded makes no hops. -/
def linkFlits (d : Dev) (m : Model) (l : Nat) : Nat := if m.group then Config.hopFlits d.cfg.device m.structId l else 0
/-- The hops of a slot (R376). -/
def modelHops (d : Dev) (m : Model) : Nat := if m.group then Config.hopCount d.cfg.device m.structId else 0
/-- `TRL_LINK_FREE_k`: unreserved flit slots of a link, of 1,250 in a µs (R367, R376). -/
def linkFree (d : Dev) (l : Nat) : Nat := 1250 - ((liveModels d).map fun m => linkFlits d m l).sum

/-- The LOADs that a model reserves on a unit from a pipe: LOAD with its rate. -/
def loadOn (d : Dev) (m : Model) (pipe kind unit : Nat) : Nat :=
  ((m.sched.filter fun e => e.kind == kind && e.unit == unit && e.pipe == pipe).map fun e =>
    if kind = 3 then e.load else e.load * rateOf d pipe e.pass).sum

/-- What a unit can carry, in the same measure: frequency at F_min in MHz (trees, steps per µs; thirds of MHz for CLK_MX are
exact in the factor 3) times 3 `rateDen`; 64 fetches per frame (R183, R217, R252, R416). -/
def rateScale (d : Dev) (kind : Nat) : Nat := if kind = 3 then 1 else 3 * rateDen d
def rateCap (d : Dev) (kind unit : Nat) : Nat :=
  if kind = 3 then (if domOn d (if unit < 8 then 9 else 10) then 64 else 0)
  else if !unitUp d kind unit then 0
  else if kind = 1 then (1125 + 375 * floorPoint d 1) * rateDen d
  else (1500 + 500 * floorPoint d 0) * rateDen d
def loadScaled (d : Dev) (m : Model) (pipe kind unit : Nat) : Nat :=
  loadOn d m pipe kind unit * (if kind = 3 then 1 else 3)
/-- What live reservations use of it. -/
def rateHeld (d : Dev) (kind unit : Nat) : Nat :=
  ((reservations d).map fun r => loadScaled d r.1 r.2 kind unit).sum
/-- What is left, in trees or steps per µs, or fetches per frame. -/
def rateFree (d : Dev) (kind unit : Nat) : Nat := (rateCap d kind unit - rateHeld d kind unit) / rateScale d kind

/-- Words of a program. -/
def progWords (p : FeaProg) : Nat := p.pre.length + p.post.length
def modelWords (m : Model) : Nat := progWords m.progFirst + progWords m.progLater
/-- The activations in a pipe that some live epoch holds, each with its tensor records (R159, R251). -/
def recordsHeld (d : Dev) (pipe : Nat) : List (Nat × Nat) :=
  (d.epochs.flatMap fun e => (e.cfg.models.filter fun p => bit (runPipes e.cfg p.1 p.2) pipe).map fun p =>
    (p.2.acts.getD pipe p.2.loadNo, p.2.tensors.length)).eraseDups
/-- Tensor records and program words free in a pipe (R120, R159). -/
def recordsFree (d : Dev) (pipe : Nat) : Nat := 1024 - ((recordsHeld d pipe).map (·.2)).sum
def wordsFree (d : Dev) (pipe : Nat) : Nat :=
  8192 - (((reservations d).filter fun r => r.2 == pipe).map fun r => modelWords r.1).sum

/-- Length of the part that two intervals share. -/
def lap (a b : Nat × Nat) : Nat := min (a.1 + a.2) (b.1 + b.2) - max a.1 b.1

/-- Memory shortfalls of an image (R252): OVERSIZE, or an overlap with a live holding. -/
def memShorts (d : Dev) (m : Model) : List Short :=
  [1, 2, 4, 5, 6].flatMap fun k => (List.range (Img.kindUnits k)).flatMap fun u =>
    let mine := placements m k u
    let need := (mine.map (·.2)).sum
    let free := memFree d k u
    let unit := if k = 1 ∨ k = 2 then u else 0xFFFF
    let pipe := if k = 4 then u else 0xFF
    if need = 0 then []
    else if free < need then [⟨0x10, [0, 1, 2, 0, 3, 6, 7].getD k 0, pipe, 0xFF, unit, need, need - free⟩]
    else if k = 4 then []
    else
      let l := ((liveModels d).map fun q =>
        (mine.map fun a => ((placements q k u).map (lap a)).sum).sum).sum
      if l = 0 then [] else [⟨0x14, [0, 0x10, 0x11, 0, 0, 0x12, 0x13].getD k 0, 0xFF, 0xFF, unit, need, l⟩]

/-- Rate shortfalls: engines, tiles, page ports that the new reservations use. -/
def rateShorts (d : Dev) (m : Model) (pipes : List Nat) : List Short :=
  [1, 2, 3].flatMap fun k => (List.range (if k = 3 then 16 else Img.kindUnits k)).flatMap fun u =>
    let add := (pipes.map fun p => loadScaled d m p k u).sum
    if add = 0 then [] else
    let need := rateHeld d k u + add
    let cap := rateCap d k u
    if need ≤ cap then []
    else [⟨0x14, 0x13 + k, 0xFF, 0xFF, u, cdiv need (rateScale d k), cdiv (need - cap) (rateScale d k)⟩]

/-- Slots that hold a model of a tenant in some live epoch, with one more (R249). -/
def tenantSlots (d : Dev) (t slot : Nat) : Nat :=
  ((List.range 256).filter fun s => s == slot ||
    (slotTenant d s == t && d.epochs.any fun e => (find? e.cfg.models s).isSome)).length

/-- The time unit of the latency check: 1 / (5 a b) ns, where `a` and `b` are 3 more than the points of CLK_ESP and CLK_MX; a
cycle of theirs is 8 / a and 6 / b ns (R416). -/
structure Units where
  a : Nat
  b : Nat
  deriving DecidableEq, Repr
def units (d : Dev) : Units := ⟨3 + floorPoint d 1, 3 + floorPoint d 0⟩
def Units.ns (u : Units) : Nat := 5 * u.a * u.b
def Units.esp (u : Units) : Nat := 40 * u.b
def Units.mx (u : Units) : Nat := 30 * u.a
def Units.pipe (u : Units) : Nat := 4 * u.a * u.b

/-- L_ens (R171, R527) of a pass in a pipe, in CLK_ESP cycles. -/
def lEns (m : Model) (e : Ensemble) (pipe pass : Nat) : Nat :=
  let es := m.sched.filter fun x => x.kind == 1 && x.pass == pass && x.pipe == pipe
  let mx := (es.map (·.load)).foldl max 1
  let n := ((es.map fun x => x.unit / 32).eraseDups).length
  8 + (mx - 1) + 16 + 40 * (e.trees.map (·.paged)).foldl max 0 + 4 + (if n > 1 then 8 else 0) +
    [0, 2, 4, 12, 0].getD e.link 0

/-- L_layer (R218), in CLK_MX cycles. -/
def lLayer (l : Layer) : Nat := 20 + Img.layerS l + (if Img.layerX l > 1 then 6 else 0)

/-- The release time `r` of a turn as the times of a pipe count it (R98, R254). -/
def relTime (d : Dev) (u : Units) (pipe : Nat) : Nat :=
  if bit (rd d Reg.stmPipesMask) pipe then Config.flwArrival * u.pipe else rd d Reg.flwOrderCfgHorizon * u.ns

/-- The chain of a pass (R218, R254): when its result reaches VRD, and when the XPART outputs reach the turn unit. The layers run
one after another; the ensemble runs beside them, and a layer that reads its result waits for it. -/
def passChain (d : Dev) (u : Units) (m : Model) (pipe pass : Nat) : Nat × Option Nat :=
  let p := m.slotSec.passes.getD pass default
  let t0 := if pass = 0 then rd d (Reg.cfgInfStart pipe) * u.ns else 0
  let ens := match m.ens with
    | some e => if p.ens then some (t0 + lEns m e pipe pass * u.esp, e.resultTensor) else none
    | none => none
  let gate := match m.turn with
    | some t => if pass = 0 then
        some (relTime d u pipe + (rd d Reg.mxtTurnCfgOffset + t.slack + t.tu) * u.ns, [t.stateTensor, t.viewTensor].filter (· != 0xFF))
      else none
    | none => none
  let r := (Img.layersIn p m.layers.length).foldl (fun (x : Nat × Option Nat) i =>
    let l := m.layers.getD i default
    let ins := l.inA :: (if l.kB = 0 then [] else [l.inB])
    let t := match ens with | some (te, rt) => if ins.contains rt then max x.1 te else x.1 | none => x.1
    let t := match gate with | some (g, st) => if ins.any st.contains then max t g else t | none => t
    let t := t + 3 * u.pipe + lLayer l * u.mx
    (t, if l.type ≠ 0 then some (t + 4 * u.pipe) else x.2)) (t0, none)
  (max r.1 (match ens with | some (te, _) => te | none => 0) + 4 * u.pipe, r.2)

/-- Latency shortfalls in a pipe (R120, R210, R211, R254). -/
def latShorts (d : Dev) (m : Model) (p : Nat) : List Short :=
  let u := units d
  let late := fun (res pass t lim : Nat) => if t ≤ lim then [] else
    [(⟨0x11, res, p, pass, 0xFFFF, cdiv t u.ns, cdiv (t - lim) u.ns⟩ : Short)]
  let post := rd d (Reg.feaPipeCfgPostLen p)
  -- each hop counts 1,600 ns, in the last pass that runs here and in the window (R376)
  let hop := 1600 * modelHops d m * u.ns
  ((List.range m.passes).flatMap fun k =>
    let n := (if k = 0 then m.progFirst else m.progLater).post.length
    (if n ≤ post then [] else [⟨0x11, 0x21, p, k, 0xFFFF, n, n - post⟩]) ++
    late 0x20 k ((passChain d u m p k).1 + if k + 1 = m.passes then hop else 0) ((if k = 0 then rd d (Reg.cfgInfEnd p) else rd d (Reg.cfgInfLaterLen p)) * u.ns)) ++
  (match m.turn with
   | none => []
   | some t =>
     -- 8 + 0.8 x (ceil(S / 3.2) + 1) ns
     let need := 8 * u.ns + (cdiv (10 * t.slack) 32 + 1) * u.pipe
     (if need ≤ t.tu * u.ns then [] else [⟨0x11, 0x22, p, 0xFF, 0xFFFF, cdiv need u.ns, cdiv (need - t.tu * u.ns) u.ns⟩]) ++
     (match (passChain d u m p 0).2 with
      | some x => late 0x23 0xFF x (relTime d u p + rd d Reg.mxtTurnCfgOffset * u.ns)
      | none => [])) ++
  (if bit (rd d Reg.stmPipesMask) p then
    late 0x24 0xFF (rd d (Reg.cfgInfEnd p) * u.ns + u.pipe + 800 * (m.passes - 1) * u.ns + hop) (10 * rd d Reg.stmWinMinMin * u.ns)
   else [])

/-- Shortfall of tensor records in a pipe (R159, R252). -/
def recordShorts (d : Dev) (p need : Nat) : List Short :=
  if need ≤ recordsFree d p then [] else [⟨0x10, 4, p, 0xFF, 0xFFFF, need, need - recordsFree d p⟩]

/-- The flow model attached to a slot (R256). -/
def attached (c : EpochCfg) (slot : Nat) : Option (Nat × Model) := c.models.find? fun p => p.2.flowKind && p.2.host == slot

/-- The records that a slot takes in a pipe: its model's, and those of an attached flow model where the slot was not active (R159). -/
def recordNeed (d : Dev) (slot : Nat) (m : Model) (p : Nat) : Nat :=
  m.tensors.length + (match attached (curCfg d) slot with
    | some f => if bit (getD (curCfg d).active slot 0) p then 0 else f.2.tensors.length
    | none => 0)

/-- The checks of R252 and R254 in the pipes that become active. `d` holds the new epoch in front, as the earlier items of the
graft leave it. -/
def pipeShorts (d : Dev) (slot : Nat) (m : Model) (pipes : List Nat) : List Short :=
  (pipes.flatMap fun p =>
    let words := wordsFree d p
    let act := 1 + ((curCfg d).active.filter fun q => q.1 != slot && bit q.2 p).length
    let fprofs := ((curCfg d).graphs.getD p default).fprofs.length
    recordShorts d p (recordNeed d slot m p) ++
    (if modelWords m ≤ words then [] else [⟨0x10, 5, p, 0xFF, 0xFFFF, modelWords m, modelWords m - words⟩]) ++
    (if act ≤ 16 then [] else [⟨0x14, 0x17, p, 0xFF, 0xFFFF, act, act - 16⟩]) ++
    (if m.passes = 1 ∨ recircK d p ≠ 0 then [] else [⟨0x14, 0x18, p, 0xFF, 0xFFFF, m.passes, m.passes - 1⟩]) ++
    (if m.flowProfile = 15 ∨ m.flowProfile < fprofs then [] else [⟨0x14, 0x19, p, 0xFF, 0xFFFF, m.flowProfile, 1⟩]) ++
    latShorts d m p) ++ rateShorts d m pipes

/-- Link shortfalls of a group graft (R376): UNIT is the link. -/
def linkShorts (d : Dev) (m : Model) : List Short :=
  (List.range 4).flatMap fun l =>
    let need := linkFlits d m l
    if need ≤ linkFree d l then [] else [⟨0x14, 0x1A, 0xFF, 0xFF, l, need, need - linkFree d l⟩]

/-- The shortfalls of a load (R248, R249, R252). A flow model takes records in the pipes of its host. -/
def loadShorts (d : Dev) (tenant slot : Nat) (m : Model) (pipes : List Nat) : List Short :=
  let n := tenantSlots d tenant slot
  let lim := rd d (Reg.cfgTenantMdlSlotMax tenant)
  memShorts d m ++ (if n ≤ lim then [] else [⟨0x10, 8, 0xFF, 0xFF, tenant, n, n - lim⟩]) ++
  (if m.flowKind then pipes.flatMap fun p => recordShorts d p m.tensors.length else
    (pipes.flatMap fun p => if m.sched.any fun e => e.pipe == p && (e.kind == 1 || e.kind == 2) then []
      else [⟨0x14, 0x1B, p, 0xFF, 0xFFFF, 1, 1⟩]) ++ linkShorts d m ++ pipeShorts d slot m pipes)

/-- The status of a load: OVERSIZE, else PLACEMENT, else LATENCY, else none (R252). -/
def shortCode (l : List Short) : Option Nat :=
  if l.any (·.st == 0x10) then some 0x10 else if l.any (·.st == 0x14) then some 0x14
  else if l.any (·.st == 0x11) then some 0x11 else none

/-- An entry's place in the report: status, resource, pipe, pass, unit (R253). -/
def Short.rank (s : Short) : Nat := (((s.st * 256 + s.res) * 256 + s.pipe) * 256 + s.pass) * 65536 + s.unit

/-- Sorts shortfalls by their rank. -/
def sortShorts (l : List Short) : List Short :=
  l.foldl (fun a s => a.takeWhile (fun x => x.rank ≤ s.rank) ++ s :: a.dropWhile (fun x => x.rank ≤ s.rank)) []

/-- The admission report (R253). -/
def admReport (code slot modelId : Nat) (l : List Short) : Bytes :=
  let l' := (sortShorts l).take 64
  leBytes 1 code ++ leBytes 1 l'.length ++ leBytes 1 (b2n (decide (64 < l.length))) ++ [0] ++ leBytes 1 slot ++ zeros 3 ++
  leBytes 4 modelId ++ zeros 4 ++
  l'.flatMap fun s => leBytes 1 s.res ++ leBytes 1 s.st ++ leBytes 1 s.pass ++ leBytes 1 s.pipe ++ leBytes 2 s.unit ++ zeros 2 ++
    leBytes 4 s.need ++ leBytes 4 s.short

/-- The report of a failing check of R246: one FORMAT_AT entry, or none. -/
def chkReport (code off slot modelId : Nat) : Bytes :=
  admReport code slot modelId (if code = 0x21 then [⟨0x21, 0x30, 0xFF, 0xFF, 0xFFFF, off, 0⟩] else [])

end Sys2Proof.Machine.Ops
end

