-- ==== Sys2Proof/Machine/Sections.lean ====
section
/-!
DEFINITION. Sections.lean: the sections of a bit-stream image: DEVICE (R466), PARTITION (R319 to R322), PARSE (R468), RULES (R469),
WINDOWS (R470), KEYS (R462): their checks, and what each installs. A check answers a code with the offset of the failing field.
-/
namespace Sys2Proof.Machine.Img
open Sys2Proof.Machine.Ops

/-- A list of failing fields as a FORMAT failure at the lowest of them. -/
def format (l : List Nat) : Option (Nat × Nat) := (firstBad l).map fun o => (0x21, o)

/-- The first failure of several checks. -/
def firstOf : List (Option (Nat × Nat)) → Option (Nat × Nat)
  | [] => none
  | some x :: _ => some x
  | none :: r => firstOf r

/-! ### PARTITION -/

/-- The layouts of a section from offset `o`: where each begins (R319). -/
def layoutAts (b : Bytes) : Nat → Nat → List Nat
  | 0, _ => []
  | n + 1, o => o :: layoutAts b n (o + 8 + 16 * le b (o + 2) 1)

/-- A layout at `o`. -/
def layoutOf (b : Bytes) (o : Nat) : Layout :=
  { lost := le b o 1, bucketLog2 := le b (o + 1) 1
    regions := tab (le b (o + 2) 1) fun i =>
      let p := o + 8 + 16 * i
      ⟨le b p 1, le b (p + 4) 4, le b (p + 8) 8⟩ }

def layoutsOf (b : Bytes) : List Layout := (layoutAts b (min (le b 0 1) 9) 16).map (layoutOf b)

/-- Bytes of the flow table's entries and overflow store (R320). -/
def entries (n : Nat) : Nat := 4 * 2 ^ n + 16384

/-- The size of a region obeys its rule (R320). -/
def sizeOk (n id size : Nat) : Bool :=
  match id with
  | 0 => size == cdiv (128 * entries n) 65536
  | 1 => size == cdiv (16 * entries n) 65536
  | 3 => decide (1 ≤ size ∧ size ≤ 16383)
  | 4 => size == 8192
  | 5 => decide (1 ≤ size ∧ size ≤ 1023)
  | 6 => decide (64 ≤ size)
  | 7 => decide (96 ≤ size)
  | 8 => decide (1 ≤ size ∧ size ≤ 16383)
  | 10 => decide (1 ≤ size ∧ size ≤ 16383)
  | _ => true

/-- A region lies in its medium, inside the maps of its layout (R316, R319, R321). -/
def placeOk (lost : Nat) (r : Region) : Bool :=
  let e := r.base + 65536 * r.size
  let sram := decide (e ≤ if lost < 4 then 0x180000000 else 0x200000000)
  let hbm := decide (0x200000000 ≤ r.base ∧
    e ≤ 0x200000000 + (if 0x10 ≤ lost ∧ lost < 0x14 then 0xC00000000 else 0x1000000000))
  (if r.id ≤ 8 then sram else if r.id ≤ 12 then hbm else sram || hbm) && (r.id == 13 || decide (e ≤ 0xF00000000))

/-- The failing fields of a layout at `o` (R319 to R321). -/
def layoutFails (b : Bytes) (o : Nat) (first : Bool) : List Nat :=
  let l := layoutOf b o
  need (if first then l.lost == 0xFF else decide (l.lost < 4 ∨ (0x10 ≤ l.lost ∧ l.lost < 0x14))) o ++
  need (decide (16 ≤ l.bucketLog2 ∧ l.bucketLog2 ≤ 23)) (o + 1) ++
  need (decide (13 ≤ l.regions.length ∧ l.regions.length ≤ 16 ∧ o + 8 + 16 * l.regions.length ≤ b.length) &&
    (List.range 13).all fun i => (l.regions.filter (·.id == i)).length == 1) (o + 2) ++
  need (zeroAt b (o + 3) 5) (o + 3) ++
  (List.range l.regions.length).flatMap fun i =>
    let p := o + 8 + 16 * i
    let r := l.regions.getD i default
    need (r.id ≤ 13) p ++ need (zeroAt b (p + 1) 3) (p + 1) ++ need (sizeOk l.bucketLog2 r.id r.size) (p + 4) ++
    need (r.base % 65536 == 0 && placeOk l.lost r && (l.regions.take i).all fun q =>
      decide (r.base + 65536 * r.size ≤ q.base ∨ q.base + 65536 * q.size ≤ r.base)) (p + 8)

/-- The failing fields of a PARTITION section (R319 to R321). -/
def partFails (b : Bytes) : List Nat :=
  let n := le b 0 1
  let ats := layoutAts b (min n 9) 16
  need (decide (1 ≤ n ∧ n ≤ 9)) 0 ++ need (zeroAt b 1 15) 1 ++
  (List.range ats.length).flatMap fun i =>
    let o := ats.getD i 0
    layoutFails b o (i == 0) ++ need ((ats.take i).all fun q => le b q 1 != le b o 1) o

/-- What LOST must be now: no unit lost, or the one that is (R321); none where two are lost. -/
def lostNow (d : Dev) : Option Nat :=
  let dead := ((List.range 4).filter fun u => !bit (rd d Reg.memStatDiesLive) u) ++
    ((List.range 4).filter fun u => !bit (rd d Reg.memStatStacksLive) u).map (0x10 + ·)
  match dead with
  | [] => some 0xFF
  | [u] => some u
  | _ => none

/-- The layout of a section that the device would install now (R321). -/
def layoutNow (d : Dev) (ls : List Layout) : Option Layout :=
  match lostNow d with
  | some u => ls.find? (·.lost == u)
  | none => none

/-- A region of a layout: base and size in bytes. -/
def regOf (l : Layout) (id : Nat) : Nat × Nat :=
  match l.regions.find? (·.id == id) with
  | some r => (r.base, r.size * 65536)
  | none => (0, 0)

/-- A region's entry or the map of its medium changes (R322). -/
def regionMoves (d : Dev) (l : Layout) (id : Nat) : Bool :=
  region d id != regOf l id ||
    (if id ≤ 8 then map3 d true != decide (l.lost < 4) else map3 d false != decide (0x10 ≤ l.lost ∧ l.lost < 0x14))

/-- The bytes at `a`, `n` of them, lie in a region of the layout. -/
def insideReg (l : Layout) (id a n : Nat) : Bool := decide ((regOf l id).1 ≤ a ∧ a + n ≤ (regOf l id).1 + (regOf l id).2)

/-- Every live holding of REGION (2) or HBM (9) lines lies inside the new region at its address (R322). -/
def holdingsFit (d : Dev) (l : Layout) (id kind : Nat) : Bool :=
  (liveModels d).all fun m => (placements m kind 0).all fun p =>
    insideReg l id ((region d id).1 + 64 * p.1) (64 * p.2)

/-- The cells that the live epochs' descriptors use: address and size in bytes, once each (R136). -/
def liveCells (d : Dev) : List (Nat × Nat) :=
  ((d.epochs.flatMap fun e => e.cfg.descs.map fun p =>
    (rd64 d Reg.feaWinBaseLoAddr Reg.feaWinBaseHiAddr + p.2.base, p.2.cells * Window.cellSize p.2))).eraseDups

/-- The changes of a graft that R322 refuses. -/
def moveFails (d : Dev) (l : Layout) : Bool :=
  let mv := regionMoves d l
  (mv 2 && !holdingsFit d l 2 5) || (mv 9 && !holdingsFit d l 9 6) ||
  (mv 8 && !((liveCells d).all fun p => insideReg l 8 p.1 p.2)) ||
  (mv 12 && !((List.range 64).all fun t =>
    rd d (Reg.grfStageSizeSize t) == 0 ||
      insideReg l 12 (rd64 d (Reg.grfStageBaseLoAddr t) (Reg.grfStageBaseHiAddr t) / 65536 * 65536) (rd d (Reg.grfStageSizeSize t) * 65536))) ||
  ((mv 3 || mv 4) && gate d 14 != .off)

/-- Checks a PARTITION section of a graft (R321, R322). -/
def partCheck (d : Dev) (b : Bytes) : Option (Nat × Nat) :=
  firstOf [format (partFails b),
    match layoutNow d (layoutsOf b) with
    | none => some (0x14, 0)
    | some l => if moveFails d l then some (0x14, 0) else none]

/-- Moves the offsets of what lives in a region whose base changes, so that its addresses stay (R322). -/
def shiftOff (old new x unit : Nat) : Nat := x + old / unit - new / unit
def shiftEpoch (d : Dev) (l : Layout) (c : EpochCfg) : EpochCfg :=
  let win := rd64 d Reg.feaWinBaseLoAddr Reg.feaWinBaseHiAddr
  { c with
    descs := c.descs.map fun p => (p.1, { p.2 with base := shiftOff win (regOf l 8).1 p.2.base 1 })
    models := c.models.map fun p => (p.1, { p.2 with sched := p.2.sched.map fun e =>
      if e.kind = 5 then { e with off := shiftOff (region d 2).1 (regOf l 2).1 e.off 64 }
      else if e.kind = 6 then { e with off := shiftOff (region d 9).1 (regOf l 9).1 e.off 64 } else e }) }

/-- The effects of a change of a region on its contents (R322, R333). PKT_BUF holds the queued packets; TMG_STATE the policers, queues and nodes
with their parameters, which become zero as at reset (R312; log entry 155). -/
def moveRegion (d : Dev) (l : Layout) (id : Nat) : Dev :=
  let r := regOf l id
  match id with
  | 0 => memClear (startTable d) r.1 r.2
  | 1 => { memClear d r.1 r.2 with flw := { d.flw with sides := [] } }
  | 3 =>
    let d := memClear d r.1 r.2
    { d with tmg := { d.tmg with queues := d.tmg.queues.map (fun q => (q.1, { q.2 with pkts := [], deficit := 0 })), used := 0 } }
  | 4 =>
    let d := memClear d r.1 r.2
    let keep := fun (p : Nat × Nat) => decide (p.1 < 2 ^ 50)
    { d with tmg := { d.tmg with pols := [], queues := [], nodes := [], lastTurn := [], used := 0 }
             regs := d.regs.filter keep, shadow := d.shadow.filter keep }
  | 5 =>
    let n := max 1 (rd d Reg.flwLogCfgEntries)
    let unread := (rd d Reg.flwLogWrIndex + n - rd d Reg.flwLogRdIndex) % n
    let d := wrs (count d Ctr.flwLogLost unread) [(Reg.flwLogWrIndex, 0), (Reg.flwLogRdIndex, 0)]
    if unread = 0 then d else wr d Reg.flwLogStatOverrun 1
  | 6 => memClear d r.1 r.2
  | 7 => memClear d r.1 r.2
  | 10 => { count d Ctr.espLpsExpire ((d.leafRecs.filter fun r => !r.used).length +
      (d.headRecs.filter fun r => !r.used).length) with leafRecs := [], headRecs := [] }
  | 11 =>
    let d := { memClear d r.1 r.2 with banks := [] }
    each (List.range 256) d fun d s => if polState d s = 0 then d else polIdle (tick (dropCommit d s) Ctr.cfgRefitFail) s
  | _ => d

/-- Room for the two banks of a slot's ensemble or head layer in the REFIT region, first fit (R191, R221; log entry 13). -/
def bankSize (m : Model) (part : Nat) : Nat :=
  if part = 0 then (match m.ens with | some e => if e.refitEn then 64 + 24 * e.total else 0 | none => 0)
  else match headLayer m with
    | some l => 64 + 16 * (l.n * (l.kA + l.kB)) + 8 * l.n
    | none => 0
def placeBank (d : Dev) (slot part : Nat) (m : Model) : Dev :=
  let n := 64 * cdiv (bankSize m part) 64
  if n = 0 then d else
  let d := { d with banks := del d.banks (2 * slot + part) }
  match firstFit (region d 11).1 (region d 11).2 (2 * n) (d.banks.map fun p => (p.2.base, 2 * p.2.size)) with
  | some a => { memClear d a (2 * n) with banks := set d.banks (2 * slot + part) ⟨a, n, false⟩ }
  | none => d
/-- The banks of every slot of the current epoch are placed anew, at zero. -/
def placeBanks (d : Dev) : Dev :=
  each (curCfg d).models d fun d p => placeBank (placeBank d p.1 0 p.2) p.1 1 p.2

/-- Installs a layout of a list (R320 to R322, R333): the registers that it sets, and what changed regions lose. -/
def installLayout (d : Dev) (ls : List Layout) (l : Layout) : Dev :=
  let moved := (List.range 13).filter (regionMoves d l)
  let d := each moved { d with epochs := d.epochs.map fun e => { e with cfg := shiftEpoch d l e.cfg } } fun d id => moveRegion d l id
  let d := { d with mem := { d.mem with layouts := ls }, tmg := { d.tmg with cells := (regOf l 3).2 / 256 } }
  let d := wrs d [(Reg.memLayoutLost, l.lost), (Reg.memLayoutBucketLog2, l.bucketLog2), (Reg.memLayoutCount, l.regions.length),
    (Reg.memStatSramMap, b2n (decide (l.lost < 4))), (Reg.memStatHbmMap, b2n (decide (0x10 ≤ l.lost ∧ l.lost < 0x14))),
    (Reg.flwCfgBucketLog2, l.bucketLog2), (Reg.flwLogCfgEntries, (regOf l 5).2 / 64), (Reg.espLpsSizeSize, (regOf l 10).2 / 64)]
  let d := wr64 d Reg.flwTableBaseLoAddr Reg.flwTableBaseHiAddr (regOf l 0).1
  let d := wr64 d Reg.flwSideBaseLoAddr Reg.flwSideBaseHiAddr (regOf l 1).1
  let d := wr64 d Reg.clsRuleCntBaseLoAddr Reg.clsRuleCntBaseHiAddr (regOf l 6).1
  let d := wr64 d Reg.tmgPolCntBaseLoAddr Reg.tmgPolCntBaseHiAddr (regOf l 7).1
  let d := wr64 d Reg.feaWinBaseLoAddr Reg.feaWinBaseHiAddr (regOf l 8).1
  let d := wr64 d Reg.espLpsBaseLoAddr Reg.espLpsBaseHiAddr (regOf l 10).1
  if moved.contains 11 then placeBanks d else d

/-! ### PARSE -/

def nodeOfWord (w : Nat) : PNode :=
  { hdrId := bits w 0 8, fixedLen := bits w 8 9, hlenOff := bits w 17 12, hlenWidth := bits w 29 4, hlenScale := bits w 33 2
    hlenAdd := bits w 35 8, totOff := bits w 43 12, totWidth := bits w 55 5, totKind := bit w 60, selOff := bits w 61 12
    selWidth := bits w 73 5, edgeBase := bits w 78 10, edgeCount := bits w 88 5, defaultNext := bits w 93 8
    defaultEnd := bit w 101, strict := bit w 102, exact := bit w 103, allOnesBad := bit w 104, csum := bit w 105
    lt8023 := bit w 106, verEn := bit w 107, verValue := bits w 108 4, repeatMax := bits w 112 3, optEn := bit w 115
    optStart := bits w 116 9, optIncl := bit w 125, optSingle := bits w 128 8, extractBase := bits w 136 10
    extractCount := bits w 146 4 }

def edgeOfWord (w : Nat) : PEdge := ⟨bits w 0 16, bits w 16 16, bits w 32 8, bit w 40⟩
def extOfWord (w : Nat) : PExt := ⟨bits w 0 12, bits w 12 5, bits w 17 7, bit w 24⟩

/-- A node obeys R70 and R468 in a graph of `n` nodes, `e` edges, `x` extraction entries. -/
def nodeFits (w n e x : Nat) : Bool :=
  let p := nodeOfWord w
  let within := fun (off width : Nat) => width == 0 || decide (off + width ≤ 8 * p.fixedLen)
  p.fixedLen != 0 && decide (p.totWidth ≤ 16 ∧ p.selWidth ≤ 16 ∧ p.edgeCount ≤ 16) && bits w 126 2 == 0 && w / 2 ^ 150 == 0 &&
  within p.hlenOff p.hlenWidth && within p.totOff p.totWidth && within p.selOff p.selWidth &&
  decide (p.defaultNext < n ∧ p.edgeBase + p.edgeCount ≤ e ∧ p.extractBase + p.extractCount ≤ x)

/-- The parts of a PARSE block at `o`: where nodes, edges, extraction entries, map, key profiles and flow-key profiles begin, and its
end (R468). -/
def blockAts (b : Bytes) (o : Nat) : List Nat :=
  let up := fun (n : Nat) => 64 * cdiv n 64
  let n := o + 64
  let e := n + up (32 * le b (o + 2) 2)
  let x := e + up (8 * le b (o + 4) 2)
  let m := x + up (4 * le b (o + 6) 2)
  let k := m + 256
  let f := k + up (24 * le b (o + 8) 1)
  [n, e, x, m, k, f, f + up (12 * le b (o + 9) 1)]

/-- Where the blocks of a PARSE section begin. -/
def blocks (b : Bytes) : Nat → Nat → List Nat
  | 0, _ => []
  | n + 1, o => o :: blocks b n ((blockAts b o).getD 6 0)
def parseBlocks (b : Bytes) : List Nat := blocks b (min (le b 0 1) 8) 64

/-- A source of a key word: a field-buffer word or 255. -/
def srcOk (x : Byte) : Bool := decide (x.toNat ≤ 127) || x == 255

/-- The failing fields of a block at `o` (R70 to R72, R81, R93, R468). -/
def blockFails (b : Bytes) (o : Nat) : List Nat :=
  let at_ := fun i => (blockAts b o).getD i 0
  let n := le b (o + 2) 2
  let e := le b (o + 4) 2
  let x := le b (o + 6) 2
  let kp := le b (o + 8) 1
  let fp := le b (o + 9) 1
  let pad := fun (a m z : Nat) => need (zeroAt b (a + m) (z - a - m)) (a + m)
  need (zeroAt b (o + 1) 1) (o + 1) ++ need (decide (1 ≤ n ∧ n ≤ 256)) (o + 2) ++ need (e ≤ 1024) (o + 4) ++
  need (x ≤ 1024) (o + 6) ++ need (decide (1 ≤ kp ∧ kp ≤ 16)) (o + 8) ++ need (fp ≤ 15) (o + 9) ++ need (zeroAt b (o + 10) 2) (o + 10) ++
  (if 256 < n ∨ 1024 < e ∨ 1024 < x ∨ 16 < kp ∨ 15 < fp then [] else
    need (decide (at_ 6 ≤ b.length)) o ++
    ((List.range 34).flatMap fun i => need (decide (le b (o + 12 + i) 1 < n)) (o + 12 + i)) ++
    need (zeroAt b (o + 46) 18) (o + 46) ++
    ((List.range n).flatMap fun i => need (nodeFits (le b (at_ 0 + 32 * i) 32) n e x) (at_ 0 + 32 * i)) ++
    ((List.range e).flatMap fun i =>
      let w := le b (at_ 1 + 8 * i) 8
      need (bits w 41 23 == 0 && (!bit w 40 || decide (bits w 32 8 < n))) (at_ 1 + 8 * i)) ++
    ((List.range x).flatMap fun i => need (bits (le b (at_ 2 + 4 * i) 4) 25 7 == 0) (at_ 2 + 4 * i)) ++
    ((List.range 256).flatMap fun i => need (decide (le b (at_ 3 + i) 1 < kp)) (at_ 3 + i)) ++
    ((List.range kp).flatMap fun i =>
      let p := at_ 4 + 24 * i
      need ((slice b p 22).all srcOk) p ++ need (decide (le b (p + 22) 1 < 2)) (p + 22) ++ need (zeroAt b (p + 23) 1) (p + 23)) ++
    ((List.range fp).flatMap fun i =>
      let p := at_ 5 + 12 * i
      need ((slice b p 9).all srcOk) p ++ need (decide (le b (p + 9) 1 < 2)) (p + 9) ++ need (zeroAt b (p + 10) 2) (p + 10)) ++
    pad (at_ 0) (32 * n) (at_ 1) ++ pad (at_ 1) (8 * e) (at_ 2) ++ pad (at_ 2) (4 * x) (at_ 3) ++ pad (at_ 4) (24 * kp) (at_ 5) ++
    pad (at_ 5) (12 * fp) (at_ 6))

/-- Checks a PARSE section; `staged` are pipes whose inactive bank an earlier item of the graft has written (R68). -/
def parseCheck (b : Bytes) (staged : Nat) : Option (Nat × Nat) :=
  let bl := parseBlocks b
  let pipes := bl.map fun o => le b o 1
  firstOf [
    format (need (decide (1 ≤ le b 0 1 ∧ le b 0 1 ≤ 8)) 0 ++ need (zeroAt b 1 63) 1 ++
      ((List.range bl.length).flatMap fun i =>
        need ((pipes.take i).all fun q => (q &&& pipes.getD i 0) == 0) (bl.getD i 0) ++ blockFails b (bl.getD i 0))),
    if pipes.any fun q => (q &&& staged) != 0 then some (0x12, 0) else none]

/-- The pipes that a PARSE section covers. -/
def parsePipes (b : Bytes) : Nat := (parseBlocks b).foldl (fun a o => a ||| le b o 1) 0

/-- The graph of a block at `o`. -/
def graphAt (b : Bytes) (o : Nat) : Graph :=
  let at_ := fun i => (blockAts b o).getD i 0
  { nodes := tab (le b (o + 2) 2) fun i => nodeOfWord (le b (at_ 0 + 32 * i) 32)
    edges := tab (le b (o + 4) 2) fun i => edgeOfWord (le b (at_ 1 + 8 * i) 8)
    exts := tab (le b (o + 6) 2) fun i => extOfWord (le b (at_ 2 + 4 * i) 4)
    kmap := tab 256 fun i => le b (at_ 3 + i) 1
    kprofs := tab (le b (o + 8) 1) fun i =>
      let p := at_ 4 + 24 * i
      ⟨(slice b p 18).map (·.toNat), (slice b (p + 18) 4).map (·.toNat), le b (p + 22) 1 == 1⟩
    fprofs := tab (le b (o + 9) 1) fun i => ⟨(slice b (at_ 5 + 12 * i) 9).map (·.toNat), bit (le b (at_ 5 + 12 * i + 9) 1) 0⟩
    startHdr := le b (o + 44) 1, startKey := le b (o + 45) 1 }

/-- Changes the epoch in front. -/
def modCur (d : Dev) (f : EpochCfg → EpochCfg) : Dev :=
  match d.epochs with
  | e :: r => { d with epochs := { e with cfg := f e.cfg } :: r }
  | [] => d

/-- A register field that belongs to the epoch: the epoch's copy and the register (R294, R468). -/
def wrEp (d : Dev) (f : Fld) (v : Nat) : Dev :=
  modCur (wr d f v) fun c => { c with regs := set c.regs f.key (v % 2 ^ f.w) }

/-- Installs the graphs, profiles and start nodes of a PARSE section (R468); the banks of its pipes swap (R68). -/
def parseApply (d : Dev) (b : Bytes) : Dev :=
  each (parseBlocks b) (wr d Reg.prsGraphStatBank (rd d Reg.prsGraphStatBank ^^^ parsePipes b)) fun d o =>
    let pipes := le b o 1
    let g := graphAt b o
    let d := modCur d fun c => { c with graphs := tab 8 fun p => if bit pipes p then g else c.graphs.getD p default }
    let d := each ((List.range 8).filter (bit pipes)) d fun d p =>
      wrEp (wrEp d (Reg.prsStartStemPHeaderNode p) g.startHdr) (Reg.prsStartStemPKeyNode p) g.startKey
    each d.prt.pipeOf d fun d q =>
      if bit pipes q.2 then wrEp d (Reg.prsStartPortNode q.1) (le b (o + 12 + q.1) 1) else d

/-! ### RULES -/

/-- Where the arrays of a RULES section begin: TCAM additions, exact-match additions, TCAM and exact-match deletions, miss records,
and the end (R469). -/
def ruleAts (b : Bytes) : List Nat :=
  let up := fun (n : Nat) => 64 * cdiv n 64
  let a := 64 + up (192 * le b 4 4)
  let c := a + up (48 * le b 8 4)
  let t := c + up (4 * le b 12 4)
  let m := t + up (32 * le b 16 4)
  [64, a, c, t, m, m + 16 * popcount 8 (le b 1 1)]

/-- The TCAM and exact-match additions: index or pipe with key, and the entry without its epochs. -/
def tcamAdds (b : Bytes) : List (Nat × RuleEnt) :=
  tab (le b 4 4) fun i =>
    let p := 64 + 192 * i
    (le b p 4, { value := le b (p + 16) 80, mask := le b (p + 96) 80, pipe := 0, res := le b (p + 176) 16, epochs := 0 })
def emAdds (b : Bytes) : List RuleEnt :=
  tab (le b 8 4) fun i =>
    let p := (ruleAts b).getD 1 0 + 48 * i
    { value := le b p 16, mask := 0, pipe := le b (p + 16) 1, res := le b (p + 32) 16, epochs := 0 }

/-- The same entry but for its epochs. -/
def sameRule (x y : RuleEnt) : Bool := { x with epochs := 0 } == { y with epochs := 0 }

/-- The bit of the new epoch in rule masks (R83). -/
def newBit (d : Dev) : Nat := 2 ^ (curNum d % 4)
/-- The entry belongs to the new epoch. -/
def inNew (d : Dev) (e : RuleEnt) : Bool := (e.epochs &&& newBit d) != 0
def clearNew (d : Dev) (e : RuleEnt) : RuleEnt := if inNew d e then { e with epochs := e.epochs - newBit d } else e
def live (m : Map RuleEnt) : Map RuleEnt := m.filter fun p => p.2.epochs != 0

/-- The tables with the removals of a section (R469): the new epoch's bit leaves the entries removed. In REPLACE an entry that an
addition repeats exactly stays. -/
def ruleRemoved (d : Dev) (b : Bytes) : Map RuleEnt × Map RuleEnt :=
  let dt := tab (le b 12 4) fun i => le b ((ruleAts b).getD 2 0 + 4 * i) 4
  let de := tab (le b 16 4) fun i =>
    let p := (ruleAts b).getD 3 0 + 32 * i
    (le b p 16, le b (p + 16) 1)
  let rep := le b 0 1 == 0
  let ta := tcamAdds b
  let ea := emAdds b
  (d.tcam.map fun p => (p.1, if (if rep then !(ta.any fun a => a.1 == p.1 && sameRule a.2 p.2) else dt.contains p.1)
      then clearNew d p.2 else p.2),
   d.em.map fun p => (p.1, if (if rep then !(ea.any fun a => sameRule a p.2) else de.contains (p.2.value, p.2.pipe))
      then clearNew d p.2 else p.2))

/-- The additions that a REPLACE does not find in place already. -/
def tcamNew (d : Dev) (b : Bytes) : List (Nat × RuleEnt) :=
  if le b 0 1 = 0 then (tcamAdds b).filter fun a => !(match find? d.tcam a.1 with
    | some e => inNew d e && sameRule e a.2
    | none => false)
  else tcamAdds b
def emNew (d : Dev) (b : Bytes) : List RuleEnt :=
  if le b 0 1 = 0 then (emAdds b).filter fun a => !(d.em.any fun p => inNew d p.2 && sameRule p.2 a) else emAdds b

/-- New TCAM entries that cannot be placed: at an index that a live epoch, or an earlier addition, holds; the free entries do not suffice for
more (R83, R469). -/
def tcamShort (d : Dev) (b : Bytes) : Nat :=
  let new := tcamNew d b
  ((List.range new.length).filter fun i =>
    let a := new.getD i (0, default)
    (find? d.tcam a.1).isSome || (new.take i).any fun q => q.1 == a.1).length
/-- New exact-match entries beyond the free ones (R83). -/
def emShort (d : Dev) (b : Bytes) : Nat := (live d.em).length + (emNew d b).length - 262144

/-- Checks a RULES section (R469). -/
def rulesCheck (d : Dev) (b : Bytes) : Option (Nat × Nat) :=
  let at_ := fun i => (ruleAts b).getD i 0
  let rm := ruleRemoved d b
  let ta := tcamAdds b
  let ea := emAdds b
  let pad := fun (a m z : Nat) => need (zeroAt b (a + m) (z - a - m)) (a + m)
  firstOf [
    format (need (decide (le b 0 1 < 2)) 0 ++ need (zeroAt b 2 2) 2 ++
      need (decide (le b 4 4 ≤ 65536 ∧ le b 8 4 ≤ 262144 ∧ le b 12 4 ≤ 65536 ∧ le b 16 4 ≤ 262144 ∧ at_ 5 ≤ b.length)) 4 ++
      need (zeroAt b 20 44) 20),
    format (
      ((List.range ta.length).flatMap fun i =>
        let p := at_ 0 + 192 * i
        need (decide (le b p 4 < 65536)) p ++ need (zeroAt b (p + 4) 12) (p + 4) ++ need (le b (p + 176) 16 / 2 ^ 89 == 0) (p + 176)) ++
      ((List.range ea.length).flatMap fun i =>
        let p := at_ 1 + 48 * i
        let a := ea.getD i default
        need (!(rm.2.any fun q => inNew d q.2 && q.2.value == a.value && q.2.pipe == a.pipe &&
            !(le b 0 1 == 0 && sameRule q.2 a)) &&
          !((ea.take i).any fun q => q.value == a.value && q.pipe == a.pipe)) p ++
        need (decide (a.pipe < 8)) (p + 16) ++ need (zeroAt b (p + 17) 15) (p + 17) ++ need (a.res / 2 ^ 89 == 0) (p + 32)) ++
      ((List.range (le b 12 4)).flatMap fun i =>
        let p := at_ 2 + 4 * i
        need (match find? d.tcam (le b p 4) with | some e => inNew d e | none => false) p) ++
      ((List.range (le b 16 4)).flatMap fun i =>
        let p := at_ 3 + 32 * i
        need (d.em.any fun q => inNew d q.2 && q.2.value == le b p 16 && q.2.pipe == le b (p + 16) 1) p ++
        need (zeroAt b (p + 17) 15) (p + 17)) ++
      ((List.range (popcount 8 (le b 1 1))).flatMap fun i => need (le b (at_ 4 + 16 * i) 16 / 2 ^ 89 == 0) (at_ 4 + 16 * i)) ++
      pad (at_ 0) (192 * ta.length) (at_ 1) ++ pad (at_ 1) (48 * ea.length) (at_ 2) ++ pad (at_ 2) (4 * le b 12 4) (at_ 3) ++
      pad (at_ 3) (32 * le b 16 4) (at_ 4)),
    if tcamShort d b = 0 ∧ emShort d b = 0 then none else some (0x10, 0)]

/-- The miss records of a section by pipe. -/
def missOf (b : Bytes) (p : Nat) : Option Nat :=
  if bit (le b 1 1) p then some (le b ((ruleAts b).getD 4 0 + 16 * popcount p (le b 1 1)) 16) else none

/-- Adds an exact-match entry at the lowest free number. -/
def emInsert (m : Map RuleEnt) (e : RuleEnt) : Map RuleEnt :=
  match lowest 262144 fun k => (find? m k).isNone with
  | some k => set m k e
  | none => m

/-- Installs a RULES section in the epoch in front (R83, R469). -/
def rulesApply (d : Dev) (b : Bytes) : Dev :=
  let rm := ruleRemoved d b
  let bit' := newBit d
  let d' := modCur { d with
      tcam := (tcamNew d b).foldl (fun m a => set m a.1 { a.2 with epochs := bit' }) (live rm.1)
      em := (emNew d b).foldl (fun m a => emInsert m { a with epochs := bit' }) (live rm.2) } fun c =>
    { c with miss := tab 8 fun p => (missOf b p).getD (c.miss.getD p 0) }
  d'

/-- The pipes in which a rule can match on a first pass (R85). -/
def firstPassPipes (tcam : Bool) (e : RuleEnt) : List Nat :=
  if !tcam then [e.pipe] else
  if (bits e.mask 8 2 &&& bits e.value 8 2) != 0 then []
  else (List.range 8).filter fun p => ((p ^^^ bits e.value 24 3) &&& bits e.mask 24 3) == 0

/-- Every rule of the new epoch with INFER = 1 names a slot that is active where the rule can match on a first pass (R85). -/
def rulesSound (d : Dev) : Bool :=
  let act := fun (res : Nat) (ps : List Nat) => !bit res 8 || ps.all fun p => bit (getD (curCfg d).active (bits res 0 8) 0) p
  (d.tcam.all fun p => !inNew d p.2 || act p.2.res (firstPassPipes true p.2)) &&
  (d.em.all fun p => !inNew d p.2 || act p.2.res (firstPassPipes false p.2)) &&
  (List.range 8).all fun p => act ((curCfg d).miss.getD p 0) [p]

/-! ### WINDOWS -/

/-- A descriptor from its 32 bytes (R125). -/
def descAt (b : Bytes) (o : Nat) : WinDesc :=
  { base := le b o 8, cells := le b (o + 8) 4, kind := le b (o + 12) 1, agg := le b (o + 13) 1, b := le b (o + 14) 1
    hl := le b (o + 15) 1, w := le b (o + 16) 8, key := le b (o + 24) 1, tenant := le b (o + 25) 1 }

/-- A descriptor at `o` obeys R125; `n` is BUCKET_LOG2. -/
def descFails (b : Bytes) (o n : Nat) : List Nat :=
  let w := descAt b o
  need (w.base % 64 == 0) o ++ need (decide (1 ≤ w.cells ∧ w.cells ≤ 2 ^ 27) && (w.key != 0 || w.cells == entries n)) (o + 8) ++
  need (w.kind ≤ 2) (o + 12) ++ need (decide (w.agg ≤ if w.kind = 2 then 1 else 3)) (o + 13) ++
  need (w.kind != 1 || decide (2 ≤ w.b ∧ w.b ≤ 14)) (o + 14) ++ need (w.kind != 2 || decide (4 ≤ w.hl ∧ w.hl ≤ 40)) (o + 15) ++
  need (w.kind == 2 || (decide (1000 ≤ w.w ∧ w.w ≤ 2 ^ 40) && (w.kind != 1 || w.b == 0 || w.w % w.b == 0))) (o + 16) ++
  need (w.key ≤ 2) (o + 24) ++ need (decide (w.tenant < 64)) (o + 25) ++ need (zeroAt b (o + 26) 6) (o + 26)

/-- Entries of a WINDOWS section: index, offset of the descriptor, whether it removes (R470). -/
def winEntries (b : Bytes) : List (Nat × Nat × Bool) :=
  tab (min (le b 0 2) 256) fun i =>
    let o := 64 + 48 * i
    (le b o 1, o + 16, zeroAt b (o + 16) 32)

/-- The entries that change something: the descriptor is new, or differs. -/
def winChanged (d : Dev) (b : Bytes) : List (Nat × WinDesc) :=
  (winEntries b).filterMap fun e =>
    if e.2.2 ∨ find? (curCfg d).descs e.1 = some (descAt b e.2.1) then none else some (e.1, descAt b e.2.1)

/-- The descriptors with the section's entries applied. -/
def winDescs (m : Map WinDesc) (b : Bytes) : Map WinDesc :=
  (winEntries b).foldl (fun m e => if e.2.2 then del m e.1 else set m e.1 (descAt b e.2.1)) m

/-- The descriptor indices that WIN instructions of a program name. -/
def winUses (m : Model) : List Nat :=
  ((m.progFirst.pre ++ m.progFirst.post).filter fun w => Fea.op w == 6).map fun w => bits w 32 8

/-- A model of an owner finds every descriptor that it names (R120, R136). -/
def winsFound (descs : Map WinDesc) (tenant : Nat) (m : Model) : Bool :=
  (winUses m).all fun i => match find? descs i with | some w => w.tenant == tenant | none => false

/-- Bytes of window cells that no live descriptor holds (`FEA_WIN_FREE`). -/
def winFree (size : Nat) (used : List (Nat × Nat)) : Nat := size - (used.map (·.2)).sum

/-- The cells of the descriptors that a section makes new or changes: address and size in bytes. -/
def newCells (d : Dev) (b : Bytes) (base : Nat) : List (Nat × Nat) :=
  (winChanged d b).map fun p => (base + p.2.base, p.2.cells * Window.cellSize p.2)
/-- The bytes that they need (R136). -/
def winNeed (d : Dev) (b : Bytes) : Nat := ((newCells d b 0).map (·.2)).sum

/-- No tenant owns more than 8 KEY = 0 descriptors (R135). -/
def winsFew (descs : Map WinDesc) : Bool :=
  (List.range 64).all fun t => decide ((descs.filter fun p => p.2.key == 0 && p.2.tenant == t).length ≤ 8)

/-- Checks a WINDOWS section against the region at `base` of `size` bytes, with the cells in use (R136, R470). -/
def winsCheck (d : Dev) (b : Bytes) (n base size : Nat) (used : List (Nat × Nat)) : Option (Nat × Nat) :=
  let es := winEntries b
  let new := newCells d b base
  firstOf [
    format (need (decide (le b 0 2 ≤ 256 ∧ 64 + 48 * le b 0 2 ≤ b.length)) 0 ++ need (zeroAt b 2 62) 2 ++
      (List.range es.length).flatMap fun i =>
        let e := es.getD i (0, 0, false)
        need ((es.take i).all fun q => q.1 != e.1) (e.2.1 - 16) ++ need (zeroAt b (e.2.1 - 15) 15) (e.2.1 - 15) ++
        (if e.2.2 then [] else descFails b e.2.1 n)),
    if winsFew (winDescs (curCfg d).descs b) &&
        (curCfg d).models.all fun p => winsFound (winDescs (curCfg d).descs b) (slotTenant d p.1) p.2 then none else some (0x21, 64),
    if winFree size used < winNeed d b then some (0x10, 0) else none,
    if (List.range new.length).any fun i =>
        let x := new.getD i (0, 0)
        decide (base + size < x.1 + x.2) || ((used ++ new.take i).any fun q => decide (x.1 < q.1 + q.2 ∧ q.1 < x.1 + x.2))
      then some (0x14, 0) else none]

/-- Sets the cells of a descriptor empty (R136). -/
def emptyCells (d : Dev) (w : WinDesc) : Dev :=
  let n := Window.cellSize w
  let c := Window.emptyCell w
  if c.all (· == 0) then memClear d (cellAddr d w 0) (w.cells * n)
  else each (List.range w.cells) d fun d i => memStore d (cellAddr d w i) c

/-- Installs a WINDOWS section (R136, R470). -/
def winsApply (d : Dev) (b : Bytes) : Dev :=
  let new := winChanged d b
  modCur (each new d fun d p => emptyCells d p.2) fun c => { c with descs := winDescs c.descs b }

/-! ### KEYS -/

/-- Where the entries of a KEYS section begin (R462). -/
def keyAts (b : Bytes) : Nat → Nat → List Nat
  | 0, _ => []
  | n + 1, o => o :: keyAts b n (o + 64 * cdiv (128 + le b (o + 2) 2) 64)
def keysAt (b : Bytes) : List Nat := keyAts b (min (le b 0 2) 72) 16

def keysOf (b : Bytes) : List VerKey := (keysAt b).map fun o => ⟨le b o 1, le b (o + 1) 1, slice b (o + 4) 97⟩

/-- Checks a KEYS section (R462). -/
def keysCheck (d : Dev) (b : Bytes) : Option (Nat × Nat) :=
  let at_ := keysAt b
  let ks := keysOf b
  let many := fun (p : Nat) => (ks.filter (·.purpose == p)).length
  format (need (decide (le b 0 2 ≤ 72) && decide (many 1 ≤ 4 ∧ many 2 ≤ 4)) 0 ++ need (zeroAt b 2 14) 2 ++
    (List.range at_.length).flatMap fun i =>
      let o := at_.getD i 0
      let k := ks.getD i default
      let cl := le b (o + 2) 2
      let model := k.purpose == 3
      need (decide (1 ≤ k.purpose ∧ k.purpose ≤ 3) && (!model || (ks.take i).all fun q => !(q.purpose == 3 && q.tenant == k.tenant))) o ++
      need (if model then decide (k.tenant < 64) else k.tenant == 0) (o + 1) ++
      need ((if model then cl == 0 else decide (1 ≤ cl ∧ cl ≤ 8192)) && decide (o + 128 + cl ≤ b.length)) (o + 2) ++
      need (byteAt b (o + 4) == 4) (o + 4) ++ need (zeroAt b (o + 101) 27) (o + 101) ++
      (if model then [] else need (chain d (slice b (o + 128) cl) == some (k.key, 0)) (o + 128)) ++
      need (zeroAt b (o + 128 + cl) (64 * cdiv (128 + cl) 64 - 128 - cl)) (o + 128 + cl))

/-! ### DEVICE -/

/-- Ports of a port mode (R37). -/
def modePorts (m : Nat) : Nat := [8, 16, 32, 0].getD m 0

/-- The failing fields of a DEVICE section (R14, R65, R119, R466). -/
def deviceFails (b : Bytes) : List Nat :=
  let mode := le b 0 1
  let f := fun (o : Nat) (ok : Bool) => need ok o
  need (b.length == 256) 0 ++ f 0 (mode ≤ 2) ++ f 2 (decide (le b 2 1 < 2)) ++ f 4 (bit (le b 4 4) 15 && decide (le b 4 4 < 2 ^ 24)) ++
  f 16 (decide (le b 16 2 < 1024)) ++ f 18 (decide (le b 18 2 < 1024)) ++ f 20 (decide (le b 20 2 < 1024)) ++
  f 22 (decide (20 ≤ le b 22 1 ∧ le b 22 1 ≤ 100)) ++
  ((List.range 8).flatMap fun p =>
    let start := le b (72 + 4 * p) 2
    let stop := le b (74 + 4 * p) 2
    let len := le b (104 + 2 * p) 2
    f (24 + p) (le b (24 + p) 1 != 1) ++ f (32 + p) (decide (le b (32 + p) 1 ≤ 192)) ++
    f (72 + 4 * p) (decide (start < stop)) ++ f (74 + 4 * p) (decide (stop < 1600)) ++
    f (104 + 2 * p) (le b (24 + p) 1 == 0 || decide (1 ≤ len ∧ len < 800))) ++
  ((List.range 32).flatMap fun n =>
    let x := le b (40 + n) 1
    f (40 + n) (if mode = 0 ∧ n < 8 then x == n else (decide (x < 8) && decide (n < modePorts mode)) || x == 0xFF)) ++
  ((List.range 3).flatMap fun k => f (120 + k) (decide (le b (120 + k) 1 < 16))) ++ f 123 (zeroAt b 123 1) ++
  f 127 (le b 127 1 == 0) ++ f 130 (decide (le b 130 2 + le b 132 2 ≤ 4096)) ++ f 132 (decide (le b 132 2 ≤ 64)) ++
  f 134 (zeroAt b 134 122)

/-- The fields that a graft may change (R467): byte offset and length. -/
def deviceFree : List (Nat × Nat) := [(8, 8), (22, 1), (23, 1), (120, 3)]

/-- Writes the fields of a DEVICE section that a graft may change: SEED, WIN_MIN, STEER_PIPES, DVFS (R466, R467). -/
def deviceSoft (d : Dev) (b : Bytes) : Dev :=
  let d := wr64 d Reg.flwSeedLoSeed Reg.flwSeedHiSeed (le b 8 8)
  let d := wrs d [(Reg.stmWinMinMin, le b 22 1), (Reg.trlCfgSteerPipes, le b 23 1)]
  each (List.range 3) d fun d k =>
    wrs d [(Reg.clkDvfsCfgMode k, bits (le b (120 + k) 1) 0 1), (Reg.clkDvfsCfgFloor k, bits (le b (120 + k) 1) 1 3)]

/-- Owner code of a DMA channel that SPR owns (R344). -/
def sprOwner : Nat := 64

/-- Installs a whole DEVICE section at the base load (R466, R477). -/
def deviceInstall (d : Dev) (b : Bytes) : Dev :=
  let d := deviceSoft { d with
    cfg := { d.cfg with device := b }
    clp := { d.clp with ownMask := le b 128 2 }
    prt := { d.prt with pipeOf := (List.range 32).filterMap fun n => if le b (40 + n) 1 = 0xFF then none else some (n, le b (40 + n) 1) } } b
  let d := wrs d [(Reg.prtModeMode, le b 0 1), (Reg.stmPipesMask, le b 1 1), (Reg.clpCfgMode, le b 2 1), (Reg.trlCfgGroup, le b 3 1),
    (Reg.flwOrderCfgHorizon, le b 16 2), (Reg.feaWinCfgOffset, le b 18 2), (Reg.mxtTurnCfgOffset, le b 20 2),
    (Reg.clpOwnMask, le b 128 2),
    -- the role of R386: STANDBY is the secondary of an active/standby pair, every other device ACTIVE
    (Reg.clpStatRole, if le b 2 1 = 0 ∧ d.straps.pairRole = true then 2 else 1)]
  let d := each (List.range 8) d fun d p =>
    let l := [Reg.trlRouteLink0, Reg.trlRouteLink1, Reg.trlRouteLink2, Reg.trlRouteLink3, Reg.trlRouteLink4, Reg.trlRouteLink5,
      Reg.trlRouteLink6, Reg.trlRouteLink7].getD p Reg.trlRouteLink0
    wrs d [(Reg.feaPipeCfgPostLen p, le b (32 + p) 1), (Reg.cfgInfStart p, le b (72 + 4 * p) 2), (Reg.cfgInfEnd p, le b (74 + 4 * p) 2),
      (Reg.cfgInfLaterLen p, le b (104 + 2 * p) 2), (l, bits (le b 124 4) (2 * p) 2)]
  let d := wr d Reg.trlRouteValid (bits (le b 124 4) 16 8)
  each (List.range (le b 132 2)) d fun d i => wr d (Reg.dmaChOwnerOwner (le b 130 2 + i)) sprOwner

/-- Every reservation of a live epoch passes at the floors of `d` (R22, R217, R254, R415). -/
def reservationsPass (d : Dev) : Bool :=
  let fits := fun (kind u : Nat) => !unitUp d kind u || decide (rateHeld d kind u ≤ rateCap d kind u)
  ((reservations d).all fun r => (latShorts d r.1 r.2).isEmpty) && (List.range 512).all (fits 1) && (List.range 32).all (fits 2)

/-- Every slot that is active in the new epoch passes R252 and R254 (R467). -/
def activesPass (d : Dev) : Bool :=
  (curCfg d).models.all fun p => p.2.flowKind ||
    ((List.range 8).filter fun k => bit (getD (curCfg d).active p.1 0) k).all fun k => (latShorts d p.2 k).isEmpty

/-- Checks a DEVICE section of a graft (R415, R466, R467). -/
def deviceCheck (d : Dev) (b : Bytes) : Option (Nat × Nat) :=
  let free := fun i => deviceFree.any fun p => decide (p.1 ≤ i ∧ i < p.1 + p.2)
  let n := deviceSoft d b
  let lower := (List.range 3).any fun k => decide (floorPoint n k < floorPoint d k)
  let winMin := le b 22 1
  firstOf [format (deviceFails b),
    format ((List.range 256).flatMap fun i => need (free i || byteAt b i == byteAt d.cfg.device i) i),
    if rd d Reg.stmWinMinMin < winMin ∧ rd d Reg.stmWinCfgWindow < winMin then some (0x11, 22) else none,
    if lower ∧ !reservationsPass n then some (0x11, 120) else none,
    if (winMin ≠ rd d Reg.stmWinMinMin ∨ le b 23 1 ≠ rd d Reg.trlCfgSteerPipes) ∧ !activesPass n then some (0x11, 22) else none]

/-- Installs a DEVICE section at the boundary of a graft (R415, R467). -/
def deviceApply (d : Dev) (b : Bytes) : Dev :=
  let seed := rd64 d Reg.flwSeedLoSeed Reg.flwSeedHiSeed
  let was := (List.range 3).map fun k => rd d (Reg.clkDvfsCfgMode k)
  let d := deviceSoft { d with cfg := { d.cfg with device := b } } b
  let d := each (List.range 3) d fun d k =>
    if was.getD k 0 = rd d (Reg.clkDvfsCfgMode k) then d
    else wrs d [(Reg.clkDvfsStatPoint k, 7), (Reg.clkDvfsCtlTarget k, 7), (Reg.clkDvfsStatBusy k, 0)]
  if le b 8 8 = seed then d else startTable d

/-- The point that a DVFS domain must have reached before the section commits (R415); 0 = none. -/
def devicePoint (d : Dev) (b : Bytes) (k : Nat) : Nat :=
  let x := le b (120 + k) 1
  if !rdB d (Reg.clkDvfsCfgMode k) then 0 else if !bit x 0 then 7 else bits x 1 3

end Sys2Proof.Machine.Img
end

