-- ==== Sys2Proof/Machine/Flags.lean ====
section
/-!
DEFINITION. Flags.lean: what a read of a register returns and what a write leaves, by the access codes of R5, the enumerations
of R9, and the status fields that the device computes from its state.
-/
namespace Sys2Proof.Machine.Ops

/-- Two bits for each of the gates or domains `lo` to `lo + n - 1`. -/
def packGates (f : Nat → GateSt) (lo n : Nat) : Nat := ((List.range n).map fun i => gateCode (f (lo + i)) * 4 ^ i).sum

/-- The device coordinates group grafts (R283, R386, R393). In a pair in active/active mode that is the PAIR_ROLE 0 device while it is
in service, and the other one otherwise: the survivor of a pair coordinates. -/
def isCoord (d : Dev) : Bool :=
  if inGroup d then isMaster d && (!paired d || !d.straps.pairRole)
  else if rd d Reg.clpStatState = 0 then false
  else if rdB d Reg.clpCfgMode then !paired d || !d.straps.pairRole
  else rd d Reg.clpStatRole == 1

/-- The physical unit of a pool that failed most recently; `no` where none has. -/
def lastFail (d : Dev) (pool no : Nat) : Nat :=
  match d.flt.failed.find? fun k => k / 128 == pool with | some k => k % 128 | none => no

/-- A spare as the engine and tile maps show it: its number while it serves no logical unit and has not failed, else 63. -/
def spareMap (d : Dev) (pool n : Nat) : Nat := if unitFailed d pool n || (logicalOf d pool n).isSome then 63 else n

/-- The 32 bytes of a window descriptor (R125). -/
def descBytes (w : WinDesc) : Bytes :=
  leBytes 8 w.base ++ leBytes 4 w.cells ++ leBytes 1 w.kind ++ leBytes 1 w.agg ++ leBytes 1 w.b ++ leBytes 1 w.hl ++
  leBytes 8 w.w ++ leBytes 1 w.key ++ leBytes 1 w.tenant ++ zeros 6

/-- The 16 bytes of entry `k` of the layout in force (R319). -/
def regionBytes (d : Dev) (k : Nat) : Bytes :=
  match (layout? d).bind fun l => l.regions[k]? with
  | some r => leBytes 1 r.id ++ zeros 3 ++ leBytes 4 r.size ++ leBytes 8 r.base
  | none => zeros 16

/-- Pipes whose inactive bank holds a staged graph (R68). -/
def stagedPipes (d : Dev) : Nat :=
  match d.grf.cur with
  | none => 0
  | some g => if g.fail.isSome then 0 else
      g.items.foldl (fun a i => match i with | .sect 3 b _ => a ||| Img.parsePipes b | _ => a) 0

/-- The lowest-numbered LOOKASIDE pipe, or pipe 0 (R69). -/
def stemPipe (d : Dev) : Nat := (lowest 8 fun p => bit (rd d Reg.stmPipesMask) p).getD 0

/-- Epoch CURRENT - `k` is live. -/
def liveAt (d : Dev) (k : Nat) : Bool := loaded d && (epoch? d ((curNum d + 256 - k) % 256)).isSome

/-- A shadow of a field is set: the `_ARMED` bit of its channel (R286). -/
def armed (d : Dev) (fs : List Fld) : Nat := b2n (fs.any fun f => (find? d.shadow f.key).isSome)

/-- The RWS fields that belong to slot `s` at VRD (R294, R296). -/
def vrdFlds (s : Nat) : List Fld :=
  [Reg.vrdSlotCfgCacheMode s, Reg.vrdSlotCfgMirror s] ++ (List.range 16).flatMap fun c =>
    [Reg.vrdMapW0Thresh s c, Reg.vrdMapW0ActHi s c, Reg.vrdMapW0ActLo s c, Reg.vrdMapW0Compat s c,
     Reg.vrdMapW0KeepClass s c, Reg.vrdMapW0KeepColour s c, Reg.vrdMapW0KeepQueue s c, Reg.vrdMapW1Class s c,
     Reg.vrdMapW1Colour s c, Reg.vrdMapW1Queue s c, Reg.vrdMapW2NextSlot s c, Reg.vrdMapW2NextEn s c]

/-- The arbitration fields of a channel (R362). -/
def schedOf (c : Nat) : List Fld :=
  [Reg.dmaChSchedPrio c, Reg.dmaChSchedWeight c, Reg.dmaChSchedBurst c, Reg.dmaChSchedUrgent c]

/-- Fields of CFG and GRF that the device computes: (lowest bit, value) at the register of PF BAR0 address `a`. -/
def viewCfg (d : Dev) (a : Nat) : List (Nat × Nat) :=
  if a = 0x200000 then [(2, b2n d.straps.bootHost)]
  else if 0x204000 ≤ a ∧ a < 0x204400 then
    let s := (a - 0x204000) / 4
    let m := find? (curCfg d).models s
    [(7, slotState d s), (9, match m with | some m => b2n m.flowKind | none => 0), (10, getD (curCfg d).active s 0),
     (18, match m with | some m => if m.flowKind then m.host else 0xFF | none => 0xFF)]
  else if 0x204400 ≤ a ∧ a < 0x204800 then
    [(0, match find? (curCfg d).models ((a - 0x204400) / 4) with | some m => m.modelId | none => 0)]
  else if 0x204800 ≤ a ∧ a < 0x204C00 then
    [(0, match find? (curCfg d).models ((a - 0x204800) / 4) with | some m => m.version | none => 0)]
  else if 0x204C00 ≤ a ∧ a < 0x204D00 then
    let t := (a - 0x204C00) / 4
    [(11, ((List.range 256).filter fun s => rdB d (Reg.cfgSlotAssigned s) && rd d (Reg.cfgSlotOwner s) == t).length)]
  else if a = 0x205C10 then [(0, d.runQueue.length)]
  else if a = 0x300000 then
    [(0, curNum d), (8, ((List.range 4).map fun k => b2n (liveAt d k) * 2 ^ k).sum), (12, b2n (loaded d))]
  else if 0x300010 ≤ a ∧ a < 0x300020 then
    let k := (a - 0x300010) / 4
    if liveAt d k then [(0, pins d ((curNum d + 256 - k) % 256)), (19, if k = 0 then 1 else 2)] else [(0, 0), (19, 0)]
  else if a = 0x30002C then [(0, b2n (isCoord d))]
  else []

/-- Fields of TOP, CLK/PWR, PRT, STM, PRS, FLW, FEA, QNT, ESP, MXT and SPR that the device computes. -/
def viewPath (d : Dev) (a : Nat) : List (Nat × Nat) :=
  if a = 0x100204 then [(0, packGates (dom d) 0 14)]
  else if a = 0x100800 then [(0, now64 d % 2 ^ 32)]
  else if a = 0x100804 then [(0, now64 d / 2 ^ 32)]
  else if a = 0x100818 then [(0, uns 32 (d.tb.slew.tdiv (2 ^ 32)))]
  else if 0x400180 ≤ a ∧ a < 0x400200 then
    let n := (a - 0x400180) / 4
    [(3, b2n ((d.tmg.xoffCtx || d.tmg.xoffCell) && (pausingPorts d).contains n))]
  else if a = 0x500010 then [(7, armed d [Reg.stmWinCfgWindow])]
  else if a = 0x600080 then
    [(0, rd d (Reg.prsStartStemPHeaderNode (stemPipe d))), (8, rd d (Reg.prsStartStemPKeyNode (stemPipe d)))]
  else if a = 0x600084 then [(8, stagedPipes d)]
  else if a = 0x600100 then [(0, 65536 - d.tcam.length)]
  else if a = 0x600104 then [(0, 262144 - d.em.length)]
  else if 0x700800 ≤ a ∧ a < 0x700900 then [(0, tenantCount d ((a - 0x700800) / 4))]
  else if 0x800080 ≤ a ∧ a < 0x8000A0 then [(0, wordsFree d ((a - 0x800080) / 4))]
  else if a = 0x8000C0 then [(0, 256 - ((d.epochs.flatMap fun e => e.cfg.descs.map (·.1)).eraseDups).length)]
  else if a = 0x8000D0 then [(0, (region d 8).2 / 64 - (((Img.liveCells d).map (·.2)).sum + 63) / 64)]
  else if 0x804000 ≤ a ∧ a < 0x806000 then
    [(0, match find? (curCfg d).descs ((a - 0x804000) / 32) with | some w => le (descBytes w) (a % 32) 4 | none => 0)]
  else if 0x900100 ≤ a ∧ a < 0x900120 then [(0, recordsFree d ((a - 0x900100) / 4))]
  else if 0xA00000 ≤ a ∧ a < 0xA00040 then
    let p := 1 + (a - 0xA00000) / 4
    [(0, spareMap d p 32), (6, lastFail d p 63)]
  else if 0xA00040 ≤ a ∧ a < 0xA00080 then
    [(0, ((List.range 32).map fun i => memFree d 1 (32 * ((a - 0xA00040) / 4) + i)).sum)]
  else if 0xA00080 ≤ a ∧ a < 0xA000C0 then [(0, rateFree d 3 ((a - 0xA00080) / 4))]
  else if a = 0xA00104 then [(0, lpsOutstanding d)]
  else if a = 0xB00000 then
    [(0, spareMap d 0 32), (6, spareMap d 0 33), (12, lastFail d 0 63)]
  else if 0xB00040 ≤ a ∧ a < 0xB000C0 then [(0, memFree d 2 ((a - 0xB00040) / 4))]
  else if 0xB000C0 ≤ a ∧ a < 0xB00140 then [(0, if loaded d then rateFree d 2 ((a - 0xB000C0) / 4) else 0)]
  else if 0xB00180 ≤ a ∧ a < 0xB001A0 then [(0, memFree d 4 ((a - 0xB00180) / 4))]
  else if 0xC02008 ≤ a ∧ a < 0xC02400 ∧ a % 16 ≥ 8 then
    let x := (core d ((a - 0xC02000) / 16)).c2h.getD 0
    [(0, if a % 16 = 8 then x % 2 ^ 32 else x / 2 ^ 32)]
  else if 0xC03000 ≤ a ∧ a < 0xC03100 then
    let c := core d ((a - 0xC03000) / 4)
    [(0, b2n c.h2c.isSome), (1, b2n c.c2h.isSome)]
  else []

/-- Fields of VRD, TMG, MEM, DMA, TRL and CLP that the device computes. -/
def viewTail (d : Dev) (a : Nat) : List (Nat × Nat) :=
  if 0xD00000 ≤ a ∧ a < 0xD00400 then [(31, armed d (vrdFlds ((a - 0xD00000) / 4)))]
  else if a = 0xE00014 then [(31, armed d (polFields.map (objF (rd d Reg.tmgPolSelIndex))))]
  else if a = 0xE00104 then [(31, armed d (queueFields.map (objF (rd d Reg.tmgQSelQueue))))]
  else if a = 0xE00204 then
    [(31, armed d (nodeFields.map (objF (nodeNo (rd d Reg.tmgNSelLevel) (rd d Reg.tmgNSelIndex)))))]
  else if a = 0xE00308 then [(0, cellsFree d)]
  else if 0xF00100 ≤ a ∧ a < 0xF00200 then [(0, le (regionBytes d ((a - 0xF00100) / 16)) (a % 16) 4)]
  else if 0x1010000 ≤ a ∧ a < 0x1050000 ∧ a % 64 = 0x1C then [(31, armed d (schedOf ((a - 0x1010000) / 64)))]
  else if 0x1200030 ≤ a ∧ a < 0x1200040 then [(0, linkFree d ((a - 0x1200030) / 4))]
  else if a = 0x1200000 then [(0, ownId d), (3, b2n d.straps.trlMaster)]
  else if a = 0x1300000 then [(5, b2n d.straps.pairRole)]
  else []

/-- Whole registers that hold nothing of their own: the device computes them (R228, R240, R398, R420, R453, R456, R461,
R504). -/
def viewWord (d : Dev) (a : Nat) : Option Nat :=
  if a = 0x108 then some (packGates (gate d) 0 16)
  else if a = 0x10C then some (packGates (gate d) 16 8)
  else if 0xC00000 ≤ a ∧ a < 0xC00100 then
    let c := (a - 0xC00000) / 4
    some (if unitRemoved d 17 c then 127 else physOf d 17 c)
  else if a = 0xC00100 then some (put (spares d 17).length 0 3 + put (lastFail d 17 127) 3 7)
  else if a = 0xC00280 then
    some ((((List.range 8).map fun k => b2n (classEmpty d k) * 2 ^ k).sum) + 256 *
      (((List.range 8).map fun k => b2n (orderedClass k) * 2 ^ k).sum))
  else if 0x1400100 ≤ a ∧ a < 0x1400188 then
    let k := (a - 0x1400100) / 4
    some (put (sparesUp d k).length 0 3 + put ((d.flt.failed.filter fun u => u / 128 == k).length) 3 7 +
      put (b2n (poolBusy d k)) 10 1)
  else if a = 0x1500008 then some d.sgn.boot
  else if a = 0x150000C then some d.sgn.resets
  else if 0x1700100 ≤ a ∧ a < 0x1700120 then some (le d.sec.pub (a - 0x1700100) 4)
  else if a = 0x1700120 then some d.sec.cert.length
  else if 0x1701000 ≤ a ∧ a < 0x1703000 then some (le d.sec.cert (a - 0x1701000) 4)
  else if 0x1700200 ≤ a ∧ a < 0x1700300 ∧ a % 64 < 48 then
    some (le (d.sec.roots.getD ((a - 0x1700200) / 64) []) (a % 64) 4)
  else if a = 0x1700300 then some (d.sec.programmed + 16 * d.sec.revoked + 256 * b2n d.sec.imgKey.isSome)
  else if a = 0x1700304 then some d.sec.svn
  else none

/-- Every computed field of a register. -/
def viewFlds (d : Dev) (a : Nat) : List (Nat × Nat) := viewCfg d a ++ viewPath d a ++ viewTail d a

/-- What a field reads as (R5, R8). -/
def readFld (d : Dev) (a copy : Nat) (r : RFld) (v : List (Nat × Nat)) : Nat :=
  let f := homeFld d a copy (.at a r.lo r.w r.rst)
  match v.find? fun p => p.1 == r.lo with
  | some p => p.2 % 2 ^ r.w
  | none => match r.acc with
    | .wo => 0
    | .rws => shd d f
    | _ => rd d f

/-- The value of a register of PF BAR0 (R5, R503), as copy `copy` of the function shows it. -/
def readReg (d : Dev) (a copy : Nat) : Nat :=
  match viewWord d a with
  | some v => v
  | none => match rowAt a with
    | none => 0
    | some r =>
      let v := viewFlds d a
      (r.flds.map fun f => put (readFld d a copy f v) f.lo f.w).sum

/-- Pairs read as a 64-bit counter is: the low half latches the high half (R10). -/
def latched (a : Nat) : Bool := isCtr a || [0x100800, 0x100828, 0x300004, 0x1300038, 0x1500010].contains a

/-- The value of a counter, or of a pair that is read as one. -/
def pair64 (d : Dev) (a copy : Nat) : Nat := if isCtr a then ctr d a else readReg d a copy + 2 ^ 32 * readReg d (a + 4) copy

/-- The latch of a function for the pair at `a` (R10, R482). JTAG's is 65. -/
def latchKey (fn a : Nat) : Nat := fn * 2 ^ 25 + a

/-- The RC fields of a register clear when read (R5), but not in a freeze (R491). -/
def clearRc (d : Dev) (a copy : Nat) : Dev :=
  if rd d Reg.lpeFreezeStatState ≠ 0 then d else match rowAt a with
  | none => d
  | some r => each r.flds d fun d f => if f.acc = .rc then wr d (homeFld d a copy (.at a f.lo f.w f.rst)) 0 else d

/-- A read of PF BAR0 by function or path `fn`: the device after it and the value. -/
def readAt (d : Dev) (fn a copy : Nat) : Dev × Nat :=
  if latched a then
    let v := pair64 d a copy
    ({ d with latch := setDef d.latch (latchKey fn a) 0 (v / 2 ^ 32) }, v % 2 ^ 32)
  else if 4 ≤ a ∧ latched (a - 4) then (d, getD d.latch (latchKey fn (a - 4)) 0)
  else (clearRc d a copy, readReg d a copy)

/-- A field takes a written value (R9 and the ranges of the register tables). -/
def takes (ok : Rng) (w v : Nat) : Bool :=
  match ok with
  | .any => true
  | .range lo hi => decide (lo ≤ v ∧ v ≤ hi)
  | .zeroOr lo hi => v == 0 || decide (lo ≤ v ∧ v ≤ hi)
  | .signed lo hi => decide (lo ≤ sgn w v ∧ sgn w v ≤ hi)
  | .nonzero => v != 0
  | .low _ => true
  | .malAct => decide (v ≤ 4)
  | .owner => decide (v ≤ 64) || v == 127

/-- The value that lands: an aligned address drops its low bits. -/
def landing (ok : Rng) (v : Nat) : Nat := match ok with | .low k => v / 2 ^ k * 2 ^ k | _ => v

/-- One field of a register write (R5, R9, R285): `data` is the word written. -/
def writeFld (d : Dev) (a copy data : Nat) (r : RFld) : Dev :=
  let f := homeFld d a copy (.at a r.lo r.w r.rst)
  let v := bits data r.lo r.w
  match r.acc with
  | .rw => if takes r.ok r.w v then wr d f (landing r.ok v) else d
  | .rws => if takes r.ok r.w v then wrShd d f v else d
  | .wo => wr d f v
  | .w1c => wr d f (rd d f - (rd d f &&& v))
  | _ => d

/-- A register write under the access codes of its fields. -/
def writeFlds (d : Dev) (a copy data : Nat) : Dev :=
  match rowAt a with
  | none => d
  | some r => each r.flds d fun d f => writeFld d a copy data f

end Sys2Proof.Machine.Ops
end

