-- ==== Sys2Proof/Machine/FltCmd.lean ====
section
/-!
DEFINITION. FltCmd.lean: the events of the fault manager (R397 to R407): detection, injection, the staging of a remap graft, the end of
HOLD, the release of a thermal HOLD.
-/
namespace Sys2Proof.Machine
namespace Ops

/-- The physical unit exists for its class (R398, R408). Classes THERMAL, CLOCK and CONTROL name no unit. -/
def faultUnit (cls unit : Nat) : Bool :=
  match cls with
  | 1 => decide (unit < 34)
  | 2 => decide (unit < 528)
  | 3 => decide (unit < 68)
  | 4 => decide (unit < 32)
  | 5 => decide (unit < 8)
  | 6 => decide (unit < 32)
  | 7 => decide (unit < 4) || decide (0x10 ≤ unit ∧ unit < 0x14)
  | 8 => decide (unit < 4)
  | 9 => decide (0x10 ≤ unit ∧ unit < 0x14)
  | 10 => true
  | 11 => true
  | 12 => true
  | _ => false

/-- The power domain that holds a unit, where it is one that may be OFF (R423). -/
def faultDom (cls unit : Nat) : Option Nat :=
  match cls with
  | 1 => some (if unit < 17 then 11 else 12)
  | 2 => some (if unit / 33 < 8 then 9 else 10)
  | 3 => some 13
  | 6 => some 7
  | 9 => some 5
  | _ => none

/-- A unit in a domain that is not ON is never a fault (R426). -/
def faultPowered (d : Dev) (cls unit : Nat) : Bool :=
  match faultDom cls unit with
  | some k => domOn d k
  | none => true

/-- A core that is named as faulty stops (R239); a port that a LANE fault names goes down (R40, R400), the first of its lanes standing for
the lane that the fault does not name (log entry 164). -/
def faultStops (d : Dev) (cls unit : Nat) : Dev :=
  match cls with
  | 3 => match logicalOf d 17 unit with | some c => coreStops d c | none => d
  | 6 => laneLost d (unit * lanesPerPort d)
  | _ => d

/-- A detector reports a fault (R397). -/
def faultDetect (d : Dev) (cls unit : Nat) : Dev :=
  if !faultUnit cls unit ∨ !faultPowered d cls unit then d else fault (faultStops d cls unit) cls cls unit

/-- A write of `FLT_INJ` (R397): an injected fault acts as the class and the unit that it names. -/
def faultInject (d : Dev) (data : Nat) : Dev :=
  let cls := bits data 0 5
  let unit := bits data 5 11
  let d := wrs d [(Reg.fltInjClass, cls), (Reg.fltInjUnit, unit)]
  if bit data 16 ∧ faultUnit cls unit ∧ faultPowered d cls unit then fault (faultStops (tick d Ctr.fltInjected) cls unit) 0x0D cls unit else d

/-- The oldest remap graft that is not ready has staged its map and its copies (R403). -/
def remapReady : List FltGraft → List FltGraft
  | [] => []
  | g :: r => if g.ready then g :: remapReady r else { g with ready := true } :: r

/-- FLT leaves a HOLD that is not thermal (R404). -/
def holdExit (d : Dev) : Dev :=
  if fltState d ≠ 3 ∨ rd d Reg.fltStatCause = 10 then d
  else if rd d Reg.clpStatState = 2 then tick (wr d Reg.fltStatState 4) Ctr.fltHandover
  else if rd d Reg.fltStatCause = 8 then enterFailed d 8
  else wr d Reg.fltStatState 5

/-- `FLT_CTL.RELEASE` ends a thermal HOLD once the trip is no longer reported (R404). -/
def holdRelease (d : Dev) : Dev :=
  if fltState d ≠ 3 ∨ rd d Reg.fltStatCause ≠ 10 ∨ rdB d Reg.clkThermStatTrip then d
  else remapDone (wr d Reg.fltStatState d.flt.before) 10

end Ops

/-- FAULT_DETECT (R397). -/
def execFaultDetect (cls unit : Nat) (s : State) : Host.Outcome State Fault Refusal :=
  Ops.run s fun d => Ops.faultDetect d cls unit
/-- FLT_INJECT (R397). -/
def execFltInject (data : Word) (s : State) : Host.Outcome State Fault Refusal :=
  Ops.run s fun d => Ops.access d 0 0x0140000C true fun d => Ops.faultInject d data.toNat
/-- HOLD_EXIT (R404). -/
def execHoldExit (s : State) : Host.Outcome State Fault Refusal := Ops.run s Ops.holdExit
/-- RELEASE (R404). -/
def execRelease (s : State) : Host.Outcome State Fault Refusal :=
  Ops.run s fun d => Ops.access d 0 0x01400008 true Ops.holdRelease

end Sys2Proof.Machine
end

