-- ==== Sys2Proof/Machine/Flw.lean ====
section
/-!
DEFINITION. Flw.lean: what commands, the aging scanner and the shadow walker do to the flow table (R103 to R105, R111, R114,
R115).
-/
namespace Sys2Proof.Machine
namespace Ops

/-- A word of a command port: the PF's registers, or the cores' second port (R233). -/
def portRd (d : Dev) (core : Bool) (f : Fld) : Nat := if core then getD d.spr.port f.key 0 else rd d f
def portWr (d : Dev) (core : Bool) (f : Fld) (v : Nat) : Dev :=
  if core then { d with spr := { d.spr with port := set d.spr.port f.key (v % 2 ^ f.w) } } else wr d f v

/-- `FLW_CMD_KEY_0` to `_9` as the 40 key bytes. -/
def cmdKey (d : Dev) (core : Bool) : Bytes := (tab 10 fun i => leBytes 4 (portRd d core (Reg.flwCmdKeyWord i))).flatten

/-- A command ends with RESULT and ENTRY: the entry it has named, 0 where it has found none (log entry 142: DESIGN CHOICE). -/
def cmdEnd (d : Dev) (core : Bool) (res idx : Nat) : Dev :=
  portWr (portWr (portWr d core Reg.flwCmdStatResult res) core Reg.flwCmdStatEntry idx) core Reg.flwCmdStatBusy 0

/-- The entry that a command names, after its bucket has been read under the codes; `none` = RESULT 1 or 5 (R111). -/
def cmdFind (d : Dev) (core : Bool) : Dev × Option Nat × Nat :=
  let k := cmdKey d core
  let d := readBucket d (bucketOf d k)
  match lookup d k with
  | some i => (d, some i, 0)
  | none => (d, none, if d.flw.ueHold.contains (bucketOf d k) then 5 else 1)

/-- A STANDBY device's entries change only through mirror deltas (R387): the command changes none, and its RESULT is an
open value (log entry 11). -/
def cmdStandby (d : Dev) (core : Bool) : Dev :=
  let r := fresh d
  cmdEnd r.2 core (r.1 % 8) (portRd d core Reg.flwCmdStatEntry)

/-- A command on an existing entry: its effect `f` where the key is present. -/
def cmdOn (d : Dev) (core : Bool) (f : Dev → Nat → FlowEnt → Dev) : Dev :=
  if standby d then cmdStandby d core else
  match cmdFind d core with
  | (d, some i, _) => cmdEnd (match ent? d i with | some e => f d i e | none => d) core 0 i
  | (d, none, r) => cmdEnd d core r 0

/-- READ: the entry's 128 bytes into the DATA words (R111). -/
def flwRead (d : Dev) (core : Bool) : Dev :=
  match cmdFind d core with
  | (d, none, r) => cmdEnd d core r 0
  | (d, some i, _) => match ent? d i with
    | none => d
    | some e => cmdEnd (each (List.range 32) d fun d j => portWr d core (Reg.flwCmdDataWord j) (le (entBytes e) (4 * j) 4))
        core 0 i

/-- INSERT (R111). One that fails is no insertion of R99: `INSERT_FAIL` does not count it (log entry 143: DESIGN CHOICE). -/
def flwInsert (d : Dev) (core : Bool) (data : Nat) : Dev :=
  if standby d then cmdStandby d core else
  match cmdFind d core with
  | (d, some i, _) => cmdEnd d core 2 i
  | (d, none, _) =>
    let k := cmdKey d core
    match place d k with
    | .inr r => cmdEnd d core r 0
    | .inl i =>
      let f := frontier d
      let e := { learnt d k f (bits data 3 8) (curNum d) with sw := true, noAge := bit data 11 }
      cmdEnd (clearCells (insertAt d i e f 9) e.tenant i) core 0 i

/-- CLEAR_CONTEST: CONTEST = 0 and SRC unchanged, from CONTEST, PINNED or CPU (R101). -/
def flwClearContest (d : Dev) (core : Bool) : Dev :=
  cmdOn d core fun d i e =>
    if e.cstate = 0 then d else
    let e' := { e with cstate := 0, moves := 0 }
    mirrorEntry (putEnt d i e') i e'

/-- ZERO_STATE (R111): the pending write is discarded as in R108. -/
def flwZeroState (d : Dev) (core : Bool) : Dev :=
  cmdOn d core fun d i e =>
    let e' := { e with state := zeros 64, stateOwned := false }
    mirrorEntry (putEnt (discardPend d i) i e') i e'

/-- CLEAR_BUCKET (R111). ENTRY gives the bucket's first way (log entry 142: DESIGN CHOICE). -/
def flwClearBucket (d : Dev) (core : Bool) : Dev :=
  if standby d then cmdStandby d core else
  let b := portRd d core (Reg.flwCmdKeyWord 0)
  if buckets d ≤ b then cmdEnd d core 1 0
  else
    let d := each (List.range 4) d fun d w =>
      if (ent? d (4 * b + w)).isSome then dropEnt d (4 * b + w) 3 else zeroEnt d (4 * b + w)
    cmdEnd { d with flw := { d.flw with ueHold := d.flw.ueHold.filter (· != b) } } core 0 (4 * b)

/-- A write of `FLW_CMD` by its OP; 0 and 7 are ignored (R111). A command ranks after every lookup that is due (R97). -/
def flwCmd (d : Dev) (core : Bool) (data : Nat) : Dev :=
  if rdB d Reg.flwCmdStatBusy && !core then d else
  let d := serveDue d
  match bits data 0 3 with
  | 1 => flwRead d core
  | 2 => flwInsert d core data
  | 3 => cmdOn d core fun d i _ => dropEnt d i 3
  | 4 => flwClearContest d core
  | 5 => flwZeroState d core
  | 6 => flwClearBucket d core
  | _ => d

/-- The timeout of an entry in ns (R103). -/
def ageLimit (d : Dev) (t : Nat) : Nat :=
  let x := rd d (Reg.flwAgeTmoTimeout t)
  1000 * (if x ≠ 0 then x else rd d Reg.flwAgeCfgTimeout)

/-- The scanner tests one entry (R103). -/
def ageEnt (d : Dev) (i : Nat) : Dev :=
  match ent? d i with
  | none => d
  | some e =>
    let f := frontier d
    let age := (((f : Int) - origin d - e.lastSeen) % (2 ^ 48 : Int)).toNat
    if !e.noAge ∧ ageLimit d e.tenant ≤ age then
      lpeTick (tick (dropEnt d i 2) Ctr.flwAgeDel) (Ctr.lpeTAgeDel e.tenant)
    else
      let since := fun (x : Nat) => (((f : Int) - x) % (2 ^ 32 : Int)).toNat
      let q := if e.cstate = 0 then since e.srcT else min (since e.srcT) (since e.contestT)
      if e.recent ∧ 16 * rd d Reg.flwContestCfgWindow ≤ q then putEnt d i { e with recent := false } else d

/-- One visit of the aging scanner (R103), after every lookup that is due (R104); none in STANDBY (R387). -/
def agingScan (d : Dev) : Dev :=
  if !rdB d Reg.flwScanCfgEnable || standby d then d else
  let d := serveDue d
  let h := d.flw.scanPos
  let d := if h < buckets d then readBucket d h else d
  let d := each (List.range 4) d fun d w => ageEnt d (4 * h + w)
  { d with flw := { d.flw with scanPos := (h + 1) % (buckets d + 4096) } }

/-- The address of the shadow in host memory (R114). -/
def shadowBase (d : Dev) : Nat := rd64 d Reg.flwShadowBaseLoAddr Reg.flwShadowBaseHiAddr / 64 * 64

/-- One visit of the shadow walker (R114): `host` holds APPLIED_SEQ (8 bytes) and the shadow digest (4 bytes). The record of a mismatch
carries F and zeros for the tenant and both sources (log entry 141: DESIGN CHOICE). -/
def shadowVisit (d : Dev) (host : Option Bytes) : Dev :=
  if !rdB d Reg.flwShadowCtlEnable then d else
  let h := d.flw.walkPos
  let d := if h < buckets d then readBucket d h else d
  let d := emit (emit d (.hostRead (shadowBase d) 8)) (.hostRead (shadowBase d + 64 + 4 * h) 4)
  let d := { d with flw := { d.flw with walkPos := (h + 1) % (buckets d + 4096) } }
  match host with
  | none => d
  | some b =>
    let seq := le b 0 8
    let sd := le b 8 4
    let dd := digest d h
    let behind := (((seq % 2 ^ 32 : Nat) : Int) - getD d.flw.lastChange h 0) % (2 ^ 32 : Int)
    if behind ≥ 2 ^ 31 then tick d Ctr.flwShadowStale
    else if sd = dd then d
    else
      let d := logRecord d (frontier d) h 7 0 0 0 (leBytes 4 dd ++ leBytes 4 sd ++ leBytes 8 seq ++ zeros 24)
      wrs (tick d Ctr.flwShadowMismatch) [(Reg.flwShadowStatMismatch, 1), (Reg.flwShadowStatLast, h)]

/-- SNAP: the device's digests and its SEQ go into the shadow, and SNAP reads 0 again (R115 procedure step 2). -/
def snapShadow (d : Dev) : Dev :=
  let n := buckets d + 4096
  let b := leBytes 8 d.flw.logSeq ++ zeros 56 ++ ((List.range n).flatMap fun h => leBytes 4 (digest d h))
  wr (emit d (.hostWrite (shadowBase d) b)) Reg.flwShadowCtlSnap 0

end Ops

/-- AGING_SCAN_VISIT (R103 to R105). -/
def execAgingScanVisit (s : State) : Host.Outcome State Fault Refusal := Ops.run s Ops.agingScan
/-- CMD_READ (R111). -/
def execCmdRead (core : Bool) (_data : Word) (s : State) : Host.Outcome State Fault Refusal :=
  Ops.run s fun d => Ops.access d 0 0x00700100 true fun d => Ops.flwRead (Ops.serveDue d) core
/-- CMD_INSERT (R111). -/
def execCmdInsert (core : Bool) (data : Word) (s : State) : Host.Outcome State Fault Refusal :=
  Ops.run s fun d => Ops.access d 0 0x00700100 true fun d => Ops.flwInsert (Ops.serveDue d) core data.toNat
/-- CMD_DELETE (R111). -/
def execCmdDelete (core : Bool) (_data : Word) (s : State) : Host.Outcome State Fault Refusal :=
  Ops.run s fun d => Ops.access d 0 0x00700100 true fun d =>
    Ops.cmdOn (Ops.serveDue d) core fun d i _ => Ops.dropEnt d i 3
/-- CMD_CLEAR_CONTEST (R101, R111). -/
def execCmdClearContest (core : Bool) (_data : Word) (s : State) : Host.Outcome State Fault Refusal :=
  Ops.run s fun d => Ops.access d 0 0x00700100 true fun d => Ops.flwClearContest (Ops.serveDue d) core
/-- CMD_ZERO_STATE (R111). -/
def execCmdZeroState (core : Bool) (_data : Word) (s : State) : Host.Outcome State Fault Refusal :=
  Ops.run s fun d => Ops.access d 0 0x00700100 true fun d => Ops.flwZeroState (Ops.serveDue d) core
/-- CMD_CLEAR_BUCKET (R111, R112). -/
def execCmdClearBucket (core : Bool) (_data : Word) (s : State) : Host.Outcome State Fault Refusal :=
  Ops.run s fun d => Ops.access d 0 0x00700100 true fun d => Ops.flwClearBucket (Ops.serveDue d) core
/-- SHADOW_WALK_VISIT (R114). -/
def execShadowWalkVisit (host : Option Bytes) (s : State) : Host.Outcome State Fault Refusal :=
  Ops.run s fun d => Ops.shadowVisit d host
/-- SHADOW_SNAP (R115). -/
def execShadowSnap (s : State) : Host.Outcome State Fault Refusal := Ops.run s fun d => Ops.access d 0 0x00700040 true Ops.snapShadow

end Sys2Proof.Machine
end

