-- ==== Sys2Proof/Machine/Lpe.lean ====
section
/-!
DEFINITION. Lpe.lean: Loupe: counter samples (R484), watchdogs and hang snapshots (R485 to R488), freeze (R489 to R495), the dump
(R496, R497).
-/
namespace Sys2Proof.Machine
namespace Ops

/-- LPE acts: its gate is ON (R501). -/
def lpeOn (d : Dev) : Bool := gateOn d 22

/-! ### Samples -/

/-- The bytes of a sample record (R484). -/
def sampleBytes (d : Dev) (n : Nat) : Bytes :=
  let b := leBytes 8 (now64 d) ++ leBytes 4 d.lpe.sampleSeq ++ leBytes 2 n ++ zeros 2 ++ (List.range n).flatMap fun i =>
    let a := rd d (Reg.lpeSampleListOffset i)
    leBytes 8 (if isCtr a then ctr d a else 0)
  padTo (64 * chunks64 b.length) b

/-- Writes a record of whole 64-byte units into a ring at `base` of `n` units, from unit `w`. -/
def ringWrite (d : Dev) (base n w : Nat) (b : Bytes) : Dev :=
  let k := min b.length (64 * (n - w))
  let d := emit d (.hostWrite (base + 64 * w) (b.take k))
  if k < b.length then emit d (.hostWrite base (b.drop k)) else d

/-- One counter sample (R484). The ring keeps one unit free, so that WR = RD means an empty ring (log entry 9). -/
def sample (d : Dev) : Dev :=
  if !lpeOn d ∨ !rdB d Reg.lpeSampleCfgEn then d else
  let b := sampleBytes d (rd d Reg.lpeSampleCfgCount + 1)
  let d := { d with lpe := { d.lpe with sampleSeq := (d.lpe.sampleSeq + 1) % 2 ^ 32 } }
  let n := rd d Reg.lpeSampleSizeSize * 1024
  let w := rd d Reg.lpeSampleWrWr
  let free := (rd d Reg.lpeSampleRdRd + n - w - 1) % n
  if n = 0 ∨ free < b.length / 64 then tick d Ctr.lpeSampleLost
  else
    let r := spend d b.length
    if !r.2 then tick r.1 Ctr.lpeSampleLost
    else wr (ringWrite r.1 (rd64 d Reg.lpeSampleRingLoAddr Reg.lpeSampleRingHiAddr / 65536 * 65536) n w b) Reg.lpeSampleWrWr
      ((w + b.length / 64) % n)

/-! ### Snapshots -/

/-- A queue of a snapshot: KIND, pipe, INDEX, DEPTH, and the entry time of its head where the state holds it (R488). -/
structure QRec where
  kind : Nat
  pipe : Nat
  idx : Nat
  depth : Nat
  head : Option Nat
  deriving DecidableEq, Repr

/-- The queues of R488, non-empty ones only. No fabric client queues accesses in this model. -/
def snapQueues (d : Dev) : List QRec :=
  let unitT := fun (u : Nat) => (unit? d u).map (·.evT)
  let q := fun k i n h => (⟨k, 0xFF, i, n, h⟩ : QRec)
  let all :=
    d.tmg.queues.map (fun p => q 1 p.1 (qDepth p.2) (p.2.pkts.head?.map (·.due))) ++
    [q 2 0 d.stm.fifo.length (d.stm.fifo.head?.bind unitT)] ++
    -- each pipe has a loop of its own (R33)
    (List.range 8).map (fun k => ⟨3, k, 0, (d.units.filter fun p => p.2.stage == .waiting && p.2.pipe == k).length, none⟩) ++
    [q 4 0 ((d.units.filter fun p => p.2.stage == .parsed && p.2.pass == 0).length) none] ++
    (List.range 8).map (fun k => q 5 k (taskQueue d k).length none) ++
    [q 6 0 d.runQueue.length none, q 7 0 d.labels.length (d.labels.head?.map (·.t))] ++
    d.chans.map (fun p => q 8 p.1
      ((rd d (Reg.dmaChTailTail p.1) + ringSize d p.1 - rd d (Reg.dmaChHeadHead p.1) % ringSize d p.1) % ringSize d p.1) none) ++
    (List.range 6).map (fun l => q 9 l (link d l).held.length none) ++
    [q 11 0 d.grf.queue.length none]
  all.filter fun r => r.depth != 0

/-- The 16 bytes of a QUEUE record; an age that the state does not hold is free. -/
def QRec.bytes (r : QRec) (now free : Nat) : Bytes :=
  leBytes 1 r.kind ++ leBytes 1 r.pipe ++ zeros 2 ++ leBytes 4 r.idx ++ leBytes 4 r.depth ++
  leBytes 4 (match r.head with | some t => min (now - t) 0xFFFFFFFF | none => free)

/-- The clients of the memory fabric, by gate index (R335). -/
def fabricClients : List Nat := [7, 8, 10, 11, 12, 14, 16]

/-- The CREDIT records (R488): PCIe and fabric credits are free values. -/
def creditBytes (d : Dev) (f : Nat) : Bytes :=
  let r := fun k i v => leBytes 1 k ++ leBytes 1 i ++ zeros 2 ++ leBytes 4 v
  r 1 0 d.stm.cred ++ ((List.range 4).flatMap fun l => r 2 l (128 - (link d l).held.length)) ++
  ((List.range 2).flatMap fun l => r 3 l (128 - (link d (4 + l)).held.length)) ++
  ((List.range 3).flatMap fun k => r (4 + k) 0 (bits f (32 * k) 32)) ++
  ((List.range fabricClients.length).flatMap fun i => r 7 (fabricClients.getD i 0) (bits f (96 + 32 * i) 32))

/-- The units of the WAIT section: KIND, byte 1, bytes 2-3, and whether they are idle or busy where the state holds it. -/
def waitUnits (d : Dev) : List (Nat × Nat × Nat × Option Nat) :=
  ((List.range 8).flatMap fun p => (List.range 9).map fun s => (1, p, s + 1, (none : Option Nat))) ++
  ((List.range 16).flatMap fun e => (List.range 33).map fun i => (2, e, i, none)) ++
  ((List.range 34).map fun t => (3, 0, t, none)) ++
  ((List.range 8).flatMap fun p => (List.range 4).map fun l => (4, p, l, none)) ++
  ((List.range 64).map fun c => (5, 0, c, some (b2n !(coreIdle (core d c))))) ++
  ((d.chans.filter fun p => chState d p.1 == 1).map fun p => (6, 0, p.1, some (b2n !p.2.flight.isEmpty)))

/-- The WAIT records (R488); states and ages that the model does not hold are free. -/
def waitBytes (d : Dev) (f : Nat) : Bytes :=
  (waitUnits d).foldl (fun (a : Bytes × Nat) u =>
    (a.1 ++ leBytes 1 u.1 ++ leBytes 1 u.2.1 ++ leBytes 2 u.2.2.1 ++
      leBytes 1 (match u.2.2.2 with | some s => s | none => bits f (32 * a.2) 8 % 7) ++ leBytes 3 (bits f (32 * a.2 + 8) 24),
     a.2 + 1)) ([], 0) |>.1

/-- The GRAFT section (R488). -/
def graftBytes (d : Dev) : Bytes :=
  leBytes 4 (readReg d 0x300000 0) ++ leBytes 8 (pair64 d 0x300004 0) ++
  ((List.range 4).flatMap fun k => leBytes 4 (readReg d (0x300010 + 4 * k) 0)) ++ leBytes 4 (readReg d 0x30002C 0) ++
  leBytes 4 (readReg d 0x1400000 0) ++
  leBytes 2 (if d.flt.grafts.isEmpty then 0 else 1 + put 1 8 1 + put 2 9 3) ++ leBytes 2 (readReg d 0x301014 64) ++
  zeros 24 ++ (List.range 64).flatMap fun n => leBytes 4 (readReg d 0x301014 n)

/-- The CONTEXT section (R488). -/
def contextBytes (d : Dev) : Bytes :=
  let us := (d.units.filter fun p => p.2.hasCtx).map (·.2)
  let n := fun (f : UnitRec → Bool) => (us.filter f).length
  leBytes 4 (ctxUsed d) ++ leBytes 4 (ctxFree d) ++
  ((List.range 8).flatMap fun p => leBytes 4 (n (·.pipe == p) + (d.runs.filter fun r => r.pipe == p).length)) ++
  leBytes 4 (n fun r => match r.kind with | .inline _ => true | _ => false) ++
  leBytes 4 (n fun r => match r.kind with | .stem _ _ _ => true | _ => false) ++
  leBytes 4 (n fun r => match r.kind with | .job _ => true | _ => false) ++ leBytes 4 d.runs.length ++ zeros 8 ++
  ((List.range 64).flatMap fun t => leBytes 4 (n (·.tenant == t) + (d.runs.filter fun r => r.tenant == t).length)) ++ zeros 192

/-- Appends a section of records of `w` bytes on a 64-byte boundary, cut at the last whole record within `lim`: the bytes, the records
written, whether anything was cut. -/
def addSection (lim : Option Nat) (a : Bytes × List Nat × Bool) (s : Nat × Bytes) : Bytes × List Nat × Bool :=
  let b := padTo (64 * chunks64 a.1.length) a.1
  if a.2.2 then (a.1, a.2.1 ++ [0], true)
  else match lim with
  | none => (b ++ s.2, a.2.1 ++ [s.2.length / s.1], false)
  | some l =>
    let k := min (s.2.length / s.1) ((l - b.length) / s.1)
    (b ++ s.2.take (k * s.1), a.2.1 ++ [k], decide (k < s.2.length / s.1))

/-- A snapshot (R488) with the device after it: TRIGGER, FROZEN, start time, size limit; the bytes and TRUNC. -/
def snapBytes (d : Dev) (trig : Nat) (frz : Bool) (t0 : Nat) (lim : Option Nat) : Dev × Bytes × Bool :=
  let f := fresh d
  let d := { f.2 with lpe := { f.2.lpe with snapSeq := (f.2.lpe.snapSeq + 1) % 2 ^ 64 } }
  let qs := snapQueues d
  let q := (qs.take 65536).foldl (fun (a : Bytes × Nat) r => (a.1 ++ r.bytes (now d) (bits f.1 (32 * a.2) 32), a.2 + 1)) ([], 0)
  let g := fresh d
  let x := [(16, q.1), (8, creditBytes g.2 g.1), (8, waitBytes g.2 (g.1 / 2 ^ 512)), (320, graftBytes g.2),
    (512, contextBytes g.2)].foldl (addSection lim) (zeros 64, [], false)
  let n := fun i => x.2.1.getD i 0
  let head := [(0x4C : Byte), 0x50, 0x48, 0x53] ++ leBytes 2 1 ++ leBytes 1 trig ++ leBytes 1 (b2n x.2.2 + 2 * b2n frz) ++
    leBytes 8 d.lpe.snapSeq ++ leBytes 8 t0 ++ leBytes 8 (now64 d) ++ leBytes 4 (n 0) ++ leBytes 4 (n 1) ++ leBytes 4 (n 2) ++
    leBytes 4 qs.length ++ leBytes 4 (readReg d 0 0) ++ zeros 12
  (g.2, head ++ x.1.drop 64, x.2.2)

/-! ### Freeze -/

/-- A freeze trigger (R489): CAUSE 1 pin, 2 register, 3 JTAG, 4 hang. -/
def freezeTrigger (d : Dev) (cause : Nat) : Dev :=
  if lpeOn d ∧ rd d Reg.lpeFreezeStatState = 0 then
    wrs d [(Reg.lpeFreezeStatState, 1), (Reg.lpeFreezeStatCause, cause)]
  else d

/-- FREEZE_ON_HANG (R486). -/
def freezeOnHang (d : Dev) : Dev := if rdB d Reg.lpeCfgFreezeOnHang then freezeTrigger d 4 else d

/-- The condition of a watchdog holds (R485). What the model does not hold, a wait of a fabric client, is the event's own word;
an FLW command completes as it is written, so that no port ever reads BUSY. -/
def watchCond (d : Dev) (k : Nat) : Bool :=
  match k with
  | 0 => d.tmg.queues.any fun p => !p.2.pkts.isEmpty &&
      match qChain d p.1 with | some (_, _, _, n) => portUp d n | none => false
  | 1 => d.chans.any fun p => chState d p.1 == 1 && rd d (Reg.dmaChTailTail p.1) != rd d (Reg.dmaChHeadHead p.1)
  | 2 => (List.range 8).any fun k => !(taskQueue d k).isEmpty &&
      (List.range 64).any fun c => eligible d k c && coreState d c == 1 && coreIdle (core d c)
  | 3 => d.grf.cur.isSome || !d.grf.queue.isEmpty
  | 4 => (List.range 6).any fun l => 128 ≤ (link d l).held.length
  | 5 => !d.stm.fifo.isEmpty
  | 6 => rdB d Reg.flwCmdStatBusy || portRd d true Reg.flwCmdStatBusy == 1
  | 7 => !d.runQueue.isEmpty
  | 8 => true
  | _ => false

/-- A watchdog's condition has held for LIMIT (R485, R486). -/
def watchdogFire (d : Dev) (k : Nat) : Dev :=
  if !lpeOn d ∨ !bit (rd d Reg.lpeWdogEnEn) k ∨ !watchCond d k then d
  else if rdB d Reg.lpeHangStatHang then tick d Ctr.lpeHangLost
  else
    let d := irq (tick (wrs d [(Reg.lpeHangStatHang, 1), (Reg.lpeHangStatWdog, k), (Reg.lpeHangStatSnapDone, 0)]) Ctr.lpeHang)
      Reg.lpeIrqEn Reg.lpeIrqVector
    if rd d Reg.lpeSnapSizeSize = 0 then freezeOnHang (wr d Reg.lpeHangStatSnapSkipped 1)
    else { d with lpe := { d.lpe with snap := some (k, now64 d) } }

/-- The hang snapshot is written (R486, R488). -/
def snapshotDone (d : Dev) : Dev :=
  match d.lpe.snap with
  | none => d
  | some (k, t) =>
    let r := snapBytes { d with lpe := { d.lpe with snap := none } } k false t (some (65536 * rd d Reg.lpeSnapSizeSize))
    let d := emit r.1 (.hostWrite (rd64 d Reg.lpeSnapAddrLoAddr Reg.lpeSnapAddrHiAddr / 64 * 64) r.2.1)
    let d := if r.2.2 then tick (wr d Reg.lpeHangStatSnapTrunc 1) Ctr.lpeSnapTrunc else d
    freezeOnHang (wr d Reg.lpeHangStatSnapDone 1)

/-- The registers of a row, by address. -/
def rowAddrs : List (Nat × Nat) → List Nat
  | [] => [0]
  | (s, n) :: r => (List.range n).flatMap fun i => (rowAddrs r).map (s * i + ·)

/-- Rows that *Register index* gives as values of a rule, not as registers. -/
def valueRows : List String := ["QNT_TS_VAL", "TMG_QS_VAL", "SGN_LAST"]

/-- The registers of an aperture that the index lists, in ascending offset (R496). -/
def listed (k : Nat) : List Nat :=
  (((Reg.rowsOf k).filter fun r => !valueRows.contains r.name).flatMap fun r =>
    (rowAddrs r.dims).map (r.base + ·)).mergeSort (· ≤ ·)

/-- A section of the dump (R496): its header and contents. -/
def dumpSection (ty blk : Nat) (b : Bytes) : Bytes :=
  leBytes 1 ty ++ leBytes 1 blk ++ zeros 2 ++ leBytes 4 b.length ++ zeros 8 ++ b

/-- The smeared boundaries whose clock runs at the cut (R492, R496): KIND, unit, the period of the clock in ps where it is known. -/
def smears (d : Dev) : List (Nat × Nat × Option Nat) :=
  let lanes := fun k n on => if on then (List.range n).map fun i => (k, i, (none : Option Nat)) else []
  lanes 1 32 (gateOn d 4) ++ lanes 2 16 (gateOn d 5 && stmState d != 0) ++
  ((List.range 4).flatMap fun l => if gateOn d 18 && linkState d l != 0 then (List.range 8).map fun i => (3, 8 * l + i, none) else []) ++
  ((List.range 2).flatMap fun l => if gateOn d 19 && linkState d (4 + l) != 0 then
    (List.range 8).map fun i => (4, 8 * l + i, none) else []) ++
  lanes 6 4 (gateOn d 15 && domOn d 5) ++
  ((List.range 3).filter fun k => rdB d (Reg.clkDvfsCfgMode k)).map fun k =>
    (7, k, some (1000 * [6, 8, 10].getD k 6 / (3 + dvfsPoint d k)))

/-- An entry of the smear list; cycles, periods and buffer contents that the model does not hold are free. -/
def smearBytes (s : Nat × Nat × Option Nat) (f : Nat) : Bytes :=
  leBytes 1 s.1 ++ leBytes 1 s.2.1 ++ leBytes 1 2 ++ leBytes 1 (bits f 0 8 % 3) ++
  leBytes 4 (s.2.2.getD (bits f 8 32)) ++ leBytes 4 (if s.1 = 7 then 0 else bits f 40 32) ++ zeros 4

/-- The dump (R496), assembled at the cut. -/
def dumpBytes (d : Dev) : Dev × Bytes :=
  let f := fresh d
  let sm := smears d
  let smb := sm.foldl (fun (a : Bytes × Nat) s => (a.1 ++ smearBytes s (f.1 / 2 ^ (32 + 96 * a.2)), a.2 + 1)) ([], 0) |>.1
  let blocks := (List.range 24).filter (gateOn d)
  let regs := blocks.flatMap fun k =>
    dumpSection 1 k ((listed k).flatMap fun a => leBytes 4 (a % 0x100000) ++ leBytes 4 (readReg d a 0))
  let s := snapBytes f.2 0xFF true (now64 d) none
  let i := dumpSection 3 22 (Config.dumpImpl s.1.free)
  let body := smb ++ regs ++ dumpSection 2 22 s.2.1 ++ i
  let head := [(0x4C : Byte), 0x50, 0x46, 0x44] ++ leBytes 2 1 ++ leBytes 1 (rd d Reg.lpeFreezeStatCause) ++ zeros 1 ++
    leBytes 4 (readReg d 0 0) ++ leBytes 4 d.sgn.boot ++ leBytes 4 d.sgn.resets ++ leBytes 8 d.lpe.cutT ++ leBytes 8 d.lpe.cutB ++
    leBytes 4 sm.length ++ leBytes 4 (blocks.length + 2) ++ leBytes 8 (64 + body.length) ++ leBytes 4 f.1 ++ zeros 8
  ({ s.1 with free := s.1.free + 1 }, head ++ body)

/-- The cut, at the first super-cycle boundary after the trigger (R490, R493). -/
def freezeCut (d : Dev) : Dev :=
  if rd d Reg.lpeFreezeStatState ≠ 1 then d else
  let d := { d with lpe := { d.lpe with cutT := now64 d, cutB := d.clk.boundary } }
  let d := irq (tick (wr d Reg.lpeFreezeStatState 2) Ctr.lpeFreeze) Reg.lpeIrqEn Reg.lpeIrqVector
  let r := dumpBytes d
  { r.1 with lpe := { r.1.lpe with dump := r.2, dumpPtr := 0 } }

/-- The dump is ready (R496). -/
def dumpReady (d : Dev) : Dev :=
  if !frozen d ∨ rdB d Reg.lpeFreezeStatDumpReady then d
  else irq (wrs d [(Reg.lpeFreezeStatDumpReady, 1), (Reg.lpeDumpLenLen, d.lpe.dump.length)]) Reg.lpeIrqEn Reg.lpeIrqVector

/-- MEM_OPEN written 1 (R493). -/
def memOpen (d : Dev) : Dev := if rd d Reg.lpeFreezeStatState = 2 then wr d Reg.lpeFreezeStatState 3 else d

/-- RESUME written 1 (R493). -/
def resume (d : Dev) : Dev :=
  if rd d Reg.lpeFreezeStatState = 2 ∨ rd d Reg.lpeFreezeStatState = 3 then
    if d.pins.freezeN then wr d Reg.lpeFreezeStatState 4 else wr d Reg.lpeFreezeStatRej 1
  else d

/-- The boundary after RESUME (R493, R495): interrupted work ends, what waited for the end of the freeze acts. The dump registers
read zero from here on (R497). -/
def resumeBoundary (d : Dev) : Dev :=
  if rd d Reg.lpeFreezeStatState ≠ 4 then d else
  let d := wrs d [(Reg.lpeFreezeStatState, 0), (Reg.lpeFreezeStatDumpReady, 0), (Reg.lpeDumpLenLen, 0)]
  let d := { d with lpe := { d.lpe with dump := [], dumpPtr := 0 } }
  clkThaw (faultsResume (signetThaw (holdEnds d Ctr.lpeFreezeDrop)))

/-- A write of `LPE_FREEZE` (R489, R493). -/
def freezeWrite (d : Dev) (data cause : Nat) : Dev :=
  let d := if bit data 0 then freezeTrigger d cause else d
  let d := if bit data 1 then memOpen d else d
  if bit data 2 then resume d else d

/-- The next word of the dump; the pointer advances (R497). -/
def dumpNext (d : Dev) : Dev × Nat :=
  if frozen d then ({ d with lpe := { d.lpe with dumpPtr := d.lpe.dumpPtr + 4 } }, le d.lpe.dump d.lpe.dumpPtr 4) else (d, 0)

/-- START written 1 (R497). -/
def dumpStart (d : Dev) : Dev := { d with lpe := { d.lpe with dumpPtr := 0 } }

end Ops

/-- WATCHDOG_FIRE (R485, R486). -/
def execWatchdogFire (idx : Nat) (s : State) : Host.Outcome State Fault Refusal := Ops.run s fun d => Ops.watchdogFire d idx
/-- SNAPSHOT_DONE (R487, R488). -/
def execSnapshotDone (s : State) : Host.Outcome State Fault Refusal := Ops.run s Ops.snapshotDone
/-- COUNTER_SAMPLE (R484). -/
def execCounterSample (s : State) : Host.Outcome State Fault Refusal := Ops.run s Ops.sample
/-- FREEZE_PIN (R489): a falling edge on `FREEZE_N`. -/
def execFreezePin (s : State) : Host.Outcome State Fault Refusal :=
  Ops.run s fun d => Ops.freezeTrigger { d with pins := { d.pins with freezeN := false } } 1
/-- FREEZE (R489): FREEZE written 1. -/
def execFreeze (s : State) : Host.Outcome State Fault Refusal :=
  Ops.run s fun d => Ops.access d 0 0x01600020 true fun d => Ops.freezeTrigger d 2
/-- FREEZE_CUT (R490, R493). -/
def execFreezeCut (s : State) : Host.Outcome State Fault Refusal := Ops.run s Ops.freezeCut
/-- DUMP_READY (R496). -/
def execDumpReady (s : State) : Host.Outcome State Fault Refusal := Ops.run s Ops.dumpReady
/-- MEM_OPEN (R493, R494). -/
def execMemOpen (s : State) : Host.Outcome State Fault Refusal :=
  Ops.run s fun d => Ops.access d 0 0x01600020 true Ops.memOpen
/-- RESUME (R493): `pinHigh` is the level of `FREEZE_N`. -/
def execResume (pinHigh : Bool) (s : State) : Host.Outcome State Fault Refusal :=
  Ops.run s fun d => Ops.access { d with pins := { d.pins with freezeN := pinHigh } } 0 0x01600020 true Ops.resume
/-- RESUME_BOUNDARY (R493, R495). -/
def execResumeBoundary (s : State) : Host.Outcome State Fault Refusal := Ops.run s Ops.resumeBoundary
/-- DUMP_READ (R497). -/
def execDumpRead (fn : Fn) (s : State) : Host.Outcome State Fault Refusal :=
  Ops.run s fun d => if Ops.tenantOf fn ≠ 0 then d else Ops.access d fn 0x01600038 false fun d =>
    let r := Ops.dumpNext d
    Ops.emit r.1 (.read fn 0x01600038 (some r.2))
/-- DUMP_START (R497). -/
def execDumpStart (s : State) : Host.Outcome State Fault Refusal :=
  Ops.run s fun d => Ops.access d 0 0x01600030 true Ops.dumpStart

end Sys2Proof.Machine
end

