-- ==== Sys2Proof/Machine/Prov.lean ====
section
/-!
DEFINITION. Prov.lean: the fuses (R479) and the start of a base load (R475).
-/
namespace Sys2Proof.Machine
namespace Ops

/-- `CFG_BOOT_STAT.STATE`: 0 PRELOAD, 1 LOADING, 2 INSTALLING, 3 READY. -/
def bootState (d : Dev) : Nat := rd d Reg.cfgBootStatState

/-- A base load starts: MEM's gate is turned ON for the boot staging area (R475, R476). `src`: 1 flash A, 2 flash B,
3 `CFG_LOAD_CTL`. -/
def startLoad (d : Dev) (src : Nat) : Dev :=
  gateBit { wr d Reg.cfgBootStatState 1 with cfg := { d.cfg with loading := some src } } 15 true

/-- A write of `CFG_LOAD_CTL` (R475). -/
def cfgLoad (d : Dev) (data : Nat) : Dev :=
  let d := wr d Reg.cfgLoadCtlSrc (bits data 1 2)
  if !bit data 0 then d
  else if bootState d = 0 then startLoad d 3
  else if bootState d = 3 then wr d Reg.cfgBootStatRej 1
  else d

/-- What a provisioning operation would set is already set: RESULT 2. -/
def provSet (d : Dev) (op slot value : Nat) : Bool :=
  match op with
  | 1 => bit d.sec.programmed slot
  | 2 => bit d.sec.revoked slot
  | 3 => d.sec.imgKey.isSome
  | _ => decide (value ≤ d.sec.svn)

/-- SEC accepts the operation now (R479): in PRELOAD, or RAISE_SVN up to the SVN of the installed base image; slot 0 is neither
written nor revoked. -/
def provAllowed (d : Dev) (op slot value : Nat) : Bool :=
  (bootState d == 0 || (op == 4 && decide (value ≤ rd d Reg.cfgImgSvnSvn))) &&
  !((op == 1 || op == 2) && slot == 0)

/-- The provisioning data: 48 bytes. -/
def provData (d : Dev) : Bytes := (tab 12 fun i => leBytes 4 (rd d (Reg.secProvDataData i))).flatten

/-- A write of `SEC_PROV_CTL` (R479). A write while BUSY is ignored. -/
def provWrite (d : Dev) (data : Nat) : Dev :=
  let op := bits data 0 3
  let slot := bits data 3 2
  let value := bits data 5 6
  if !bit data 11 ∨ op = 0 ∨ 4 < op ∨ rdB d Reg.secProvStatBusy then d
  else if !provAllowed d op slot value then wr d Reg.secProvStatResult 1
  else if provSet d op slot value then wr d Reg.secProvStatResult 2
  else { wr d Reg.secProvStatBusy 1 with sec := { d.sec with prov := some (op, slot, value, provData d) } }

/-- The word of `SEC_PROV_CTL` that asks for an operation. -/
def provWord (op slot value : Nat) : Nat := put op 0 3 + put slot 3 2 + put value 5 6 + put 1 11 1

/-- The fuses after an operation. -/
def fused (s : Sec) (op slot value : Nat) (data : Bytes) : Sec :=
  match op with
  | 1 => { s with roots := tab 4 fun k => if k = slot then data else s.roots.getD k [], programmed := s.programmed ||| 2 ^ slot }
  | 2 => { s with revoked := s.revoked ||| 2 ^ slot }
  | 3 => { s with imgKey := some (data.take 32) }
  | _ => { s with svn := value }

/-- Fuse programming ends (R479). -/
def fuseDone (d : Dev) (ok : Bool) : Dev :=
  match d.sec.prov with
  | none => d
  | some (op, slot, value, data) =>
    let d := wrs d [(Reg.secProvStatBusy, 0), (Reg.secProvStatResult, if ok then 0 else 3)]
    { d with sec := if ok then { fused d.sec op slot value data with prov := none } else { d.sec with prov := none } }

end Ops

/-- WRITE_ROOT (R479). -/
def execWriteRoot (slot : Nat) (s : State) : Host.Outcome State Fault Refusal :=
  Ops.run s fun d => Ops.access d 0 0x01700440 true fun d => Ops.provWrite d (Ops.provWord 1 slot 0)
/-- REVOKE_ROOT (R479). -/
def execRevokeRoot (slot : Nat) (s : State) : Host.Outcome State Fault Refusal :=
  Ops.run s fun d => Ops.access d 0 0x01700440 true fun d => Ops.provWrite d (Ops.provWord 2 slot 0)
/-- WRITE_IMG_KEY (R479). -/
def execWriteImgKey (s : State) : Host.Outcome State Fault Refusal :=
  Ops.run s fun d => Ops.access d 0 0x01700440 true fun d => Ops.provWrite d (Ops.provWord 3 0 0)
/-- RAISE_SVN (R479). -/
def execRaiseSvn (val : Nat) (s : State) : Host.Outcome State Fault Refusal :=
  Ops.run s fun d => Ops.access d 0 0x01700440 true fun d => Ops.provWrite d (Ops.provWord 4 0 val)
/-- FUSE_PROGRAM_DONE (R479). -/
def execFuseProgramDone (ok : Bool) (s : State) : Host.Outcome State Fault Refusal :=
  Ops.run s fun d => Ops.fuseDone d ok
/-- CFG_LOAD (R475). -/
def execCfgLoad (data : Word) (s : State) : Host.Outcome State Fault Refusal :=
  Ops.run s fun d => Ops.access d 0 0x0020000C true fun d => Ops.cfgLoad d data.toNat

end Sys2Proof.Machine
end

