-- ==== Sys2Proof/Machine/Qnt.lean ====
section
/-!
DEFINITION. Qnt.lean: holds of adaptation (R163) and snapshots of tensor records (R166, R167).
-/
namespace Sys2Proof.Machine
namespace Ops

/-- A write to `QNT_HOLD` (R163). -/
def qntHold (d : Dev) (fn data : Nat) : Dev :=
  let slot := bits data 0 8
  let t := bits data 8 8
  match find? (curCfg d).models slot with
  | some m =>
    if ownsSlot d fn slot ∧ t < m.tensors.length then
      each (List.range 8) d fun d p =>
        { d with qnt := modify d.qnt (recKey m p t) fun r => { r with held := bit data 16 } }
    else tick (wr d (portF (copyNo fn) Reg.qntHoldStatRej) 1) Ctr.qntHoldRej
  | none => tick (wr d (portF (copyNo fn) Reg.qntHoldStatRej) 1) Ctr.qntHoldRej

/-- The record that a selection names: of the slot's current epoch, for a function that may name the slot. -/
def qntSelect (d : Dev) (fn data : Nat) : Option (Nat × TensorRec) :=
  let slot := bits data 3 8
  match find? (curCfg d).models slot with
  | some m =>
    let k := recKey m (bits data 0 3) (bits data 11 8)
    if ownsSlot d fn slot ∧ bits data 11 8 < m.tensors.length then (find? d.qnt k).map fun r => (k, r) else none
  | none => none

/-- A write to `QNT_SEL`: the snapshot of the record, and its clearing (R166, R167). Of an invalid selection only VALID is
stated, and AMAX_E only while AMAX_ZERO = 0; the other values are free (log entry 4). -/
def qntSnapshot (d : Dev) (fn data : Nat) (clear : Bool) : Dev :=
  let p := fun f => portF (copyNo fn) f
  let d := wrs d [(p Reg.qntSelPipe, bits data 0 3), (p Reg.qntSelSlot, bits data 3 8), (p Reg.qntSelTensor, bits data 11 8)]
  match qntSelect d fn data with
  | none =>
    let f := fresh d
    let d := wrs f.2 [(p Reg.qntTsStatValid, 0), (p Reg.qntTsStatScale, bits f.1 0 6), (p Reg.qntTsStatHeld, bits f.1 6 1),
      (p Reg.qntTsStatAdapt, bits f.1 7 1), (p Reg.qntTsStatFmt, bits f.1 8 4), (p Reg.qntTsStatAmaxE, bits f.1 12 9),
      (p Reg.qntTsStatAmaxZero, bits f.1 21 1), (p Reg.qntTsIntvDone, bits f.1 22 21), (p Reg.qntTsIsatSat, bits f.1 43 21)]
    each (List.range 12) d fun d i => wr d (p (Reg.qntTsValWord i)) (bits f.1 (64 + 32 * i) 32)
  | some (k, r) =>
    let f := fresh d
    let d := wrs f.2 [(p Reg.qntTsStatValid, 1), (p Reg.qntTsStatScale, uns 6 r.scale), (p Reg.qntTsStatHeld, b2n r.held),
      (p Reg.qntTsStatAdapt, b2n r.desc.adapt), (p Reg.qntTsStatFmt, r.desc.fmt),
      (p Reg.qntTsStatAmaxE, (match r.amax with | some e => uns 9 e | none => f.1)), (p Reg.qntTsStatAmaxZero, b2n r.amax.isNone),
      (p Reg.qntTsIntvDone, r.count), (p Reg.qntTsIsatSat, r.isat)]
    let vals := [r.sat, r.nanZero, r.flush, r.range, r.sse, r.mseCnt]
    let d := each (List.range 6) d fun d i =>
      wr64 d (p (Reg.qntTsValWord (2 * i))) (p (Reg.qntTsValWord (2 * i + 1))) (vals.getD i 0)
    if clear then
      { d with qnt := set d.qnt k { r with sat := 0, nanZero := 0, flush := 0, range := 0, sse := 0, mseCnt := 0 } }
    else d

end Ops

/-- QNT_HOLD (R163). -/
def execQntHold (fn : Fn) (data : Word) (s : State) : Host.Outcome State Fault Refusal :=
  Ops.run s fun d => Ops.access d fn.val 0x00900080 true fun d => Ops.qntHold d fn.val data.toNat
/-- QNT_SNAPSHOT (R166, R167). -/
def execQntSnapshot (fn : Fn) (data : Word) (s : State) : Host.Outcome State Fault Refusal :=
  Ops.run s fun d => Ops.access d fn.val 0x00900000 true fun d => Ops.qntSnapshot d fn.val data.toNat false
/-- QNT_SNAPSHOT_CLEAR (R166, R167). -/
def execQntSnapshotClear (fn : Fn) (data : Word) (s : State) : Host.Outcome State Fault Refusal :=
  Ops.run s fun d => Ops.access d fn.val 0x00900000 true fun d => Ops.qntSnapshot d fn.val data.toNat true

end Sys2Proof.Machine
end

