-- ==== Sys2Proof/Machine/Time.lean ====
section
/-!
DEFINITION. Time.lean: the time base (R138 to R142), and what one CLK_TIME cycle does.
-/
namespace Sys2Proof.Machine
namespace Ops

/-- The largest part of the remaining slew that one cycle takes, in 2^-32 ns (R139). -/
def slewStep : Int := 4294967

/-- σ of a cycle with `r` of slew remaining (R139). -/
def sigmaOf (r : Int) : Int := if r > slewStep then slewStep else if r < -slewStep then -slewStep else r

/-- ADJ (R139). -/
def tbAdj (d : Dev) : Int := sgn 32 (rd d Reg.clkTbAdjRate)

/-- One CLK_TIME cycle (R139); twelve of them make a super-cycle (R413). -/
def timeTick (d : Dev) : Dev :=
  let x := sigmaOf d.tb.slew
  let r := d.tb.slew - x
  let d := wr d Reg.clkTbStatSlewActive (b2n (decide (r ≠ 0)))
  { d with
    tb := { d.tb with t := (d.tb.t + (2 ^ 32 + tbAdj d + x).toNat) % 2 ^ 96, slew := r, cycles := d.tb.cycles + 1 }
    clk := { d.clk with boundary := (d.tb.cycles + 1) / 12 } }

/-- Adds to the remaining slew (R140). -/
def addSlew (d : Dev) (ns : Int) : Dev :=
  let r := d.tb.slew + ns * 2 ^ 32
  wr { d with tb := { d.tb with slew := r } } Reg.clkTbStatSlewActive (b2n (decide (r ≠ 0)))

/-- A step is written (R140): a positive one is armed, beside what is armed already; a negative one joins the slew. -/
def stepWrite (d : Dev) (hi : Nat) : Dev :=
  let n := sgn 64 (rd d Reg.clkTbStepLoNs + 2 ^ 32 * hi)
  if n < 0 then addSlew d n
  else if n = 0 then d
  else wr { d with tb := { d.tb with step := some (d.tb.step.getD 0 + n) } } Reg.clkTbStatStepPend 1

/-- The super-cycle boundary at which an armed step is added (R140); it may close a Signet interval (R454). -/
def stepApply (d : Dev) : Dev :=
  match d.tb.step with
  | some n =>
    let x := wr { d with tb := { d.tb with t := (d.tb.t + n.toNat * 2 ^ 32) % 2 ^ 96, step := none } } Reg.clkTbStatStepPend 0
    signetStep x (now d)
  | none => d

/-- A rising edge on a GPIO pin (R141). -/
def ppsEdge (d : Dev) (pin : Nat) : Dev :=
  if rdB d Reg.clkTbCtlPpsEn ∧ rd d Reg.clkTbCtlPpsGpio = pin then
    wr64 (wr d Reg.clkTbStatPpsValid 1) Reg.clkTbPpsLoNs Reg.clkTbPpsHiNs (now64 d)
  else d

end Ops

/-- TB_STEP_WRITE (R140). -/
def execTbStepWrite (hi : Word) (s : State) : Host.Outcome State Fault Refusal :=
  Ops.run s fun d => Ops.access d 0 0x00100814 true fun d => Ops.stepWrite d hi.toNat
/-- TB_STEP_APPLY (R140). -/
def execTbStepApply (s : State) : Host.Outcome State Fault Refusal := Ops.run s Ops.stepApply
/-- TB_SLEW_WRITE (R140). -/
def execTbSlewWrite (ns : Word) (s : State) : Host.Outcome State Fault Refusal :=
  Ops.run s fun d => Ops.access d 0 0x00100818 true fun d => Ops.addSlew d (Ops.sgn 32 ns.toNat)
/-- PPS_EDGE (R141). -/
def execPpsEdge (gpio : Nat) (s : State) : Host.Outcome State Fault Refusal := Ops.run s fun d => Ops.ppsEdge d gpio

end Sys2Proof.Machine
end

