-- ==== Sys2Proof/Machine/Bus.lean ====
section
/-!
DEFINITION. Bus.lean: the register bus: what a write to each register does beyond its fields, reads with an effect, MSI-X tables
(R5, R9 to R11, R232, R286, R341, R342, R503 to R506).
-/
namespace Sys2Proof.Machine
namespace Ops

/-! ### Writes with an effect of their own

Each function answers the effect of a write of `data` at PF BAR0 address `a`, or `none` where only the fields change. -/

/-- CLK/PWR and TOP. UNSYNCED stays set while the fallback runs (R6, R142). -/
def writeClk (d : Dev) (a data : Nat) : Option Dev :=
  if a = 0x100 then some (gateWrite d false data)
  else if a = 0x104 then some (gateWrite d true data)
  else if a = 0x100004 then some (sourceWrite d data)
  else if a = 0x100104 ∨ a = 0x100114 ∨ a = 0x100124 then some (dvfsWrite d ((a - 0x100104) / 16) (data % 8))
  else if a = 0x100200 then some (domWrite d data)
  else if a = 0x100814 then some (stepWrite d data)
  else if a = 0x100818 then some (addSlew d (sgn 32 data))
  else if a = 0x10081C then some (writeFlds d a 0 (if rdB d Reg.clkTbStatFallback ∧ bit data 1 then data - 2 else data))
  else none

/-- A write of `CFG_REFIT_POL_s` (R263, R264): a target that the model lacks is refused. -/
def polWrite (d : Dev) (s data : Nat) : Dev :=
  let t := bits data 1 1
  let n := bits data 2 16
  let d := if (refitPart d s t).isSome then wr d (Reg.cfgRefitPolTarget s) t else d
  let d := if n = 0 then d else wr d (Reg.cfgRefitPolInterval s) n
  polEnable d s (bit data 0)

/-- GO of a graft port (R269). -/
def graftSubmit (d : Dev) (p data : Nat) : Dev :=
  if !bit data 0 ∨ rdB d (portF p Reg.grfStatusBusy) then d
  else if !loaded d then wr d (portF p Reg.grfStatusNotLoaded) 1
  else
    let d := wrs d [(portF p Reg.grfStatusCode, 1), (portF p Reg.grfStatusBusy, 1), (portF p Reg.grfStatusStage, 1)]
    { d with grf := { d.grf with queue := d.grf.queue ++ [p] } }

/-- CFG and GRF; `fn` is the function, `copy` its copy of a register. -/
def writeCfg (d : Dev) (fn copy a data : Nat) : Option Dev :=
  if a = 0x20000C then some (cfgLoad d data)
  else if 0x204000 ≤ a ∧ a < 0x204400 then some (assignSlot d ((a - 0x204000) / 4) (bits data 0 6) (bit data 6))
  else if 0x205000 ≤ a ∧ a < 0x205800 ∧ a % 8 = 0 then some (polWrite d ((a - 0x205000) / 8) data)
  else if a = 0x205C00 then
    some (if bit data 8 then polCommit d fn (data % 256) else if bit data 9 then polDiscard d fn (data % 256) else d)
  else if a = 0x301010 then some (graftSubmit d copy data)
  else none

/-- A write of the control register of a link: ENABLE as far as it changes, then RETRAIN; the event of the DOWN row stands as long as its
condition holds (R62). Signal is an event of its own. -/
def linkWrite (d : Dev) (k : LinkId) (data : Nat) : Dev :=
  let on := bit data 0
  let d := if lEnabled d k = on then d else if on then wr d (linkRegs k).1 1 else lDisable d k
  lTry (if bit data 1 then lRetrain d k else d) k

/-- A port's control register: a port that does not exist ignores writes; one that is disabled goes down (R39). -/
def portWrite (d : Dev) (n copy a data : Nat) : Dev :=
  if portCount d ≤ n then d
  else
    let d := writeFlds d a copy data
    if bit data 0 then d else wr d (Reg.prtPortStatLinkUp n) 0

/-- PRT and STM. -/
def writePort (d : Dev) (copy a data : Nat) : Option Dev :=
  if 0x400100 ≤ a ∧ a < 0x400180 then some (portWrite d ((a - 0x400100) / 4) copy a data)
  else if 0x400200 ≤ a ∧ a < 0x400280 then
    some (if bit data 0 then wr d (Reg.prtLaneCtlRecalBusy ((a - 0x400200) / 4)) 1 else d)
  else if a = 0x500000 then some (linkWrite (wr d Reg.stmCtlAllow8lane (bits data 2 1)) .stem data)
  else if a = 0x500010 then some (windowWrite d data)
  else none

/-- FLW, QNT, ESP and MXT; an index of the learn log outside the ring leaves `FLW_LOG_RD` as it is, and
records that are left have their task (R109). -/
def writePath (d : Dev) (fn copy a data : Nat) : Option Dev :=
  if a = 0x700100 then some (flwCmd d false data)
  else if a = 0x70005C then
    some (if data % 2 ^ 20 < rd d Reg.flwLogCfgEntries then logPost (wr d Reg.flwLogRdIndex (data % 2 ^ 20)) else d)
  else if a = 0x700040 then
    let d := writeFlds d a copy data
    some (if bit data 1 then snapShadow d else d)
  else if a = 0x900000 then some (qntSnapshot d fn data (bit data 19))
  else if a = 0x900080 then some (qntHold d fn data)
  else if a = 0xA00200 then some (bankCmd d fn (data % 256) 0 (bit data 8) (bit data 9))
  else if a = 0xB00200 then some (bankCmd d fn (data % 256) 1 (bit data 8) (bit data 9))
  else none

/-- Cores that still exist, of the 32 in a word of a class mask (R240). -/
def coresLeft (d : Dev) (w : Nat) : Nat :=
  ((List.range 32).map fun i => b2n (!unitRemoved d 17 (32 * (w % 2) + i)) * 2 ^ i).sum

/-- SPR. -/
def writeSpr (d : Dev) (copy a data : Nat) : Option Dev :=
  if 0xC00200 ≤ a ∧ a < 0xC00240 then some (writeFlds d a copy (data &&& coresLeft d ((a - 0xC00200) / 4)))
  else if 0xC00400 ≤ a ∧ a < 0xC00500 then
    let c := (a - 0xC00400) / 4
    let d := if bit data 0 then drainCore d c else wr d (Reg.sprCoreCtlDrain c) 0
    some (if bit data 1 then startCore d c else d)
  else if a = 0xC00810 then some (if bit data 0 then fwGo d else d)
  else if a = 0xC0091C then some (pfPost d data)
  else if 0xC02000 ≤ a ∧ a < 0xC02400 ∧ a % 16 = 4 then some (h2c d ((a - 0xC02000) / 16) data)
  else none

/-- Queues whose SAMPLE_EN reads 1 as written last, but for `q` (R310). -/
def samplers (d : Dev) (q : Nat) : Nat :=
  let ks := ((d.regs.map (·.1)) ++ d.shadow.map (·.1)).eraseDups
  (ks.filter fun k => 2 ^ 50 ≤ k && k % 2 ^ 50 == Reg.tmgQCfg0SampleEn.key && k != (objF q Reg.tmgQCfg0SampleEn).key &&
    shd d { Reg.tmgQCfg0SampleEn with key := k } == 1).length

/-- A write of `TMG_Q_CFG0`: at most 65,536 queues are sampled (R310). -/
def queueWrite (d : Dev) (copy a data : Nat) : Dev :=
  if bit data 30 ∧ 65536 ≤ samplers d (rd d Reg.tmgQSelQueue) then
    wr (writeFlds d a copy (data - 2 ^ 30)) Reg.tmgSampleCfgFull 1
  else writeFlds d a copy data

/-- A write to channel `c`'s block at `o` (R344 to R351). -/
def chanWrite (d : Dev) (copy c o data : Nat) : Dev :=
  let a := chAddr c o
  if o = 0x0C then tailWrite d c (data % 65536)
  else if o = 0x14 then
    if bit data 2 then chIdle (wr d (Reg.dmaChCtlEnable c) (data % 2)) c
    else
      let d := if bit data 0 then chEnable d c else chDisable d c
      if bit data 1 then chResume d c else d
  else if [0x00, 0x04, 0x20, 0x24, 0x28, 0x30].contains o ∧ chState d c ≠ 0 then d
  else writeFlds d a copy data

/-- TMG and DMA. -/
def writeQueue (d : Dev) (fn copy a data : Nat) : Option Dev :=
  if a = 0xE00104 then some (queueWrite d copy a data)
  else if a = 0xE00410 then some (queueSnapshot d fn data (bit data 20))
  else if 0x1010000 ≤ a ∧ a < 0x1050000 then some (chanWrite d copy ((a - 0x1010000) / 64) (a % 64) data)
  else none

/-- JOIN written through the bus: what the partner sends in the comparison is not the write's own, so that its outcome and the
survivor's epoch are open (R392; log entry 19). The device that is ALONE survives. -/
def joinOpen (d : Dev) : Dev :=
  if !gateOn d 19 ∨ (clpState d ≠ 0 ∧ clpState d ≠ 4) ∨ (clpLink d).isNone then d
  else
    let f := fresh d
    if bit f.1 0 then { f.2 with clp := { f.2.clp with join := some (clpState d == 4, bits f.1 1 8) } }
    else irq (wr f.2 Reg.clpStatJoinFail 1) Reg.clpIrqEn Reg.clpIrqVector

/-- TRL, CLP and FLT. -/
def writeGroup (d : Dev) (a data : Nat) : Option Dev :=
  if 0x1200010 ≤ a ∧ a < 0x1200020 then some (linkWrite d (.trl (Fin.ofNat 4 ((a - 0x1200010) / 4))) data)
  else if a = 0x1200050 then some (steerSnapshot d data)
  else if a = 0x1300008 then
    let d := if bit data 0 then joinOpen d else d
    some (if bit data 1 then takeoverWrite d else d)
  else if 0x1300028 ≤ a ∧ a < 0x1300030 then some (linkWrite d (.clp (Fin.ofNat 2 ((a - 0x1300028) / 4))) data)
  else if a = 0x1400008 then some (if bit data 0 then holdRelease d else d)
  else if a = 0x140000C then some (faultInject d data)
  else none

/-- SGN, LPE and SEC. -/
def writeLast (d : Dev) (copy a data : Nat) : Option Dev :=
  if a = 0x1500000 then
    let d := wr d Reg.sgnCtlLedgerEn (data % 2)
    some (if bit data 1 then calLoad d else d)
  else if (a = 0x1500030 ∨ a = 0x1500034) ∧ rdB d Reg.sgnCtlLedgerEn then some d
  else if 0x1500400 ≤ a ∧ a < 0x1500C00 ∧ a % 32 < 8 ∧ rdB d (Reg.sgnRlogCfgEn ((a - 0x1500400) / 32)) then some d
  else if a = 0x1600000 then
    let lock := rdB d Reg.lpeCfgJtagLock
    -- what the bucket has taken so far came at the rate before the write (R483)
    let d := writeFlds (budget d) a copy data
    some (if lock then wr d Reg.lpeCfgJtagLock 1 else d)
  else if a = 0x1600020 then some (freezeWrite d data 2)
  else if a = 0x1600030 then some (if bit data 0 then dumpStart d else d)
  else if (a = 0x1600044 ∨ a = 0x1600048) ∧ rdB d Reg.lpeSampleCfgEn then some d
  else if a = 0x1700440 then some (provWrite d data)
  else none

/-- What a write lands as, at a register of PF BAR0. -/
def landWrite (d : Dev) (fn copy a data : Nat) : Dev :=
  let k := a / 0x100000
  let t := if k ≤ 1 then writeClk d a data
    else if k ≤ 3 then writeCfg d fn copy a data
    else if k ≤ 5 then writePort d copy a data
    else if k ≤ 11 then writePath d fn copy a data
    else if k = 12 then writeSpr d copy a data
    else if k ≤ 17 then writeQueue d fn copy a data
    else if k ≤ 20 then writeGroup d a data
    else writeLast d copy a data
  t.getD (writeFlds d a copy data)

/-! ### MSI-X tables (R341, R342) -/

/-- A word of a function's MSI-X table is written; an entry that is unmasked sends what is pending. Pending bits are the
device's. -/
def msixWrite (d : Dev) (fn w data : Nat) : Dev :=
  let fn := copyNo fn
  let vec := w / 4
  let d := { d with hif := { d.hif with msixTab := set d.hif.msixTab ((fn * 2048 + vec) * 4 + w % 4) data } }
  if w % 4 = 3 ∧ !bit data 0 ∧ d.hif.msixPend.contains (fn * 2048 + vec) ∧ d.hif.msixEn.contains fn then
    emit { d with hif := { d.hif with msixPend := d.hif.msixPend.filter (· != fn * 2048 + vec) } } (.msix fn vec)
  else d

/-- A word of the pending bit array. -/
def pbaWord (d : Dev) (fn w : Nat) : Nat :=
  ((List.range 32).map fun i => b2n (d.hif.msixPend.contains (copyNo fn * 2048 + 32 * w + i)) * 2 ^ i).sum

/-! ### Accesses -/

/-- The register at `a` has RWS fields (R5). -/
def hasRws (a : Nat) : Bool := match rowAt a with | some r => r.flds.any (·.acc == .rws) | none => false

/-- A function writes a word at an offset of its BAR0. A write of an RWS register that reaches it in the copy cycle of its channel is
stalled: it counts, and lands whole in the shadow after the copy (R285). -/
def regWrite (d : Dev) (fn off data : Nat) (stall : Bool) : Dev :=
  match locate d fn off with
  | .reg a copy =>
    access d fn a true fun d =>
      if 0 < fn ∧ fn < 64 ∧ vfReadOnly a then d
      else landWrite (tickIf (stall && hasRws a) d Ctr.grfHandoverStall) fn copy a data
  | .msix w => if !reaches d fn then d else msixWrite d fn w data
  | _ => d

/-- `HIF_VF_INFO` of VF `n` (R506). -/
def vfInfo (d : Dev) (n : Nat) : Nat :=
  n % 64 + put ((List.range 64).filter fun l => (localChan d n l).isSome).length 6 7

/-- A read of PF BAR0 with its effects: a mailbox HI word frees its slot (R234), but not while SPR is frozen (R491); the dump port advances
(R497). -/
def landRead (d : Dev) (fn key copy a : Nat) : Dev × Nat :=
  if 0xC02000 ≤ a ∧ a < 0xC02400 ∧ a % 16 = 12 ∧ !frozen d then
    let c := (a - 0xC02000) / 16
    let v := readReg d a copy
    (setCore d c { core d c with c2h := none }, v)
  else if a = 0x1600038 ∧ tenantOf fn = 0 then dumpNext d
  else readAt d key a copy

/-- A read by a function; `key` is the path whose latches it uses (R10, R482). The value is an output; `none` = a bus error, which
`access` records. -/
def regRead (d : Dev) (fn key off : Nat) : Dev :=
  let out := fun (r : Dev × Nat) => emit r.1 (.read fn off (some r.2))
  match locate d fn off with
  | .reg a copy => access d fn a false fun d => out (landRead d fn key copy a)
  | .info => if !reaches d fn then d else out (d, vfInfo d fn)
  | .msix w => if !reaches d fn then d else out (d, msixWord d (copyNo fn) (w / 4) (w % 4))
  | .pba w => if !reaches d fn then d else out (d, pbaWord d fn w)
  | .none => if !reaches d fn then d else out (d, 0)

/-! ### The register window of a sprig core (R232, R233) -/

/-- Apertures that the window reaches. -/
def coreReaches (a : Nat) : Bool := [7, 8, 9, 10, 11, 13, 14, 15, 16].contains (a / 0x100000)

/-- Registers of the second FLW command port. -/
def portReg (a : Nat) : Bool := (decide (0x700100 ≤ a) && decide (a < 0x700168)) || (decide (0x700180 ≤ a) && decide (a < 0x700200))

/-- Registers of a DMA channel that the bit-stream has not assigned to SPR, and every `DMA_CH_OWNER` (R232, log entry 151). -/
def foreignChan (d : Dev) (a : Nat) : Bool :=
  decide (0x1010000 ≤ a ∧ a < 0x1050000) &&
    (rd d (Reg.dmaChOwnerOwner ((a - 0x1010000) / 64)) != 64 || decide (0x30 ≤ a % 64))

/-- A core's access to its register window: an access fault outside the apertures, or a bus error (R11, R232). A 64-bit counter
is read with a latch of the core's own, 66 + `c`, which the spec does not give it (DESIGN CHOICE, log entry 150). -/
def coreWindow (d : Dev) (c a : Nat) (w : Option Nat) : Dev :=
  if !coreReaches a then accessFault d c (0x40000000 + a) w.isSome
  else match w with
  | some data =>
    access d 64 a true fun d =>
      if a = 0x700100 then flwCmd d true data
      else if portReg a then
        (match rowAt a with
         | some r => each r.flds d fun d f => if f.acc = .rw then portWr d true (.at a f.lo f.w f.rst) (bits data f.lo f.w) else d
         | none => d)
      else if foreignChan d a then d else landWrite d 64 0 a data
  | none =>
    access d 64 a false fun d =>
      if portReg a then
        emit d (.core c (0x40000000 + a) (match rowAt a with
          | some r => (r.flds.map fun f => if f.acc = .wo then 0 else put (portRd d true (.at a f.lo f.w f.rst)) f.lo f.w).sum
          | none => 0))
      else
        let r := landRead d 64 (66 + c) 0 a
        emit r.1 (.core c (0x40000000 + a) r.2)

/-- The part of a core's address map that an address lies in (R232): local SRAM, the control page, the register window, the fabric
window. -/
inductive CorePlace where
  | sram (a : Nat)
  | page (off : Nat)
  | window (a : Nat)
  | fabric (a : Nat)
  | outside
  deriving DecidableEq, Repr

def corePlace (a : Nat) : CorePlace :=
  if a < 0x100000 then .sram a
  else if a < 0x101000 then .page (a - 0x100000)
  else if 0x40000000 ≤ a ∧ a < 0x41800000 then .window (a - 0x40000000)
  else if 0x100000000000 ≤ a ∧ a < 0x100000000000 + 0x1200000000 then .fabric (a - 0x100000000000)
  else .outside

/-- A core's load of `n` bytes. A poisoned line is an uncorrectable error of the core (R239, log entry 152); words of the control page
that the spec does not give hold a free value (log entry 151). -/
def coreLoad (d : Dev) (c addr n : Nat) : Dev :=
  match corePlace addr with
  | .sram a => emit d (.core c addr (le (core d c).sram a n))
  | .page off =>
    match (core d c).claimed with
    | some (t, _) =>
      if off = 8 ∨ off = 16 ∨ off = 24 then emit d (.core c addr (taskBody t off))
      else let f := fresh d; emit f.2 (.core c addr (f.1 % 2 ^ (8 * n)))
    | none => let f := fresh d; emit f.2 (.core c addr (f.1 % 2 ^ (8 * n)))
  | .window a => coreWindow d c a none
  | .fabric a =>
    if !reachable d a then accessFault d c addr false
    else
      let r := fabRead d a n
      if r.2.2 then coreFail r.1 c else emit r.1 (.core c addr (le r.2.1 0 n))
  | .outside => accessFault d c addr false

/-- A core's store. -/
def coreStore (d : Dev) (c addr : Nat) (b : Bytes) : Dev :=
  match corePlace addr with
  | .sram a => sramStore d c a b
  | .page _ => d
  | .window a => coreWindow d c a (some (le b 0 4))
  | .fabric a => if !reachable d a then accessFault d c addr true else fabWrite d a b
  | .outside => accessFault d c addr true

/-- What the firmware of a core that runs does (R227, R232, R234). -/
def coreOp (d : Dev) (c addr : Nat) (op : CoreOp) : Dev :=
  if !coreRuns d c then d else
  match op with
  | .load n => coreLoad d c addr n
  | .store b => coreStore d c addr b
  | .mtime => emit d (.mtime c (now64 d))
  | .timer cmp => setCore d c { core d c with timer := some cmp }
  | .irq => coreTimer d c
  | .post cls tenant slot epoch arg0 arg1 => corePost d cls tenant slot epoch arg0 arg1

end Ops

/-- REGISTER_WRITE (R5). -/
def execRegisterWrite (fn : Fn) (addr : Nat) (data : Word) (s : State) : Host.Outcome State Fault Refusal :=
  Ops.run s fun d => Ops.regWrite d fn.val addr data.toNat false
/-- RWS_WRITE (R285, R286). -/
def execRwsWrite (fn : Fn) (addr : Nat) (data : RwsData) (s : State) : Host.Outcome State Fault Refusal :=
  Ops.run s fun d => Ops.regWrite d fn addr data.word.toNat data.stall
/-- RC_READ (R5). -/
def execRcRead (fn : Fn) (addr : Nat) (s : State) : Host.Outcome State Fault Refusal :=
  Ops.run s fun d => Ops.regRead d fn.val fn.val addr
/-- COUNTER_LOW_READ (R10). -/
def execCounterLowRead (fn : Fn) (addr : Nat) (s : State) : Host.Outcome State Fault Refusal :=
  Ops.run s fun d => Ops.regRead d fn fn addr
/-- COUNTER_HIGH_READ (R10). -/
def execCounterHighRead (fn : Fn) (addr : Nat) (s : State) : Host.Outcome State Fault Refusal :=
  Ops.run s fun d => Ops.regRead d fn fn.val addr
/-- GATED_BLOCK_ACCESS (R11): a write where `wr` gives a word, else a read. -/
def execGatedBlockAccess (fn : Fn) (addr : Nat) (wr : Option Word) (s : State) : Host.Outcome State Fault Refusal :=
  Ops.run s fun d => match wr with
    | some w => Ops.regWrite d fn addr w.toNat false
    | none => Ops.regRead d fn fn addr
/-- REGISTER_WINDOW_ACCESS (R232): with the other accesses of a core (R227, R229, R234). -/
def execRegisterWindowAccess (core : CoreNo) (addr : Nat) (op : CoreOp) (s : State) : Host.Outcome State Fault Refusal :=
  Ops.run s fun d => Ops.coreOp d core addr op
/-- ERROR_INJECT_ARM (R337). -/
def execErrorInjectArm (data : Word) (s : State) : Host.Outcome State Fault Refusal :=
  Ops.run s fun d => Ops.access d 0 0x00F00408 true fun d => Ops.writeFlds d 0x00F00408 0 data.toNat
/-- GRAFT_SUBMIT (R269). -/
def execGraftSubmit (fn : Fn) (data : Word) (s : State) : Host.Outcome State Fault Refusal :=
  Ops.run s fun d => Ops.access d fn 0x00301010 true fun d => Ops.graftSubmit d (Ops.copyNo fn) data.toNat

end Sys2Proof.Machine
end

