-- ==== Sys2Proof/Machine/Stage.lean ====
section
/-!
DEFINITION. Stage.lean: the items of a graft (R266, R267): what each does in the new epoch, and its checks against the device as the
earlier items of the same graft would leave it (R270, R271).

Staging works on a scratch copy of the device whose first epoch is the one that the graft would begin; what an item has replaced stays
behind it, so that its charges accumulate (R251, R270).
-/
namespace Sys2Proof.Machine
namespace Ops
open Img

/-! ### What the items do in the epoch in front -/

/-- A number that no load and no activation has had. -/
def newLoad (d : Dev) : Dev × Nat := ({ d with grf := { d.grf with loads := d.grf.loads + 1 } }, d.grf.loads + 1)

/-- The model of a slot takes tensor records in pipes that its packets newly come from, at S0 and with zero statistics (R159); a draining epoch
keeps those of an earlier activation. -/
def takeRecords (d : Dev) (slot pipes : Nat) : Dev :=
  match find? (curCfg d).models slot with
  | none => d
  | some m =>
    let x := newLoad d
    let m := { m with acts := tab 8 fun p => if bit pipes p then x.2 else m.acts.getD p m.loadNo }
    each ((List.range 8).filter (bit pipes)) (modCur x.1 fun c => { c with models := set c.models slot m }) fun d p =>
      each (List.range m.tensors.length) d fun d t => { d with qnt := set d.qnt (recKey m p t) (newRec (m.tensors.getD t default)) }

/-- An attached flow model takes its records in the pipes in which its host becomes active (R159, R256; log entry 29). -/
def takeAttached (d : Dev) (slot pipes : Nat) : Dev :=
  match attached (curCfg d) slot with
  | some f => takeRecords d f.1 pipes
  | none => d

/-- The pipes of `new` that are not in `old`. -/
def added (new old : Nat) : Nat := new &&& (255 ^^^ old)

/-- The slot's refit banks: kept where the structure stays (R189, R221). -/
def loadBanks (d : Dev) (slot : Nat) (old : Option Model) (m : Model) : Dev :=
  let keep := fun (part : Nat) => match old with
    | some o => o.structId == m.structId && bankSize o part == bankSize m part && (find? d.banks (2 * slot + part)).isSome
    | none => false
  each [0, 1] d fun d part =>
    if keep part then d else placeBank { d with banks := del d.banks (2 * slot + part) } slot part m

/-- `FLW_TURN_s` of the model current in the slot; zero without a turn descriptor (R208). -/
def turnTimes (d : Dev) (slot : Nat) (t : Option TurnDesc) : Dev :=
  wrs d [(Reg.flwTurnTu slot, match t with | some t => t.tu | none => 0),
    (Reg.flwTurnSlack slot, match t with | some t => t.slack | none => 0)]

/-- LOAD (R250, R256): a load gets a number of its own; its turn times become the slot's (R211). -/
def loadItem (d : Dev) (slot pipes : Nat) (m : Model) : Dev :=
  let old := find? (curCfg d).models slot
  let was := getD (curCfg d).active slot 0
  let x := newLoad d
  let m := { m with loadNo := x.2 }
  let d := modCur x.1 fun c => { c with models := set c.models slot m, active := setDef c.active slot 0 pipes }
  let d := turnTimes d slot m.turn
  let d := takeRecords (loadBanks d slot old m) slot (runPipes (curCfg d) slot m)
  polGone (takeAttached d slot (added pipes was)) slot

/-- REFIT (R193, R219): the placement not in use takes the shadow, and the new epoch uses it. -/
def refitModel (m : Model) (arg : Nat) (p : RefitPol) : Model :=
  if arg = 0 then match p.shadowEns with
    | some e => { m with placeEns := !m.placeEns, ens := some e, ensAlt := m.ens }
    | none => m
  else match p.shadowHead with
    | some l => { m with placeHead := !m.placeHead, headAlt := headLayer m
                         layers := m.layers.map fun x => if x.headRefit then l else x }
    | none => m

def refitItem (d : Dev) (slot arg : Nat) : Dev :=
  let p := refitOf d slot
  let d := modCur d fun c => { c with models := modify c.models slot fun m => refitModel m arg p }
  setRefit d slot (if arg = 0 then { p with shadowEns := none } else { p with shadowHead := none })

/-- The section takes effect, and its type's chain value takes the image's DIGEST (R478). -/
def sectionItem (d : Dev) (type : Nat) (b digest : Bytes) : Dev :=
  let d := match type with
    | 1 => deviceApply d b
    | 2 => (match layoutNow d (layoutsOf b) with | some l => installLayout d (layoutsOf b) l | none => d)
    | 3 => parseApply d b
    | 4 => rulesApply d b
    | 5 => winsApply d b
    | 6 => { d with cfg := { d.cfg with keys := keysOf b } }
    | _ => d
  { d with cfg := { d.cfg with chains := d.cfg.chains.modify (type - 1) fun t => Codes.sha256 (t ++ digest) } }

/-- An item takes effect in the epoch in front (R267). -/
def applyItem (d : Dev) (i : GItem) : Dev :=
  match i with
  | .load slot pipes m => loadItem d slot pipes m
  | .activate slot pipes =>
    let new := added pipes (getD (curCfg d).active slot 0)
    let d := modCur d fun c => { c with active := setDef c.active slot 0 pipes }
    takeAttached (takeRecords d slot new) slot new
  | .unload slot =>
    polGone (turnTimes (modCur d fun c => { c with models := del c.models slot, active := del c.active slot }) slot none) slot
  | .refit slot arg => refitItem d slot arg
  | .sect type b digest => sectionItem d type b digest
  | .regs l => each l d fun d p => landWrite d 0 0 p.1 p.2

/-- A new epoch begins with everything of the one before it (R83, R273). -/
def beginEpoch (d : Dev) (drain : Option Nat) : Dev :=
  let x := curNum d
  let y := (x + 1) % 256
  let take := fun (m : Map RuleEnt) => m.map fun p =>
    let e := if bit p.2.epochs (y % 4) then p.2.epochs - 2 ^ (y % 4) else p.2.epochs
    (p.1, { p.2 with epochs := if bit e (x % 4) then e + 2 ^ (y % 4) else e })
  { d with epochs := { num := y, cfg := curCfg d, drain := none } ::
             (d.epochs.map fun e => if e.num = x then { e with drain } else e)
           tcam := live (take d.tcam), em := live (take d.em) }

/-! ### Staging -/

/-- The scratch device of a graft: the new epoch in front. -/
def scratchOf (d : Dev) : Dev := beginEpoch d none

/-- An item takes effect on the scratch device; what it replaced stays behind. -/
def scratchApply (s : Dev) (i : GItem) : Dev :=
  applyItem { s with epochs := match s.epochs with | e :: r => e :: e :: r | [] => [] } i

/-- Why an item fails: its code, what follows the report, and whether it is a load that R246, R249 or R252 refuses (R265). -/
structure Bad where
  code : Nat
  more : Bytes
  refused : Bool

/-- A failure in the list itself (R271). -/
def listBad (off : Nat) : Bad := ⟨0x21, chkReport 0x21 off 0xFF 0, false⟩
/-- A failing item with an empty admission report. -/
def slotBusy (slot id : Nat) : Bad := ⟨0x12, admReport 0x12 slot id [], false⟩

/-- The port may name the slot (R249): it is assigned to the port's tenant, tenant 0 being the PF; the device's own ports name any
assigned one. -/
def slotOk (d : Dev) (port slot : Nat) : Bool :=
  rdB d (Reg.cfgSlotAssigned slot) && (64 ≤ port || rd d (Reg.cfgSlotOwner slot) == port)

/-- The list of the bits of a pipe mask. -/
def pipesOf (m : Nat) : List Nat := (List.range 8).filter (bit m)

/-- The host slot may take a flow model (R256): another slot, it holds a per-packet model of the same tenant, and no flow model is attached. -/
def hostOk (s : Dev) (slot host : Nat) : Bool :=
  host != slot &&
  (match find? (curCfg s).models host with | some h => !h.flowKind | none => false) && slotTenant s host == slotTenant s slot &&
  (curCfg s).models.all fun p => p.1 == slot || !(p.2.flowKind && p.2.host == host)

/-- Stages a LOAD (R246, R249, R252, R256), by a group graft where `group` (R376); `p` is the item's offset in its list. -/
def stageLoad (s : Dev) (port slot arg pipes p : Nat) (group : Bool) (b : Bytes) : Sum Bad GItem :=
  let t := slotTenant s slot
  let id := le b 12 4
  if !slotOk s port slot then .inl { slotBusy slot id with refused := true }
  -- a slot that no epoch but a draining one holds takes no load (R250; log entry 30)
  else if slotState s slot = 3 then .inl (slotBusy slot id) else
  let desc := fun i => match find? (curCfg s).descs i with | some w => w.tenant == t | none => false
  match checkModel s t desc (regionLines s) b with
  | .bad code off => .inl ⟨code, chkReport code off slot id, true⟩
  | .ok m =>
    let m := { m with group }
    if (m.flowKind && pipes != 0) then .inl (listBad (p + 4))
    else if (!m.flowKind && arg != 0) then .inl (listBad (p + 3))
    else if m.flowKind && !hostOk s slot arg then .inl (slotBusy slot id)
    else
      let l := loadShorts s t slot m (pipesOf (if m.flowKind then getD (curCfg s).active arg 0 else pipes))
      match shortCode l with
      | some c => .inl ⟨c, admReport c slot id l, true⟩
      | none => .inr (.load slot pipes { m with host := if m.flowKind then arg else 0 })

/-- Stages an ACTIVATE: the checks of the pipes that it adds (R248, R271). A flow model has no pipes. -/
def stageActivate (s : Dev) (port slot pipes p : Nat) : Sum Bad GItem :=
  match find? (curCfg s).models slot with
  | none => .inl (slotBusy slot 0)
  | some m =>
    if !slotOk s port slot then .inl (slotBusy slot m.modelId)
    else if m.flowKind then (if pipes = 0 then .inr (.activate slot 0) else .inl (listBad (p + 4)))
    else
      let new := (pipesOf pipes).filter fun k => !bit (getD (curCfg s).active slot 0) k
      let l := ((new.filter fun k => !(m.sched.any fun e => e.pipe == k && (e.kind == 1 || e.kind == 2))).map fun k =>
        (⟨0x14, 0x1B, k, 0xFF, 0xFFFF, 1, 1⟩ : Short)) ++ pipeShorts s slot m new
      match shortCode l with
      | some c => .inl ⟨c, admReport c slot m.modelId l, false⟩
      | none => .inr (.activate slot pipes)

/-- Stages a REFIT (R193, R272): its shadow is there, and the placement that it writes is not pinned by a draining epoch. -/
def stageRefit (s : Dev) (port slot arg : Nat) : Sum Bad GItem :=
  match find? (curCfg s).models slot with
  | none => .inl (slotBusy slot 0)
  | some m =>
    let p := refitOf s slot
    let ready := if arg = 0 then p.shadowEns.isSome && m.ens.isSome else p.shadowHead.isSome && (headLayer m).isSome
    let pinned := s.epochs.any fun e => e.drain.isSome && match find? e.cfg.models slot with
      | some o => o.loadNo == m.loadNo && (if arg = 0 then o.placeEns != m.placeEns else o.placeHead != m.placeHead)
      | none => false
    if !slotOk s port slot ∨ !ready ∨ pinned then .inl (slotBusy slot m.modelId) else .inr (.refit slot arg)

/-- The checks of a section on the scratch device (R465 to R470); `staged`: pipes whose parse bank an earlier item has written. -/
def sectionCheck (s : Dev) (type : Nat) (b : Bytes) (staged : Nat) : Option (Nat × Nat) :=
  match type with
  | 1 => deviceCheck s b
  | 2 => partCheck s b
  | 3 => parseCheck b staged
  | 4 => rulesCheck s b
  | 5 => winsCheck s b (rd s Reg.flwCfgBucketLog2) (region s 8).1 (region s 8).2 (liveCells s)
  | _ => keysCheck s b

/-- Pipes whose parse bank the items write. -/
def parseStaged (l : List GItem) : Nat :=
  l.foldl (fun a i => match i with | .sect 3 b _ => a ||| parsePipes b | _ => a) 0

/-- What a RULES or WINDOWS section that fails with OVERSIZE lacks (R83, R136): entries of the TCAM at free indices, exact-match entries, bytes
of window cells. The RESOURCE codes of these shortfalls are open (log entry 148). -/
def sectionShorts (s : Dev) (type : Nat) (b : Bytes) : List Short :=
  let one := fun (k need short : Nat) => if short = 0 then [] else [(⟨0x10, Config.sectionResource k, 0xFF, 0xFF, 0xFFFF, need, short⟩ : Short)]
  match type with
  | 4 => one 0 (tcamNew s b).length (tcamShort s b) ++ one 1 (emNew s b).length (emShort s b)
  | 5 => one 2 (winNeed s b) (winNeed s b - winFree (region s 8).2 (liveCells s))
  | _ => []

/-- Why a section fails; the report of an OVERSIZE names the shortfall. -/
def sectionBad (s : Dev) (type code : Nat) (b : Bytes) : Bad :=
  ⟨code, if code = 0x10 then admReport code 0xFF 0 (sectionShorts s type b) else [], false⟩

/-- Stages a SECTION (R463, R465): a partial image. -/
def stageSection (s : Dev) (before : List GItem) (b : Bytes) : Sum Bad GItem :=
  match container s b false (2 ^ 30) with
  | .bad code _ => .inl ⟨code, [], false⟩
  | .ok img =>
    match img.secs.head? with
    | none => .inl ⟨0x21, [], false⟩
    | some (type, _, body) =>
      match sectionCheck s type body (parseStaged before) with
      | some (code, _) => .inl (sectionBad s type code body)
      | none => .inr (.sect type body img.digest)

/-- A REGS pair names an RW or RWS register (R267). -/
def regsPair (a : Nat) : Bool :=
  match rowAt a with
  | some r => r.flds.any fun f => f.acc == .rw || f.acc == .rws
  | none => false

/-- Stages a REGS item (R267). -/
def stageRegs (b : Bytes) : Sum Bad GItem :=
  let l := tab (b.length / 8) fun i => (le b (8 * i) 4, le b (8 * i + 4) 4)
  if b.length % 8 = 0 ∧ l.all fun x => regsPair x.1 then .inr (.regs l) else .inl ⟨0x21, [], false⟩

/-- The failing fields of the item at `p` of a list that port `port` submits (R266, R267). -/
def itemFails (d : Dev) (list : Bytes) (port p : Nat) : List Nat :=
  let ty := le list p 1
  let a := le list (p + 8) 8
  let n := le list (p + 16) 4
  let pay := ty == 1 || ty == 0x10 || ty == 0x11
  let vf := decide (1 ≤ port ∧ port < 64)
  let base := rd64 d (Reg.grfStageBaseLoAddr port) (Reg.grfStageBaseHiAddr port) / 65536 * 65536
  need ([1, 2, 3, 4, 0x10, 0x11].contains ty && !(vf && 0x10 ≤ ty)) p ++ need (zeroAt list (p + 1) 1) (p + 1) ++
  need (ty == 1 || byteAt list (p + 3) == 0 || (ty == 4 && byteAt list (p + 3) == 1)) (p + 3) ++
  need (zeroAt list (p + 5) 3) (p + 5) ++
  need (!pay || (if vf then decide (base ≤ a ∧ a + n ≤ base + 65536 * rd d (Reg.grfStageSizeSize port))
    else n == 0 || (reachable d a && reachable d (a + n - 1)))) (p + 8) ++
  need (zeroAt list (p + 20) 12) (p + 20)

/-- Stages the item at `p` with its payload and whether a line of it was poisoned (R326). -/
def stageItem (s : Dev) (list : Bytes) (port p : Nat) (before : List GItem) (b : Bytes) (poison : Bool) : Sum Bad GItem :=
  let slot := le list (p + 2) 1
  let arg := le list (p + 3) 1
  let pipes := le list (p + 4) 1
  match firstBad (itemFails s list port p) with
  | some o => .inl (listBad o)
  | none =>
    match le list p 1 with
    | 1 => if poison then .inl ⟨0x20, chkReport 0x20 0 slot 0, true⟩ else stageLoad s port slot arg pipes p (bit (le list 12 1) 1) b
    | 2 => stageActivate s port slot pipes p
    | 3 => if slotOk s port slot && (find? (curCfg s).models slot).isSome then .inr (.unload slot) else .inl (slotBusy slot 0)
    | 4 => stageRefit s port slot arg
    | 0x10 => if poison then .inl ⟨0x20, [], false⟩ else stageSection s before b
    | _ => if poison then .inl ⟨0x21, [], false⟩ else stageRegs b

/-- The rules that hold of the new epoch as a whole (R85, R125): rules name active slots; descriptors over flow entries have as many
cells as the table. -/
def endSound (s : Dev) : Bool :=
  rulesSound s && (curCfg s).descs.all fun p => p.2.key != 0 || p.2.cells == entries (rd s Reg.flwCfgBucketLog2)

/-- What staging has come to: the scratch device, the items so far, the failure with its item. -/
structure Staging where
  dev : Dev
  items : List GItem
  fail : Option (Nat × Nat × Bytes)

/-- One item more. -/
def Staging.take (g : Staging) (i : Nat) (r : Sum Bad GItem) : Staging :=
  match g.fail, r with
  | some _, _ => g
  | none, .inl x => { g with fail := some (x.code, i, x.more) }
  | none, .inr it => { g with dev := scratchApply g.dev it, items := g.items ++ [it] }

/-- The end of staging: the last item carries a failure of the whole (log entry 20). -/
def Staging.close (g : Staging) (n : Nat) : Staging :=
  if g.fail.isNone && !endSound g.dev then { g with fail := some (0x21, n - 1, []) } else g

/-- A LOAD counts as admitted, or as refused under R246, R249 or R252 (R265). -/
def countLoad (d : Dev) (r : Sum Bad GItem) : Dev :=
  match r with
  | .inr (.load ..) => tick d Ctr.cfgAdmDone
  | .inr _ => d
  | .inl x => tickIf x.refused d Ctr.cfgAdmRefused

/-- Reads an item's payload: from device memory, or as a group's coordinator has sent it. -/
def payloadOf (d : Dev) (list : Bytes) (p : Nat) (sent : Option Bytes) : Dev × Bytes × Bool :=
  let ty := le list p 1
  if ty = 1 ∨ ty = 0x10 ∨ ty = 0x11 then
    match sent with
    | some b => (d, b, false)
    | none => memRead d (le list (p + 8) 8) (le list (p + 16) 4)
  else (d, [], false)

/-- The payload of the item, of those that a coordinator has sent in list order. -/
def sentFor (list : Bytes) (payloads : List Bytes) (i : Nat) : Bytes :=
  payloads.getD ((List.range i).filter fun k => let ty := le list (64 + 32 * k) 1; ty == 1 || ty == 0x10 || ty == 0x11).length []

/-- Stages the items of a list in order (R270). `sent`: the payloads of a group graft at a participant. Answers the device, which has
read the payloads, and what staging has come to. -/
def stageList (d : Dev) (list : Bytes) (port : Nat) (sent : Option (List Bytes)) : Dev × Staging :=
  let n := le list 6 2
  let r := (List.range n).foldl (fun (x : Dev × Staging) i =>
    if x.2.fail.isSome then x else
    let p := 64 + 32 * i
    let bad := !(itemFails x.2.dev list port p).isEmpty
    let y := if bad then (x.1, [], false) else payloadOf x.1 list p (sent.map fun l => sentFor list l i)
    let it := stageItem x.2.dev list port p x.2.items y.2.1 y.2.2
    let d := if le list p 1 = 1 ∧ !bad then countLoad y.1 it else y.1
    (d, x.2.take i it)) (d, ⟨scratchOf d, [], none⟩)
  (r.1, r.2.close n)

/-- The failing fields of a list's header (R266, R283): a list without GROUP is taken by either device of a pair, which mirrors it. -/
def headerFails (d : Dev) (list : Bytes) (port : Nat) : List Nat :=
  let group := bit (le list 12 1) 1
  let mates := !(groupMates d).isEmpty && inGroup d
  need (list.take 4 = [0x41, 0x51, 0x47, 0x4C]) 0 ++ need (le list 4 2 == 1) 4 ++
  need (decide (1 ≤ le list 6 2 ∧ le list 6 2 ≤ 256)) 6 ++
  need (decide (le list 12 1 < 4) && (port == 66 || ((!group || (port == 0 && isCoord d)) && (!mates || isCoord d)))) 12 ++
  need (zeroAt list 13 51) 13

end Ops
end Sys2Proof.Machine
end

