-- ==== Sys2Proof/Machine/Graft.lean ====
section
/-!
DEFINITION. Graft.lean: grafts in progress (R269 to R271), the commit at a boundary (R273, R282), the end of epochs (R275 to R279),
group commit (R283, R284), the grafts of FLT (R281, R282, R333, R402, R403) and of CFG (R472).
-/
namespace Sys2Proof.Machine
namespace Ops
open Img

/-! ### The configuration digest (R478) -/

/-- A slot's part of the digest. -/
def slotDigest (d : Dev) (s : Nat) : Bytes :=
  let m := find? (curCfg d).models s
  (match m with | some m => m.digest | none => zeros 32) ++ leBytes 1 (rd d (Reg.cfgSlotOwner s)) ++
    leBytes 1 (getD (curCfg d).active s 0) ++ leBytes 1 (slotState d s) ++
    leBytes 1 (match m with | some m => if m.flowKind then m.host else 0xFF | none => 0xFF)

/-- CFG computes `CFG_DIGEST`. -/
def cfgDigest (d : Dev) : Dev :=
  let h := Codes.sha256 (d.cfg.chains.flatten ++ (List.range 256).flatMap (slotDigest d))
  each (List.range 8) d fun d i => wr d (Reg.cfgDigestBytes i) (le h (4 * i) 4)

/-! ### The end of epochs -/

/-- A graft whose epoch has retired reads DONE (R276); its report is updated. -/
def graftDone (d : Dev) (g : Graft) : Dev :=
  let d := if g.port < 64 then
      if rd d (portF g.port Reg.grfStatusStage) = 4 ∧ rd d (portF g.port Reg.grfStatusEpoch) = g.num then
        wr d (portF g.port Reg.grfStatusCode) 0 else d
    else if g.port = 64 then polIdle (wr (tick d Ctr.cfgRefitCommit) (Reg.cfgRefitStatLastCode g.slot) 0) g.slot
    else if g.port = 65 then wr d Reg.cfgBootStatModelsCode 0
    else d
  portIrq (sendReport d g.rptAddr (reportBytes 0 0xFFFF g.tag g.num 0xFF g.boundary g.retired [])) g.port

/-- Epoch `x` retires (R276): what only it holds is released. -/
def retire (d : Dev) (x : Nat) : Dev :=
  let drop := fun (m : Map RuleEnt) => live (m.map fun p =>
    (p.1, if bit p.2.epochs (x % 4) then { p.2 with epochs := p.2.epochs - 2 ^ (x % 4) } else p.2))
  let d := { d with epochs := d.epochs.filter (·.num != x), tcam := drop d.tcam, em := drop d.em }
  let holds := fun (k : Nat) => d.epochs.any fun e => e.cfg.models.any fun p =>
    p.2.acts.getD (k % 8) p.2.loadNo == k / 8 && bit (runPipes e.cfg p.1 p.2) (k % 8)
  let d := { d with
    qnt := d.qnt.filter fun r => holds (r.1 / 256)
    banks := d.banks.filter fun b => d.epochs.any fun e => (find? e.cfg.models (b.1 / 2)).isSome
    flt := { d.flt with stale := d.flt.stale.filter fun s => s.2 != x } }
  let d := tick d Ctr.grfRetire
  let t := now64 d
  let mark := d.grf.done.map fun g => if g.old = x ∧ g.retired = 0 then { g with retired := t } else g
  let ends := mark.filter fun g => g.old == x && g.told
  let d := { d with grf := { d.grf with done := mark.filter fun g => !(g.old == x && g.told) } }
  each ends d graftDone

/-- A unit of an expired epoch (R278): its write that has not landed goes, and it ends with the expiry verdict. A request that waits
for its asynchronous update has it now; one whose record is formed keeps it. -/
def expireUnit (d : Dev) (u : Nat) (r : UnitRec) : Dev :=
  let d := match r.entry with | some (i, _) => dropPend d i u | none => d
  let k := if r.stage = .arrived then (d, none) else let y := defaultOf d r r.slot; (y.1, some y.2)
  let d := k.1
  let r := { r with dflt := k.2 }
  if r.stage ≠ .done ∧ d.stm.async.any (fun a => a.unit == u) then
    let y := expiryVerdict (tick d Ctr.grfExpiredUnits) r
    setUnit y.1 u { r with expired := true, hasCtx := false, stage := .done
                           verdict := some { y.2 with flags := (r.flags ||| 16) / 2 * 2, epoch := r.epoch, tag := tagOf r } }
  else setUnit d u { r with expired := true }

/-- Flow-model runs of an expired epoch are abandoned (R258, R278): a queued one has held no context. -/
def expireRuns (d : Dev) (x : Nat) : Dev :=
  let queued := d.runQueue.filter fun q => q.epoch == x
  let running := (List.range d.runs.length).filter fun i => (d.runs.getD i default).epoch == x
  let d := each queued { d with runQueue := d.runQueue.filter fun q => q.epoch != x } fun d q => finishRun d q 0
  let d := each running.reverse d endRun
  let n := queued.length + running.length
  count (count d Ctr.cfgRunExpired n) Ctr.grfExpiredUnits n

/-- Epoch `x` expires and retires (R278). -/
def expire (d : Dev) (x : Nat) : Dev :=
  let d := each d.units (tick d Ctr.grfExpire) fun d p =>
    if p.2.hasCtx && p.2.epoch == x && !p.2.expired then expireUnit d p.1 p.2 else d
  pfcCheck (retire (expireRuns d x) x)

/-- Epoch `x` is DRAINING. -/
def draining (d : Dev) (x : Nat) : Bool := match epoch? d x with | some e => e.drain.isSome | none => false

/-- The pin count of a DRAINING epoch is zero (R275). -/
def epochRetire (d : Dev) (x : Nat) : Dev := if draining d x ∧ pins d x = 0 then retire d x else d

/-- The epoch whose number the next commit needs (R274). -/
def needed (d : Dev) : Nat := (curNum d + 253) % 256

/-! ### The commit -/

/-- Policers that the rules of the live epochs in `mask` name (R301). -/
def namedPols (d : Dev) (mask : Nat) (miss : List Nat) : List Nat :=
  (((d.tcam ++ d.em).filter fun p => (p.2.epochs &&& mask) != 0).map (·.2.res) ++ miss).filterMap fun r =>
    if Rule.policerEn r then some (Rule.policer r) else none

/-- The shadows of verdict maps and slot options pass into the new epoch (R285, R294). -/
def handoverVrd (d : Dev) : Dev :=
  each d.shadow d fun d p =>
    let a := p.1 / 32
    let s := if 0xD10000 ≤ a then (a - 0xD10000) / 256 else (a - 0xD00000) / 4
    if a < 0xD00000 ∨ 0xE00000 ≤ a then d else
    match (vrdFlds s).find? fun f => f.key == p.1 with
    | some f => { wrEp d f p.2 with shadow := del d.shadow p.1 }
    | none => d

/-- What every boundary of a commit does beside the new epoch's contents: `before` are the policers named until then. -/
def boundaryEnd (d : Dev) (t : Nat) (before : List Nat) : Dev :=
  let d := wr64 (handoverVrd d) Reg.grfBoundaryLoNs Reg.grfBoundaryHiNs t
  let new := ((namedPols d (newBit d) (curCfg d).miss).filter fun x => !before.contains x).eraseDups
  cfgDigest (tick (each new d fillPol) Ctr.grfCommit)

/-- The slots that a graft replaces, or deactivates in pipes, are no longer affected there (R401). -/
def affectedAfter (d : Dev) (i : GItem) : Dev :=
  let set' := fun (s keep : Nat) => { d with flt := { d.flt with affected := setDef d.flt.affected s 0 (getD d.flt.affected s 0 &&& keep) } }
  match i with
  | .load s _ _ => set' s 0
  | .activate s pipes => set' s pipes
  | .unload s => set' s 0
  | _ => d

/-- The new epoch of a commit with its boundary's time, and the end of an old one that nothing pins. -/
def commitEpoch (d : Dev) (f : Dev → Dev) : Dev :=
  let x := curNum d
  let t := now64 d
  let before := namedPols d 15 (d.epochs.flatMap fun e => e.cfg.miss)
  let d := beginEpoch d (some (now d + 1000 * rd d Reg.grfDrainCfgLimit))
  boundaryEnd (f d) t before |> fun d => epochRetire d x

/-- The status of a committed graft (R271, R280): `code` is DRAINING, or PENDING while a group's acknowledgements are missing. -/
def graftBegun (d : Dev) (g : Graft) (code : Nat) : Dev :=
  let d := if g.port < 64 then
      wrs d [(portF g.port Reg.grfStatusCode, code), (portF g.port Reg.grfStatusBusy, 0), (portF g.port Reg.grfStatusStage, 4),
        (portF g.port Reg.grfStatusEpoch, g.num), (portF g.port Reg.grfStatusItem, 0)]
    else if g.port = 64 then wr d (Reg.cfgRefitStatLastCode g.slot) code
    else if g.port = 65 then wr d Reg.cfgBootStatModelsCode code
    else d
  let d := sendReport d g.rptAddr (reportBytes code 0xFFFF g.tag g.num 0xFF g.boundary 0 [])
  if code = 1 then d else portIrq d g.port

/-- The software graft at READY commits (R273). -/
def softCommit (d : Dev) (g : Graft) : Dev :=
  let x := curNum d
  let t := now64 d
  let wait := g.group && g.port != 66 && !d.grf.acks.isEmpty
  let g := { g with rptAddr := reportAddr d g.port, num := (x + 1) % 256, old := x, boundary := t, told := !wait }
  let d := clearCur { d with grf := { d.grf with done := d.grf.done ++ [g] } }
  let d := graftBegun d g (if wait then 1 else 2)
  let d := commitEpoch d fun d => each g.items d fun d i => affectedAfter (applyItem d i) i
  if g.port = 66 then answerCoord d (groupMsg 4 0 (partNo d) g.tag 0) else d

/-- The points that DVFS domains must have reached before the graft commits (R415). -/
def dvfsNeeds (d : Dev) (g : Graft) : List (Nat × Nat) :=
  g.items.flatMap fun i => match i with
    | .sect 1 b _ => (List.range 3).map fun k => (k, devicePoint d b k)
    | _ => []

/-- GRF raises the domains to those points (R415). -/
def dvfsRaise (d : Dev) (g : Graft) : Dev :=
  each (dvfsNeeds d g) d fun d p =>
    if rd d (Reg.clkDvfsStatPoint p.1) < p.2 then dvfsAim d p.1 p.2 else d

def dvfsReached (d : Dev) (g : Graft) : Bool := (dvfsNeeds d g).all fun p => decide (p.2 ≤ rd d (Reg.clkDvfsStatPoint p.1))

/-! ### Group commit -/

/-- A device with SPLIT set takes no part in group grafts (R284). -/
def split (d : Dev) : Bool := rdB d Reg.grfGroupStatSplit

/-- SPLIT is set; MEMBER names the participant that has not acknowledged. -/
def setSplit (d : Dev) (member : Nat) : Dev := wrs d [(Reg.grfGroupStatSplit, 1), (Reg.grfGroupStatMember, member)]

/-- The ID that a report names for a participant: partners have the same ID (R393). -/
def memberId (m : Nat) : Nat := m % 8

/-- Participants whose READY is missing. -/
def missingReplies (d : Dev) : List Nat := d.grf.mates.filter fun m => find? d.grf.replies m != some 0

/-- The FLT graft whose prepare is in progress, or that commits next. -/
def fltReady (d : Dev) : Option FltGraft := d.flt.grafts.find? (·.ready)

/-- The coordinator sends COMMIT with its commit time (R283): `lead` in ns. -/
def sendCommit (d : Dev) (tag lead : Nat) : Dev :=
  let tc := now d + lead
  let d := sendMates d 5 (groupMsg 2 ((curNum d + 1) % 256) 0 tag tc)
  { d with grf := { d.grf with commitAt := some tc, prepDl := none, acks := d.grf.mates
                               ackDl := some (tc + 1000 * rd d Reg.grfGroupCfg1CommitTmo) } }

/-- What READY and the free epoch number allow (R283): the coordinator decides once every participant is READY; a participant replies. -/
def decideGroup (d : Dev) : Dev :=
  match fltReady d, d.grf.cur with
  | some _, _ => if d.grf.prepDl.isSome && (missingReplies d).isEmpty then sendCommit d 0 10000 else d
  | none, none => d
  | none, some g =>
    if !g.ready || (epoch? d (needed d)).isSome then d
    else if g.port = 66 then
      if d.grf.partDl.isSome || d.grf.commitAt.isSome then d
      else
        let d := answerCoord d (groupMsg 1 0 (partNo d) g.tag 0)
        { d with grf := { d.grf with partDl := some (now d + 1000 * rd d Reg.grfGroupCfg1CommitTmo) } }
    else if g.group && d.grf.prepDl.isSome && (missingReplies d).isEmpty then
      sendCommit d g.tag (1000 * rd d Reg.grfGroupCfg0Lead)
    else d

/-- PREPARE goes to every participant: the list and its payloads (R283). -/
def sendPrepare (d : Dev) (tag : Nat) (list : Bytes) (payloads : List Bytes) (tmo : Nat) : Dev :=
  let d := sendMates d 5 (groupMsg 0 0 0 tag 0 ++ list)
  let d := each payloads d fun d b => sendMates d 6 b
  { d with grf := { d.grf with mates := groupMates d, replies := [], commitAt := none, prepDl := some (now d + tmo) } }

/-- The FLT graft that is ready next is prepared at the other participants (R403); a split device commits it alone. -/
def fltPrepare (d : Dev) : Dev :=
  if (fltReady d).isNone ∨ (groupMates d).isEmpty ∨ split d ∨ d.grf.prepDl.isSome ∨ d.grf.commitAt.isSome then d
  else sendPrepare d 0 [] [] (1000 * rd d Reg.fltCfgGroupTmo)

/-- A participant refuses an FLT graft, or does not reply (R403): the faulted device commits it alone. -/
def fltAlone (d : Dev) (member : Nat) : Dev :=
  setSplit { d with grf := { d.grf with prepDl := none, commitAt := none, replies := [] } } member

/-- A participant's reply (R283); a member hands its partner's on (R393). -/
def groupReply (d : Dev) (member status : Nat) : Dev :=
  if relays d ∧ member = 8 + ownId d then answerCoord d (groupMsg 1 status member 0 0)
  else if d.grf.prepDl.isNone ∨ !d.grf.mates.contains member then d
  else if status = 0 then decideGroup { d with grf := { d.grf with replies := set d.grf.replies member 0 } }
  else match fltReady d, d.grf.cur with
    | some _, _ => fltAlone d (memberId member)
    | none, some g => clearCur (graftFailed (abortMates d g) g status 0xFFFF (memberId member) [])
    | none, none => d

/-- PREP_TMO, or GROUP_TMO for an FLT graft, has passed: only a participant that gave no reply fails the graft (R283, R403). -/
def prepareTimeout (d : Dev) : Dev :=
  match d.grf.prepDl with
  | none => d
  | some t =>
    if now d < t then d else
    match missingReplies d with
    | [] => d
    | m :: _ =>
      let m := memberId m
      match fltReady d, d.grf.cur with
      | some _, _ => fltAlone d m
      | none, some g => clearCur (graftFailed (abortMates d g) g 0x31 0xFFFF m [])
      | none, none => { d with grf := { d.grf with prepDl := none } }

/-- COMMIT reaches a participant that is READY (R283). -/
def groupCommit (d : Dev) (tc : Nat) : Dev :=
  let d := relay d 5 (groupMsg 2 ((curNum d + 1) % 256) 0 0 tc)
  if d.grf.partDl.isSome then { d with grf := { d.grf with partDl := none, commitAt := some tc } } else d

/-- The participant's copy of a group graft, where it has no COMMIT. -/
def partGraft (d : Dev) : Option Graft :=
  match d.grf.cur with
  | some g => if g.port = 66 ∧ d.grf.commitAt.isNone then some g else none
  | none => none

/-- ABORT releases a participant's staging (R283). -/
def groupAbort (d : Dev) : Dev :=
  let d := relay d 5 (groupMsg 3 0 0 0 0)
  if (partGraft d).isSome then clearCur d else d

/-- A participant has no COMMIT and no ABORT within COMMIT_TMO of its reply: it reports PARTNER_ABORT to the coordinator (R284). -/
def commitTimeout (d : Dev) : Dev :=
  match d.grf.partDl with
  | none => d
  | some t =>
    if now d < t then d
    else
      let d := match d.grf.cur with
        | some g => graftFailed d g 0x31 0xFFFF (ownId d) []
        | none => d
      wr (clearCur d) Reg.grfGroupStatSplit 1

/-- The coordinator lacks acknowledgements COMMIT_TMO after the commit time (R284). -/
def ackTimeout (d : Dev) : Dev :=
  match d.grf.ackDl with
  | none => d
  | some t =>
    if now d < t then d
    else
      let d' := { d with grf := { d.grf with acks := [], ackDl := none } }
      match d.grf.acks with
      | [] => d'
      | m :: _ => setSplit d' (memberId m)

/-- A participant has committed (R283): with the last one, the graft reads DRAINING, and DONE where its epoch has retired. -/
def ackReceive (d : Dev) (member : Nat) : Dev :=
  if relays d ∧ member = 8 + ownId d then answerCoord d (groupMsg 4 0 member 0 0) else
  if !d.grf.acks.contains member then d else
  let acks := d.grf.acks.filter (· != member)
  let d := { d with grf := { d.grf with acks, ackDl := if acks.isEmpty then none else d.grf.ackDl } }
  if !acks.isEmpty then d else
  let told := d.grf.done.filter fun g => !g.told
  let d := { d with grf := { d.grf with done := (d.grf.done.map fun g => { g with told := true }).filter fun g => g.retired == 0 } }
  each told d fun d g => let d := graftBegun d g 2; if g.retired = 0 then d else graftDone d g

/-! ### Staging -/

/-- A graft as its list begins it. -/
def newGraft (port : Nat) (list : Bytes) (slot : Nat) : Graft :=
  { port, tag := le list 8 4, wait := bit (le list 12 1) 0, group := bit (le list 12 1) 1, items := [], fail := none, ready := false
    slot, rptAddr := 0, num := 0, old := 0, boundary := 0, told := false, retired := 0 }

/-- GRF holds the graft. -/
def holdGraft (d : Dev) (g : Graft) : Dev := { d with grf := { d.grf with cur := some g } }

/-- The payloads of a list in item order, as PREPARE sends them (R283). -/
def payloadsOf (d : Dev) (list : Bytes) : Dev × List Bytes :=
  (List.range (le list 6 2)).foldl (fun (x : Dev × List Bytes) i =>
    let p := 64 + 32 * i
    let ty := le list p 1
    if ty = 1 ∨ ty = 0x10 ∨ ty = 0x11 then
      let r := memRead x.1 (le list (p + 8) 8) (le list (p + 16) 4)
      (r.1, x.2 ++ [r.2.1])
    else x) (d, [])

/-- GRF stages a list (R270): `sent` are the payloads of a participant's copy. In a group the coordinator sends PREPARE (R283). -/
def stageFrom (d : Dev) (port slot : Nat) (list : Bytes) (sent : Option (List Bytes)) : Dev :=
  let mates := !(groupMates d).isEmpty
  let g := newGraft port list slot
  let g := { g with group := mates }
  let d := if port < 64 then wr d (portF port Reg.grfStatusStage) 2 else d
  match firstBad (headerFails d list port) with
  | some o => holdGraft d { g with fail := some (0x21, 0xFFFF, chkReport 0x21 o 0xFF 0) }
  | none =>
    if mates && split d then holdGraft d { g with fail := some (0x31, 0xFFFF, []) } else
    let d := if mates && port != 66 then
        let r := payloadsOf d list
        sendPrepare r.1 g.tag list r.2 (1000000 * rd d Reg.grfGroupCfg0PrepTmo)
      else d
    let r := stageList d list port sent
    holdGraft r.1 { g with items := r.2.items, fail := r.2.fail }

/-- The list of a refit policy's commit graft (R263): one REFIT item. -/
def policyList (slot part : Nat) : Bytes :=
  [0x41, 0x51, 0x47, 0x4C] ++ leBytes 2 1 ++ leBytes 2 1 ++ zeros 56 ++ [4, 0] ++ leBytes 1 slot ++ leBytes 1 part ++ zeros 28

/-- The failing fields of the MODELS entry at `p` (R472). -/
def modelsFails (b : Bytes) (p : Nat) : List Nat :=
  need (decide (le b (p + 1) 1 < 64)) (p + 1) ++
  need (le b (le b (p + 4) 4 + 6) 1 == 1 || le b (p + 3) 1 == 0xFF) (p + 3) ++
  need (decide (le b (p + 4) 4 + le b (p + 8) 4 ≤ b.length)) (p + 4) ++ need (zeroAt b (p + 12) 20) (p + 12)

/-- The failing fields of a MODELS section (R463, R472). -/
def modelsSectionFails (b : Bytes) : List Nat :=
  let n := le b 0 2
  need (decide (64 + 32 * n ≤ b.length)) 0 ++ need (zeroAt b 2 62) 2 ++
  if b.length < 64 + 32 * n then [] else (List.range n).flatMap fun i => modelsFails b (64 + 32 * i)

/-- The entry at `p` of a MODELS section is staged. -/
def stageEntry (s : Dev) (b : Bytes) (p : Nat) : Sum Bad GItem :=
  let slot := le b p 1
  let img := slice b (le b (p + 4) 4) (le b (p + 8) 4)
  match firstBad (modelsFails b p) with
  | some o => .inl (listBad o)
  | none =>
    if !(rdB s (Reg.cfgSlotAssigned slot) && rd s (Reg.cfgSlotOwner slot) == le b (p + 1) 1) then .inl { slotBusy slot (le img 12 4) with refused := true }
    else stageLoad s 65 slot (if le img 6 1 = 1 then le b (p + 3) 1 else 0) (le b (p + 2) 1) p false img

/-- CFG assigns the slots of the MODELS section and stages its graft (R472). -/
def stageModels (d : Dev) (b : Bytes) : Dev :=
  let n := le b 0 2
  let d := each (List.range n) d fun d i => assignSlot d (le b (64 + 32 * i) 1) (le b (65 + 32 * i) 1 % 64) true
  let g := newGraft 65 [] 0
  if !zeroAt b 2 62 ∨ b.length < 64 + 32 * n then holdGraft d { g with fail := some (0x21, 0xFFFF, chkReport 0x21 2 0xFF 0) } else
  let r := (List.range n).foldl (fun (x : Dev × Staging) i =>
    if x.2.fail.isSome then x else
    let it := stageEntry x.2.dev b (64 + 32 * i)
    (countLoad x.1 it, x.2.take i it)) (d, ⟨scratchOf d, [], none⟩)
  let z := r.2.close n
  holdGraft r.1 { g with items := z.items, fail := z.fail }

/-- GRF takes the next graft (R269): none while it holds one, while an FLT graft is staging, or in HOLD (R405). -/
def stageStart (d : Dev) (list : Bytes) : Dev :=
  if d.grf.cur.isSome ∨ !d.flt.grafts.isEmpty ∨ !loaded d ∨ fltState d = 3 ∨ !moving d then d else
  match d.grf.queue with
  | [] => d
  | p :: rest =>
    let d := { d with grf := { d.grf with queue := rest } }
    if p < 64 then stageFrom d p 0 list none
    else if 128 ≤ p then stageFrom d 64 (p - 128) (policyList (p - 128) (polPart d (p - 128))) none
    else match d.cfg.models with
      | some b => stageModels { d with cfg := { d.cfg with models := none } } b
      | none => d

/-- Staging ends (R270, R274): the graft fails with its report, or is READY. -/
def stageDone (d : Dev) : Dev :=
  match d.grf.cur with
  | none => d
  | some g =>
    if g.ready then d else
    let own := if g.group then ownId d else 0xFF
    match g.fail with
    | some (code, item, more) => clearCur (graftFailed (abortMates d g) g code item own more)
    | none =>
      if !g.wait && (epoch? d (needed d)).isSome then clearCur (graftFailed (abortMates d g) g 0x13 0xFFFF own [])
      else
        let d := if g.port < 64 then wr d (portF g.port Reg.grfStatusStage) 3 else d
        decideGroup (dvfsRaise (holdGraft d { g with ready := true }) g)

/-- PREPARE reaches a participant (R283). A copy that it still holds is superseded; an empty list is a graft of the other device's FLT,
which goes ahead of its own (R282, R403). -/
def groupPrepare (d : Dev) (tag : Nat) (list : Bytes) (payloads : List Bytes) : Dev :=
  let d := each payloads (relay d 5 (groupMsg 0 0 0 tag 0 ++ list)) fun d b => relay d 6 b
  let refuse := fun (d : Dev) (c : Nat) => answerCoord d (groupMsg 1 c (partNo d) tag 0)
  if split d then refuse d 0x31
  else if !d.flt.grafts.isEmpty then refuse d 0x30
  else
    let own := match d.grf.cur with | some g => g.port != 66 | none => false
    let d := if own then abortSoft d (if list.isEmpty then 0x30 else 0x31) 0xFF else clearCur d
    if list.isEmpty then
      decideGroup (holdGraft d { newGraft 66 [] 0 with tag, wait := true, group := true, ready := true })
    else
      let d := stageFrom d 66 0 list (some payloads)
      { d with grf := { d.grf with cur := d.grf.cur.map fun g => { g with tag } } }

/-! ### FLT's grafts -/

/-- The oldest FLT graft that is not ready has staged its map and its copies (R403): only the first two are staged (R269). -/
def remapCopied (d : Dev) : Dev :=
  fltPrepare { d with flt := { d.flt with grafts := remapReady (d.flt.grafts.take 2) ++ d.flt.grafts.drop 2 } }

/-- What the loss of a die or a stack leaves (R402): slots with paged nodes are affected and reload copies are gone; flow models are
unloaded. -/
def mediumLost (d : Dev) (unit : Nat) : Dev :=
  let d := wr d Reg.fltStatLost 1
  if unit < 4 then
    let d := { d with epochs := d.epochs.map fun e =>
      { e with cfg := { e.cfg with models := e.cfg.models.map fun p => (p.1, { p.2 with reload := false }) } } }
    each (curCfg d).models d fun d p =>
      let paged := match p.2.ens with | some e => e.trees.any fun t => t.paged != 0 | none => false
      if paged then markAffected d p.1 (getD (curCfg d).active p.1 0) else d
  else
    each ((curCfg d).models.filter fun p => p.2.flowKind) d fun d p => applyItem d (.unload p.1)

/-- An FLT graft commits (R282, R333, R399, R403). -/
def fltCommit (d : Dev) (g : FltGraft) : Dev :=
  let d := { d with flt := { d.flt with grafts := d.flt.grafts.erase g } }
  let d := { d with grf := { d.grf with prepDl := none, commitAt := none, replies := [] } }
  let d := if (epoch? d (needed d)).isSome then expire d (needed d) else d
  let d := commitRemap d g
  let d := match g.pool, g.spare with
    | some 17, some _ => coreSpare d g.logical
    | _, _ => d
  let d := match g.lost with
    | none => commitEpoch d id
    | some u =>
      let d := each (d.epochs.filter fun e => e.drain.isSome) d fun d e => expire d e.num
      commitEpoch d fun d => match layoutFor d u with
        | some l => mediumLost (installLayout d d.mem.layouts l) u
        | none => d
  fltPrepare (remapDone (tick d Ctr.grfFltGraft) g.cls)

/-- A boundary (R273): the FLT graft that is ready goes first, else the software graft at READY whose epoch number is free, whose
commit time has come and whose DVFS points are reached. -/
def graftCommit (d : Dev) : Dev :=
  if !moving d ∨ !loaded d then d else
  let due := match d.grf.commitAt with | some t => decide (t ≤ now d) | none => true
  match fltReady d, d.grf.cur with
  | some g, _ => if d.grf.prepDl.isSome ∨ !due then d else fltCommit d g
  | none, none => d
  | none, some g =>
    if !g.ready || !due || (epoch? d (needed d)).isSome || (g.group && d.grf.commitAt.isNone) || !dvfsReached d g then d
    else softCommit d g

/-- The drain timer of epoch `x` ends with pins held (R275, R278). -/
def epochExpire (d : Dev) (x : Nat) : Dev :=
  match epoch? d x with
  | none => d
  | some e => match e.drain with
    | none => d
    | some t => if now d < t ∨ pins d x = 0 ∨ !moving d then d else decideGroup (expire d x)

end Ops

/-- GRAFT_STAGE_START (R269). -/
def execGraftStageStart (list : Bytes) (s : State) : Host.Outcome State Fault Refusal := Ops.run s fun d => Ops.stageStart d list
/-- GRAFT_STAGE_DONE (R270). -/
def execGraftStageDone (s : State) : Host.Outcome State Fault Refusal := Ops.run s Ops.stageDone
/-- GRAFT_COMMIT (R273). -/
def execGraftCommit (s : State) : Host.Outcome State Fault Refusal := Ops.run s Ops.graftCommit
/-- EPOCH_RETIRE (R276). -/
def execEpochRetire (x : Nat) (s : State) : Host.Outcome State Fault Refusal :=
  Ops.run s fun d => Ops.decideGroup (Ops.epochRetire d x)
/-- EPOCH_EXPIRE (R278). -/
def execEpochExpire (x : Nat) (s : State) : Host.Outcome State Fault Refusal := Ops.run s fun d => Ops.epochExpire d x
/-- GROUP_PREPARE (R283). -/
def execGroupPrepare (tag : Nat) (list : Bytes) (payloads : List Bytes) (s : State) : Host.Outcome State Fault Refusal :=
  Ops.run s fun d => Ops.groupPrepare d tag list payloads
/-- GROUP_REPLY (R283). -/
def execGroupReply (member status : Nat) (s : State) : Host.Outcome State Fault Refusal :=
  Ops.run s fun d => Ops.groupReply d member status
/-- GROUP_PREPARE_TIMEOUT (R283). -/
def execGroupPrepareTimeout (s : State) : Host.Outcome State Fault Refusal := Ops.run s Ops.prepareTimeout
/-- GROUP_COMMIT (R283). -/
def execGroupCommit (tc : Nat) (s : State) : Host.Outcome State Fault Refusal := Ops.run s fun d => Ops.groupCommit d tc
/-- GROUP_ABORT (R283). -/
def execGroupAbort (s : State) : Host.Outcome State Fault Refusal := Ops.run s Ops.groupAbort
/-- GROUP_COMMIT_TIMEOUT (R284). -/
def execGroupCommitTimeout (s : State) : Host.Outcome State Fault Refusal := Ops.run s Ops.commitTimeout
/-- GROUP_ACK_TIMEOUT (R284). -/
def execGroupAckTimeout (s : State) : Host.Outcome State Fault Refusal := Ops.run s Ops.ackTimeout
/-- COMMIT_ACK_RECEIVE (R284). -/
def execCommitAckReceive (member : Nat) (s : State) : Host.Outcome State Fault Refusal := Ops.run s fun d => Ops.ackReceive d member
/-- REMAP_COPY_DONE (R403). -/
def execRemapCopyDone (s : State) : Host.Outcome State Fault Refusal := Ops.run s Ops.remapCopied

end Sys2Proof.Machine
end

