-- ==== Sys2Proof/Machine/Reset.lean ====
section
/-!
DEFINITION. Reset.lean: function-level reset (R288, R343), `PERST_N` (R474), `SYS_RST_N` and VDD_AON (R473, R515 to R517), the base load
and its installation (R463, R465, R471, R475 to R477).
-/
namespace Sys2Proof.Machine
namespace Ops
open Img

/-! ### Function-level reset -/

/-- A field key belongs to function `n`'s copy of a per-function register. -/
def fnKey (n k : Nat) : Bool := decide (k < 2 ^ 50) && k / 2 ^ 40 == n && perFn (k % 2 ^ 40 / 32)

/-- R288: the graft of a reset port is dropped unless it is READY; one that is READY, or has committed, loses its port. -/
def portReset (d : Dev) (n : Nat) : Dev :=
  let orphan := fun (g : Graft) => if g.port = n then { g with port := 99, rptAddr := 0 } else g
  let d := { d with grf := { d.grf with queue := d.grf.queue.filter (· != n), done := d.grf.done.map orphan } }
  match d.grf.cur with
  | some g => if g.port ≠ n then d else if g.ready then holdGraft d (orphan g) else clearCur (abortMates d g)
  | none => d

/-- Function `n` is reset (R343): its channels, its MSI-X table, its copies of the tenant registers, its graft port. -/
def fnReset (d : Dev) (n : Nat) : Dev :=
  let d := each ((d.chans.map (·.1)).filter fun c => rd d (Reg.dmaChOwnerOwner c) == n) d chDisable
  let mine := fun (k size : Nat) => k / size == n
  let d := { d with
    hif := { d.hif with msixEn := d.hif.msixEn.filter (· != n), msixTab := d.hif.msixTab.filter fun p => !mine p.1 8192
                        msixPend := d.hif.msixPend.filter fun p => !mine p 2048 }
    regs := d.regs.filter fun p => !fnKey n p.1
    shadow := d.shadow.filter fun p => !fnKey n p.1
    latch := d.latch.filter fun p => !mine p.1 (2 ^ 25) }
  portReset d n

/-- A FLR of a function; the management bridge is none. -/
def flr (d : Dev) (n : Nat) : Dev :=
  if 64 ≤ n then d else wrs (fnReset d n) [(Reg.hifFlrStatFunc, n), (Reg.hifFlrStatSeen, 1)]

/-- An address of the HIF aperture. -/
def inHif (a : Nat) : Bool := a / 0x100000 == 17

/-- `PERST_N` falls (R474): a FLR of every function; HIF and its registers are reset. -/
def perstAssert (d : Dev) : Dev :=
  let d := each (List.range 64) d fnReset
  { d with
    hif := { host := d.hif.host, numVfs := 0, msixEn := [], msixTab := [], msixPend := [], perst := true, crs := none }
    regs := d.regs.filter fun p => !inHif (p.1 / 32)
    ctrs := d.ctrs.filter fun p => !inHif p.1 }

/-- HIF answers with Retry Status until 20 ms from now (R474). -/
def crsStart (d : Dev) : Dev := { d with hif := { d.hif with crs := some (now d + 20000000) } }

/-- `PERST_N` rises. -/
def perstRelease (d : Dev) : Dev :=
  if d.hif.perst then crsStart { d with hif := { d.hif with perst := false } } else d

/-- The host's configuration is set, on a link that has trained (R340, R342); FLIT mode goes with 64 GT/s (log entry 42). A function's MSI-X is
enabled where the function exists. -/
def hostConfig (d : Dev) : Dev :=
  let h := d.hif.host
  let d := wrs d [(Reg.hifLinkStatRate, h.rate), (Reg.hifLinkStatWidth, h.width), (Reg.hifLinkStatFlit, b2n (h.rate == 6)),
    (Reg.hifLinkStatNumVfs, h.numVfs)]
  { d with hif := { d.hif with numVfs := min h.numVfs 63, msixEn := h.msix.filter (· ≤ min h.numVfs 63) } }

/-- The 20 ms have passed (R474): the host configures the functions. -/
def crsEnd (d : Dev) : Dev :=
  match d.hif.crs with
  | some t => if d.hif.perst ∨ now d < t then d else hostConfig { d with hif := { d.hif with crs := none } }
  | none => d

/-! ### SYS_RST_N and VDD_AON -/

/-- Registers of the AON domain: `FLT_AON`, and what its monitor knows of the sources (R407, R429). -/
def aonFlds : List Fld := [Reg.fltAonCause, Reg.fltAonValid, Reg.clkSrcStatRefReady, Reg.clkSrcStatFbReady]

/-- `SYS_RST_N` low (R473): every block but the AON domain and the fuses is as after power-up. -/
def sysReset (d : Dev) : Dev :=
  let z := Dev.reset
  wrs { z with
    pins := { d.pins with sysRstN := false }
    straps := d.straps
    hif := { z.hif with host := d.hif.host, numVfs := 0, msixEn := [], perst := d.hif.perst }
    sgn := { z.sgn with boot := d.sgn.boot, resets := d.sgn.resets, booted := d.sgn.booted, bootSat := d.sgn.bootSat }
    sec := { d.sec with prov := none }
    bridge := { z.bridge with ir := d.bridge.ir, boundary := d.bridge.boundary }
    free := d.free, out := d.out } (aonFlds.map fun f => (f, rd d f))

/-- `SYS_RST_N` falls, or (`rail`) a rail falls while it is high (R473, R515). -/
def sysAssert (d : Dev) (rail : Bool) : Dev :=
  let lost := d.pins.railLost || (rail && d.pins.sysRstN)
  let d := sysReset d
  { d with pins := { d.pins with railLost := lost } }

/-- The clock source at the release (R517). -/
def sourceAtRelease (d : Dev) : Dev :=
  if rdB d Reg.clkSrcStatRefReady then wr d Reg.clkRootStatLocked 1
  else if rdB d Reg.clkSrcStatFbReady then wrs (switchTo d true) [(Reg.clkSrcCtlSel, 1), (Reg.clkRootStatLocked, 1)]
  else
    { wr d Reg.clkRootStatHolding 1 with
      clk := { d.clk with holdTo := some true, holdDl := some (now d + 2000000) }, sgn := { d.sgn with hold := true } }

/-- `SYS_RST_N` rises (R138, R427, R473, R475, R517): straps are latched, the time base is 0, every domain is ON, the base load
begins. -/
def sysRelease (d : Dev) (straps : Straps) : Dev :=
  if d.pins.sysRstN then d else
  let d := { d with pins := { d.pins with sysRstN := true, railLost := false }, straps, tb := Dev.reset.tb }
  let d := crsStart (sourceAtRelease d)
  if straps.bootHost then d else startLoad d 1

/-- The AON domain resets (R516). VDD_AON is a rail: with `SYS_RST_N` high the device resets with it (R515). -/
def aonReset (d : Dev) : Dev :=
  let d := if d.pins.sysRstN then sysAssert d true else d
  let d := wrs d (aonFlds.map fun f => (f, 0))
  { d with straps := Dev.reset.straps, sgn := { d.sgn with resets := 0, booted := false } }

/-! ### The base load -/

/-- The offset of a section in its image. -/
def secOff (img : Image) (type : Nat) : Nat := match img.secs.find? (·.1 == type) with | some s => s.2.1 | none => 0
def secBytes (img : Image) (type : Nat) : Option Bytes := (img.secs.find? (·.1 == type)).map (·.2.2)

/-- The scratch device on which base sections are checked: epoch 0 with nothing, the layout installed. -/
def baseScratch (d : Dev) (img : Image) : Dev :=
  let d := { d with epochs := [{ num := 0, cfg := default, drain := none }], tcam := [], em := [] }
  match secBytes img 2 with
  | some b => (match layoutNow d (layoutsOf b) with | some l => installLayout d (layoutsOf b) l | none => d)
  | none => d

/-- A code of a check that gives no offset: the section's first byte. -/
def codeAt0 (c : Nat) : Option (Nat × Nat) := if c = 0 then none else some (c, 0)

/-- The checks of one section of a base image (R463 step 5, R465, R471). -/
def baseSection (d s : Dev) (img : Image) (type : Nat) (b : Bytes) : Option (Nat × Nat) :=
  let gates := match secBytes img 1 with | some x => le x 4 4 | none => 0
  let keys := match secBytes img 6 with | some x => keysOf x | none => []
  match type with
  | 1 => firstOf [format (deviceFails b), if bit gates 12 && (secBytes img 7).isNone then some (0x21, 4) else none]
  | 2 => format (partFails b)
  | 3 => firstOf [parseCheck b 0, if parsePipes b = 255 then none else some (0x21, 0)]
  | 4 => firstOf [format (need (le b 0 1 == 0) 0 ++ need (le b 1 1 == 255) 1), rulesCheck s b,
      if rulesSound (rulesApply s b) then none else some (0x21, 0)]
  | 5 => firstOf [winsCheck s b (rd s Reg.flwCfgBucketLog2) (region s 8).1 (region s 8).2 [],
      if (winDescs [] b).all fun p => p.2.key != 0 || p.2.cells == entries (rd s Reg.flwCfgBucketLog2) then none else some (0x21, 64)]
  | 6 => keysCheck d b
  | 7 => codeAt0 (fwCheck d keys (b.drop 64))
  | 8 => codeAt0 (calCheck d keys b)
  | 9 => (match stageRegs b with | .inl _ => some (0x21, 0) | .inr _ => none)
  | 10 => format (modelsSectionFails b)
  | _ => none

/-- Every section passes, and a layout fits the units that are left (R463, R477). -/
def baseCheck (d : Dev) (img : Image) : Option (Nat × Nat) :=
  let s := baseScratch d img
  firstOf ((img.secs.map fun x => (baseSection d s img x.1 x.2.2).map fun r => (r.1, x.2.1 + r.2)) ++
    [match secBytes img 2 with
     | some b => if (layoutNow d (layoutsOf b)).isNone then some (0x14, secOff img 2) else none
     | none => none])

/-- A section of a base image takes effect, where the image has it. -/
def install (d : Dev) (img : Image) (type : Nat) (f : Dev → Bytes → Dev) : Dev :=
  match secBytes img type with
  | some b => f d b
  | none => d

/-- FIRMWARE (R471, R477): class masks, then the image in every core, started. With SPR gated off the cores are OFF and only the retained
image is there (R239). -/
def firmwareInstall (d : Dev) (b : Bytes) : Dev :=
  let d := each (List.range 16) d fun d i => wr d (Reg.sprClassMaskCores i) (le b (4 * i) 4)
  let fw := b.drop 64
  let d := { d with spr := { d.spr with image := some fw } }
  if gateOn d 12 then each (List.range 64) d fun d c => startCore (fwInto d fw c) c else d

/-- A gate is requested ON, and its block comes up (R420). -/
def gateUp (d : Dev) (k : Nat) : Dev := gateOnDone (gateBit d k true) k

/-- The installation of a checked base image, in the order of R477. -/
def installBase (d : Dev) (img : Image) : Dev :=
  let gates := match secBytes img 1 with | some x => le x 4 4 | none => 0
  let d := wr d Reg.cfgBootStatState 2
  let d := each ((List.range 24).filter fun k => k != 21 && bit gates k) d gateUp
  let d := { d with epochs := [{ num := 0, cfg := default, drain := none }], tcam := [], em := [] }
  let d := install d img 1 deviceInstall
  let d := install d img 2 fun d b => match layoutNow d (layoutsOf b) with
    | some l => installLayout d (layoutsOf b) l
    | none => d
  let d := install d img 6 fun d b => { d with cfg := { d.cfg with keys := keysOf b } }
  let d := wr (install d img 3 parseApply) Reg.prsGraphStatBank 0
  let d := install (install d img 5 winsApply) img 4 rulesApply
  let d := install d img 8 fun d b =>
    let c := calOf b
    wr { d with sgn := { d.sgn with cal := c } } Reg.sgnCalVerVersion c.version
  let d := if bit gates 21 then gateUp d 21 else d
  let d := install d img 7 firmwareInstall
  let d := install d img 9 fun d b => each (tab (b.length / 8) fun i => (le b (8 * i) 4, le b (8 * i + 4) 4)) d fun d p =>
    landWrite d 0 0 p.1 p.2
  let t := Codes.sha256 (zeros 32 ++ img.digest)
  let d := wrs d [(Reg.cfgImgVerVersion, img.version), (Reg.cfgImgSvnSvn, img.svn)]
  let d := each (List.range 8) d fun d i => wr d (Reg.cfgImgDigestBytes i) (le img.digest (4 * i) 4)
  { d with cfg := { d.cfg with base := some (curCfg d), chains := List.replicate 6 t, models := secBytes img 0x0A }, epochs := [] }

/-- The boot staging area is zeroed when a load ends (R476). -/
def clearStaging (d : Dev) : Dev := memClear d 0x1C0000000 0x40000000

/-- Flash image A was read: by the boot sequence or by `CFG_LOAD_CTL`. -/
def fromFlashA (d : Dev) (src : Nat) : Bool := src == 1 || (src == 3 && rd d Reg.cfgLoadCtlSrc == 0)

/-- A load ends without success (R475): image B after A in the boot sequence, else PRELOAD. -/
def loadFailed (d : Dev) (src code off : Nat) : Dev :=
  let d := wr (clearStaging { d with cfg := { d.cfg with loading := none } }) Reg.cfgBootStatCode code
  let d := if fromFlashA d src then wr d Reg.cfgBootStatCodeA code else d
  let d := if code = 0x21 then wr d Reg.cfgFailOffOffset off else d
  if src = 1 then startLoad d 2 else wr d Reg.cfgBootStatState 0

/-- A load succeeds. -/
def loadDone (d : Dev) (src : Nat) (img : Image) : Dev :=
  let d := clearStaging (installBase { d with cfg := { d.cfg with loading := none } } img)
  let d := if fromFlashA d src then wr d Reg.cfgBootStatCodeA 0 else d
  wrs d [(Reg.cfgBootStatCode, 0), (Reg.cfgBootStatSource, src)]

/-- The largest base image of a source (R459, R475). -/
def loadLimit (d : Dev) (src : Nat) : Nat := if src = 3 ∧ 2 ≤ rd d Reg.cfgLoadCtlSrc then 2 ^ 30 else 2 ^ 25

/-- The bytes of the image: as flash or host memory gives them, or from device memory (R475); `none` = a line of it is poisoned. -/
def loadBytes (d : Dev) (src : Nat) (img : Option Bytes) : Dev × Option Bytes :=
  if src = 3 ∧ rd d Reg.cfgLoadCtlSrc = 3 then
    let a := rd64 d Reg.cfgLoadAddrLoAddr Reg.cfgLoadAddrHiAddr
    let n := memReadLe d (a + 12) 4
    let r := memRead n.1 a (min n.2 (2 ^ 30))
    (r.1, if r.2.2 then none else some r.2.1)
  else (d, some (img.getD []))

/-- A base image has been read and is checked (R463, R475, R477). -/
def imageDone (d : Dev) (img : Option Bytes) : Dev :=
  match d.cfg.loading with
  | none => d
  | some src =>
    if !moving d then d else
    let r := loadBytes d src img
    let d := r.1
    match r.2 with
    -- a poisoned image cannot pass its check (log entry 152)
    | none => loadFailed d src 0x20 0
    | some b =>
    match container d b true (loadLimit d src) with
    | .bad code off => loadFailed d src code off
    | .ok i => match baseCheck d i with
      | some (code, off) => loadFailed d src code off
      | none => loadDone d src i

/-- Epoch 0 becomes current (R477); the MODELS graft is queued (R472). -/
def epochZero (d : Dev) : Dev :=
  match d.cfg.base with
  | none => d
  | some c =>
    if !moving d then d else
    let d := { d with epochs := [{ num := 0, cfg := c, drain := none }], cfg := { d.cfg with base := none } }
    let d := wr64 (handoverVrd d) Reg.grfBoundaryLoNs Reg.grfBoundaryHiNs (now64 d)
    let d := cfgDigest (wr d Reg.cfgBootStatState 3)
    if d.cfg.models.isSome then
      { wr d Reg.cfgBootStatModelsCode 1 with grf := { d.grf with queue := d.grf.queue ++ [65] } }
    else d

end Ops

/-- FLR (R288, R343). -/
def execFlr (fn : Fn) (s : State) : Host.Outcome State Fault Refusal := Ops.run s fun d => Ops.flr d fn
/-- PERST_ASSERT (R474). -/
def execPerstAssert (s : State) : Host.Outcome State Fault Refusal := .next { s with dev := Ops.perstAssert s.dev }
/-- PERST_RELEASE (R474). -/
def execPerstRelease (s : State) : Host.Outcome State Fault Refusal := .next { s with dev := Ops.perstRelease s.dev }
/-- CRS_END (R474). -/
def execCrsEnd (s : State) : Host.Outcome State Fault Refusal :=
  Ops.run s Ops.crsEnd
/-- SYS_RST_ASSERT (R473, R515). -/
def execSysRstAssert (rail : Bool) (s : State) : Host.Outcome State Fault Refusal :=
  .next { s with dev := Ops.sysAssert s.dev rail }
/-- SYS_RST_RELEASE (R473, R475, R517). -/
def execSysRstRelease (straps : Straps) (s : State) : Host.Outcome State Fault Refusal :=
  .next { s with dev := Ops.sysRelease s.dev straps }
/-- AON_RESET (R516). -/
def execAonReset (s : State) : Host.Outcome State Fault Refusal := .next { s with dev := Ops.aonReset s.dev }
/-- IMAGE_CHECK_DONE (R463, R477). -/
def execImageCheckDone (img : Option Bytes) (s : State) : Host.Outcome State Fault Refusal :=
  Ops.run s fun d => Ops.imageDone d img
/-- EPOCH_ZERO (R477). -/
def execEpochZero (s : State) : Host.Outcome State Fault Refusal := Ops.run s Ops.epochZero

end Sys2Proof.Machine
end

