-- ==== Sys2Proof/Machine/Bridge.lean ====
section
/-!
DEFINITION. Bridge.lean: the management bridge (R498 to R501): the JTAG TAP and the SMBus target. It acts as function 64; its
counter latches are its own, one for each path (R482).
-/
namespace Sys2Proof.Machine
namespace Ops

/-- Keys of the latches of the SMBus bridge and of the TAP (R482). -/
def smbPath : Nat := 64
def jtagPath : Nat := 65

/-- `LPE_CFG.JTAG_LOCK` (R498, R500). -/
def jtagLock (d : Dev) : Bool := rdB d Reg.lpeCfgJtagLock

/-- The status of a write that leads from `d` to `t` (R499, R500): 2 where it has ended in a bus error, which is its only output. -/
def busStatus (d t : Dev) : Nat :=
  match t.out.head? with
  | some (.busError ..) => if d.out.length < t.out.length then 2 else 0
  | _ => 0

/-- A read of the bridge ends: the device, the data, the status. The data of a read that ends in a bus error is open. -/
def bridgeRead (d : Dev) (path off : Nat) : Dev × Nat × Nat :=
  let d := regRead d 64 path off
  match d.out.head? with
  | some (.read _ _ (some v)) => (d, v, 0)
  | _ => let f := fresh d; (f.2, f.1 % 2 ^ 32, 2)

def bridgeWrite (d : Dev) (off data : Nat) : Dev × Nat :=
  let t := regWrite d 64 off data false
  (t, busStatus d t)

/-! ### JTAG -/

/-- The instruction register takes a value. -/
def setIr (d : Dev) (ir : Nat) : Dev := { d with bridge := { d.bridge with ir := ir % 256 } }

/-- The bypass register: one bit that captures 0. -/
def bypassReg (d : Dev) (ir : Nat) : Dev := emit (setIr d ir) (.jtag 0 1)

/-- An instruction of 0x10 to 0x13: BYPASS while JTAG_LOCK is set (R498). -/
def lockable (d : Dev) (ir : Nat) (f : Dev → Dev) : Dev := if jtagLock d then bypassReg d ir else f (setIr d ir)

/-- Cells of the boundary register: the VDDIO balls of R519, in the order of its table. -/
def cells : Nat := 42

/-- `HANG_N` and `CLK_FAULT_N` are asserted (R433, R486, R501). -/
def hangN (d : Dev) : Bool := gateOn d 22 && rdB d Reg.lpeHangStatHang && d.lpe.snap.isNone
def clkFaultN (d : Dev) : Bool := rdB d Reg.clkMonStatTrip || holding d || rdB d Reg.clkMonStatFatal

/-- What the boundary register captures: the levels of the balls; 3, 4 and 5 are the device's own (R409, R432, R486). -/
def capture (d : Dev) (pins : Nat) : Nat :=
  let own := [(3, !hangN d), (4, !faultN d), (5, !clkFaultN d)]
  ((List.range cells).map fun i => put (match own.find? (·.1 == i) with | some o => b2n o.2 | none => bits pins i 1) i 1).sum

/-- LPE_REG (R499): the scan shifts out the result of the latest access; its update starts the next one, which ends at once. -/
def lpeRegScan (d : Dev) (dr : Nat) : Dev :=
  let d := emit d (.jtag (put d.bridge.jtagData 24 32 + put d.bridge.jtagStat 56 2) 58)
  if !d.pins.sysRstN then d else
  let off := 4 * bits dr 1 23
  if bit dr 0 then
    let r := bridgeWrite d off (bits dr 24 32)
    { r.1 with bridge := { r.1.bridge with jtagStat := r.2 } }
  else
    let r := bridgeRead d jtagPath off
    { r.1 with bridge := { r.1.bridge with jtagData := r.2.1, jtagStat := r.2.2 } }

/-- LPE_DUMP (R497, R498): each Capture-DR reads the next word. -/
def lpeDumpScan (d : Dev) : Dev :=
  let r := dumpNext d
  emit r.1 (.jtag r.2 32)

/-! ### SMBus -/

/-- A command of the SMBus target; while JTAG_LOCK is set it does nothing and returns zeros (R500). -/
def smbCmd (d : Dev) (n : Nat) (f : Dev → Dev) : Dev :=
  if jtagLock d then (if n = 0 then d else emit d (.smbus (zeros n))) else f d

def smbWrite (d : Dev) (data : Nat) : Dev :=
  let r := bridgeWrite d d.bridge.smbAddr data
  { r.1 with bridge := { r.1.bridge with smbStat := r.2 } }

def smbRead (d : Dev) : Dev :=
  let r := bridgeRead d smbPath d.bridge.smbAddr
  emit { r.1 with bridge := { r.1.bridge with smbStat := r.2.2 } } (.smbus (leBytes 4 r.2.1))

end Ops

/-- IDCODE (R498): captures `TOP_ID`. -/
def execIdcode (s : State) : Host.Outcome State Fault Refusal :=
  Ops.runAon s fun d => Ops.emit (Ops.setIr d 0x01) (.jtag (Ops.readReg d 0 0) 32)
/-- SAMPLE_PRELOAD (R498). -/
def execSamplePreload (pins dr : Nat) (s : State) : Host.Outcome State Fault Refusal :=
  Ops.runAon s fun d =>
    Ops.emit { Ops.setIr d 0x02 with bridge := { d.bridge with ir := 0x02, boundary := dr % 2 ^ Ops.cells } }
      (.jtag (Ops.capture d pins) Ops.cells)
/-- EXTEST (R498): the balls take the boundary register while `SYS_RST_N` is low; otherwise BYPASS. -/
def execExtest (pins : Nat) (s : State) : Host.Outcome State Fault Refusal :=
  Ops.runAon s fun d =>
    if d.pins.sysRstN then Ops.bypassReg d 0x03
    else Ops.emit (Ops.emit (Ops.setIr d 0x03) (.balls d.bridge.boundary)) (.jtag (pins % 2 ^ Ops.cells) Ops.cells)
/-- LPE_STAT (R498). -/
def execLpeStat (s : State) : Host.Outcome State Fault Refusal :=
  Ops.runAon s fun d => Ops.lockable d 0x10 fun d => Ops.emit d (.jtag (Ops.readReg d 0x01600024 0) 32)
/-- LPE_FREEZE (R489, R498): Update-DR acts as a write of `LPE_FREEZE`; the 3 bits that it captures are zero. -/
def execLpeFreeze (bits : Nat) (s : State) : Host.Outcome State Fault Refusal :=
  Ops.runAon s fun d => Ops.lockable d 0x11 fun d =>
    let d := Ops.emit d (.jtag 0 3)
    if d.pins.sysRstN then Ops.access d 64 0x01600020 true fun d => Ops.freezeWrite d (bits % 8) 3 else d
/-- LPE_REG (R499). -/
def execLpeReg (dr : Nat) (s : State) : Host.Outcome State Fault Refusal :=
  Ops.runAon s fun d => Ops.lockable d 0x12 fun d => Ops.lpeRegScan d dr
/-- LPE_DUMP (R497, R498). -/
def execLpeDump (s : State) : Host.Outcome State Fault Refusal :=
  Ops.runAon s fun d => Ops.lockable d 0x13 Ops.lpeDumpScan
/-- BYPASS (R498): every other value of the instruction register, and a locked one. -/
def execBypass (ir : Nat) (s : State) : Host.Outcome State Fault Refusal := Ops.runAon s fun d => Ops.bypassReg d ir
/-- BLOCK_WRITE_ADDR (R500). -/
def execBlockWriteAddr (addr : Word) (s : State) : Host.Outcome State Fault Refusal :=
  Ops.run s fun d => Ops.smbCmd d 0 fun d => { d with bridge := { d.bridge with smbAddr := addr.toNat } }
/-- BLOCK_WRITE_DATA (R500). -/
def execBlockWriteData (data : Word) (s : State) : Host.Outcome State Fault Refusal :=
  Ops.run s fun d => Ops.smbCmd d 0 fun d => Ops.smbWrite d data.toNat
/-- BLOCK_READ_DATA (R500). -/
def execBlockReadData (s : State) : Host.Outcome State Fault Refusal :=
  Ops.run s fun d => Ops.smbCmd d 4 Ops.smbRead
/-- READ_BYTE_STATUS (R500). -/
def execReadByteStatus (s : State) : Host.Outcome State Fault Refusal :=
  Ops.run s fun d => Ops.smbCmd d 1 fun d => Ops.emit d (.smbus (Ops.leBytes 1 d.bridge.smbStat))

end Sys2Proof.Machine
end

