-- ==== Sys2Proof/Machine/MemCmd.lean ====
section
/-!
DEFINITION. MemCmd.lean: BAR2 (R318), scrubbing (R328), repair (R329 to R331), the loss of a unit (R332) and start-up (R334).
-/
namespace Sys2Proof.Machine
namespace Ops

/-- The device memory address of a BAR2 offset (R318). -/
def bar2Addr (d : Dev) (off : Nat) : Nat :=
  if off < 0xF00000000 then off else rd d Reg.memBar2WinBlock * 0x100000000 + off % 0x100000000

/-- Why BAR2 cannot reach an address: the clock hold, the gate, or an unmapped or unavailable address (R318, R420, R422, R431,
R491). -/
def bar2Cause (d : Dev) (a : Nat) : Option Nat :=
  if rd d Reg.lpeFreezeStatState = 2 then some 3
  else if holding d then some 2
  else if !gateOn d 15 then some 0
  else if !reachable d a then some 3 else none

/-- The first byte of a range that BAR2 cannot reach, with the cause. -/
def bar2Fail (d : Dev) (off n : Nat) : Option (Nat × Nat) :=
  (List.range (max n 1)).findSome? fun i => (bar2Cause d (bar2Addr d (off + i))).map fun c => (i, c)

/-- Reads `n` bytes of device memory byte range by byte range: the top window may split it. -/
def bar2Runs (off n : Nat) : List (Nat × Nat) :=
  if off < 0xF00000000 ∧ 0xF00000000 < off + n then [(off, 0xF00000000 - off), (0xF00000000, off + n - 0xF00000000)] else [(off, n)]

/-- A BAR2 read of the PF (R318, R326): the bytes, a poisoned TLP of all ones, or a completer abort. -/
def bar2Read (d : Dev) (off n : Nat) : Dev :=
  if d.hif.perst ∨ n = 0 ∨ 0x1000000000 < off + n then d
  else match bar2Fail d off n with
  | some (_, c) => busFail d 0 30 off false c
  | none =>
    let r := (bar2Runs off n).foldl (fun (x : Dev × Bytes × Bool) q =>
      let y := fabRead x.1 (bar2Addr x.1 q.1) q.2
      (y.1, x.2.1 ++ y.2.1, x.2.2 || y.2.2)) (d, [], false)
    if r.2.2 then emit r.1 (.poisoned off) else emit r.1 (.read 0 off (some (leNat r.2.1)))

/-- A BAR2 write of the PF (R318, R327): it lands, or it is discarded and logged. -/
def bar2Write (d : Dev) (off : Nat) (b : Bytes) : Dev :=
  if d.hif.perst ∨ b.isEmpty ∨ 0x1000000000 < off + b.length then d
  else match bar2Fail d off b.length with
  | some (_, c) => busFail d 0 30 off true c
  | none => each (bar2Runs off b.length) d fun d q => fabWrite d (bar2Addr d q.1) ((b.drop (q.1 - off)).take q.2)

/-- Blocks of a die and of a stack (R316, R323). -/
def unitBlocks (u : Nat) : Nat := if u < 4 then 2 ^ 24 else 2 ^ 27

/-- The address of byte `off` of unit `u` under the map in force (R316). -/
def unitAddr (d : Dev) (u off : Nat) : Nat :=
  let s := decide (u < 4)
  let g := off / 256
  let r := if map3 d s then 3 * g + ((firstIdx (· == u % 4) (liveUnits d s)).getD 0) else 4 * g + u % 4
  (if s then 0 else 0x200000000) + r * 256 + off % 256

/-- A scrubber may run: enabled, the medium initialised and served, the unit not lost, clocks running (R328, R335, R426,
R494). -/
def scrubs (d : Dev) (u : Nat) : Bool :=
  decide (u < 8) && rdB d Reg.memScrubCfgEnable && mediumUp d (if u < 4 then 0 else 0x200000000) && !unitGone d u &&
  gateOn d 15 && moving d

/-- A sweep of a unit ends: its corrections count anew (R329). -/
def sweepEnds (d : Dev) (u : Nat) : Dev :=
  { d with mem := { d.mem with rowCorr := del d.mem.rowCorr u, colCorr := del d.mem.colCorr u } }

/-- A scrubber visits its next block (R328). -/
def scrubVisit (d : Dev) (u : Nat) : Dev :=
  if !scrubs d u then d else
  let i := getD d.mem.scrub u 0
  let a := unitAddr d u (128 * i)
  let fixes := match find? d.mem.blk (a / 128) with | some e => (blkDecode e).corrected | none => false
  let d := tickIf fixes (tick (readBlock (meter d (memEvt a) 2) a 1).1 (unitCtr Ctr.memScrubBlock u)) (unitCtr Ctr.memScrubCorr u)
  let n := (i + 1) % unitBlocks u
  let d := { d with mem := { d.mem with scrub := set d.mem.scrub u n } }
  if n = 0 then sweepEnds d u else d

/-- The copy of a row meets the uncorrectable codewords of its blocks (R329): they stay as they are and are recorded with SOURCE 3. -/
def copyRow (d : Dev) (u row : Nat) : Dev :=
  each d.mem.blk d fun d p =>
    let a := 128 * p.1
    if unitAt d a = u ∧ Config.memRow u (unitOff d a / 128 * 128) = row then
      let r := blkDecode p.2
      each r.bad d fun d j => recordUe d (a + 32 * j) 3 r.ueWords
    else d

/-- A repair finds no spare (R331). -/
def repairFails (d : Dev) (u : Nat) : Dev :=
  fault (wr (tick d (unitCtr Ctr.memRepairFail u)) Reg.memErrStatRepairFail 1) 7 7 (unitName u)

/-- The oldest repair of its kind in a unit ends (R329 to R331): a spare row or column of a die, or a soft repair of an HBM row, for which
`found` tells that there was a spare. Repair does not run in a freeze or a clock hold (R494). -/
def repairDone (d : Dev) (u : Nat) (col found : Bool) : Dev :=
  match d.mem.repairs.find? fun r => r.unit == u && r.col == col with
  | none => d
  | some r =>
    if !gateOn d 15 ∨ !moving d ∨ unitGone d u then d else
    let d := { d with mem := { d.mem with repairs := d.mem.repairs.erase r } }
    let f := if col then Reg.memRepairFreeCols u else Reg.memRepairFreeRows u
    if (if u < 4 then rd d f = 0 else found = false) then repairFails d u else
    let d := if col then d else copyRow d u r.idx
    if 4 ≤ u then tick d (unitCtr Ctr.memRepairRow u)
    else tick (wr d f (rd d f - 1)) (if col then unitCtr Ctr.memRepairCol u else unitCtr Ctr.memRepairRow u)

/-- The SRAM has been zeroed (R334). -/
def sramInit (d : Dev) : Dev :=
  if !gateOn d 15 ∨ rdB d Reg.memStatSramInit then d else
  wr (memClear d 0 0x200000000) Reg.memStatSramInit 1

/-- The stacks have been trained and zeroed; those of `failed` are lost (R334). -/
def hbmInit (d : Dev) (failed : Nat) : Dev :=
  if !gateOn d 15 ∨ !rdB d Reg.memStatSramInit ∨ rdB d Reg.memStatHbmInit then d else
  let d := wr (memClear d 0x200000000 0x1000000000) Reg.memStatHbmInit 1
  each ((List.range 4).filter (bit failed)) d fun d s => unitLost d (4 + s)

end Ops

/-- BAR2_READ (R318): `len` bytes at BAR2 offset `off`. -/
def execBar2Read (off len : Nat) (s : State) : Host.Outcome State Fault Refusal :=
  Ops.run s fun d => Ops.bar2Read d off len
/-- BAR2_WRITE (R318). -/
def execBar2Write (off : Nat) (bytes : Bytes) (s : State) : Host.Outcome State Fault Refusal :=
  Ops.run s fun d => Ops.bar2Write d off bytes
/-- SCRUB_VISIT (R328): dies are units 0 to 3, stacks 4 to 7. -/
def execScrubVisit (unit : Nat) (s : State) : Host.Outcome State Fault Refusal := Ops.run s fun d => Ops.scrubVisit d unit
/-- REPAIR_COPY_DONE (R329 to R331). -/
def execRepairCopyDone (unit : Nat) (copy : RepairCopy) (s : State) : Host.Outcome State Fault Refusal :=
  Ops.run s fun d => Ops.repairDone d unit copy.col copy.found
/-- UNIT_LOST (R332). -/
def execUnitLost (unit : Nat) (s : State) : Host.Outcome State Fault Refusal := Ops.run s fun d => Ops.unitLost d unit
/-- SRAM_INIT (R334). -/
def execSramInit (s : State) : Host.Outcome State Fault Refusal := Ops.run s Ops.sramInit
/-- HBM_INIT (R334): `failed` has a bit for each stack that failed training. -/
def execHbmInit (failed : Nat) (s : State) : Host.Outcome State Fault Refusal := Ops.run s fun d => Ops.hbmInit d failed

end Sys2Proof.Machine
end

