-- ==== Sys2Proof/Machine/Dispatch.lean ====
section
/-!
DEFINITION. Dispatch.lean: one arm per command, each a direct call of its meaning.
-/
namespace Sys2Proof.Machine

/-- The effect of a command on everything but the queue. -/
def exec (i : Instr) (s : State) : Host.Outcome State Fault Refusal :=
  match i with
  | .registerWrite fn addr data => Sys2Proof.Machine.execRegisterWrite fn addr data s
  | .rwsWrite fn addr data => Sys2Proof.Machine.execRwsWrite fn addr data s
  | .rcRead fn addr => Sys2Proof.Machine.execRcRead fn addr s
  | .counterLowRead fn addr => Sys2Proof.Machine.execCounterLowRead fn addr s
  | .counterHighRead fn addr => Sys2Proof.Machine.execCounterHighRead fn addr s
  | .gatedBlockAccess fn addr wr => Sys2Proof.Machine.execGatedBlockAccess fn addr wr s
  | .frameReceive port frame mac => Sys2Proof.Machine.execFrameReceive port frame mac s
  | .pfcFrameReceive port enable quanta fcsOk => Sys2Proof.Machine.execPfcFrameReceive port enable quanta fcsOk s
  | .pfcPauseExpire port prio => Sys2Proof.Machine.execPfcPauseExpire port prio s
  | .pfcXoffRepeat => Sys2Proof.Machine.execPfcXoffRepeat s
  | .autoNegotiation port ok => Sys2Proof.Machine.execAutoNegotiation port ok s
  | .recal lane => Sys2Proof.Machine.execRecal lane s
  | .recalDone lane ok => Sys2Proof.Machine.execRecalDone lane ok s
  | .laneFail lane => Sys2Proof.Machine.execLaneFail lane s
  | .parseStart unit => Sys2Proof.Machine.execParseStart unit s
  | .flowLookup unit => Sys2Proof.Machine.execFlowLookup unit s
  | .windowAccess unit => Sys2Proof.Machine.execWindowAccess unit s
  | .turnStart unit fault => Sys2Proof.Machine.execTurnStart unit fault s
  | .turnWriteLand unit => Sys2Proof.Machine.execTurnWriteLand unit s
  | .inferenceStage unit fault => Sys2Proof.Machine.execInferenceStage unit fault s
  | .fcsCheck unit ok => Sys2Proof.Machine.execFcsCheck unit ok s
  | .verdictForm unit full => Sys2Proof.Machine.execVerdictForm unit full s
  | .recircEntry unit => Sys2Proof.Machine.execRecircEntry unit s
  | .egressSelect port => Sys2Proof.Machine.execEgressSelect port s
  | .shapingIntervalEnd => Sys2Proof.Machine.execShapingIntervalEnd s
  | .queueDepthSample => Sys2Proof.Machine.execQueueDepthSample s
  | .queueSnapshot fn data => Sys2Proof.Machine.execQueueSnapshot fn data s
  | .queueSnapshotClear fn data => Sys2Proof.Machine.execQueueSnapshotClear fn data s
  | .stemFlitReceive lanes => Sys2Proof.Machine.execStemFlitReceive lanes s
  | .stemRequestDispatch => Sys2Proof.Machine.execStemRequestDispatch s
  | .stemResponseSend => Sys2Proof.Machine.execStemResponseSend s
  | .stemAsyncSend => Sys2Proof.Machine.execStemAsyncSend s
  | .stemAsyncTimeout => Sys2Proof.Machine.execStemAsyncTimeout s
  | .stemWindowWrite fn data => Sys2Proof.Machine.execStemWindowWrite fn data s
  | .stemWindowHandover => Sys2Proof.Machine.execStemWindowHandover s
  | .linkEnable link => Sys2Proof.Machine.execLinkEnable link s
  | .linkDisable link => Sys2Proof.Machine.execLinkDisable link s
  | .fecLock link lanes => Sys2Proof.Machine.execFecLock link lanes s
  | .laneAlign link => Sys2Proof.Machine.execLaneAlign link s
  | .paramExchange link peer => Sys2Proof.Machine.execParamExchange link peer s
  | .trainingTimeout link => Sys2Proof.Machine.execTrainingTimeout link s
  | .lossOfLock link => Sys2Proof.Machine.execLossOfLock link s
  | .retrain link => Sys2Proof.Machine.execRetrain link s
  | .retrainCleared link => Sys2Proof.Machine.execRetrainCleared link s
  | .agingScanVisit => Sys2Proof.Machine.execAgingScanVisit s
  | .cmdRead core data => Sys2Proof.Machine.execCmdRead core data s
  | .cmdInsert core data => Sys2Proof.Machine.execCmdInsert core data s
  | .cmdDelete core data => Sys2Proof.Machine.execCmdDelete core data s
  | .cmdClearContest core data => Sys2Proof.Machine.execCmdClearContest core data s
  | .cmdZeroState core data => Sys2Proof.Machine.execCmdZeroState core data s
  | .cmdClearBucket core data => Sys2Proof.Machine.execCmdClearBucket core data s
  | .shadowWalkVisit host => Sys2Proof.Machine.execShadowWalkVisit host s
  | .shadowSnap => Sys2Proof.Machine.execShadowSnap s
  | .tbStepWrite hi => Sys2Proof.Machine.execTbStepWrite hi s
  | .tbStepApply => Sys2Proof.Machine.execTbStepApply s
  | .tbSlewWrite ns => Sys2Proof.Machine.execTbSlewWrite ns s
  | .ppsEdge gpio => Sys2Proof.Machine.execPpsEdge gpio s
  | .qntHold fn data => Sys2Proof.Machine.execQntHold fn data s
  | .qntSnapshot fn data => Sys2Proof.Machine.execQntSnapshot fn data s
  | .qntSnapshotClear fn data => Sys2Proof.Machine.execQntSnapshotClear fn data s
  | .labelIntake src raw => Sys2Proof.Machine.execLabelIntake src raw s
  | .labelApply => Sys2Proof.Machine.execLabelApply s
  | .leafPathExpire => Sys2Proof.Machine.execLeafPathExpire s
  | .espRefitSwap fn slot => Sys2Proof.Machine.execEspRefitSwap fn slot s
  | .espRefitClear fn slot => Sys2Proof.Machine.execEspRefitClear fn slot s
  | .espRefitDone => Sys2Proof.Machine.execEspRefitDone s
  | .hrfSwap fn slot => Sys2Proof.Machine.execHrfSwap fn slot s
  | .hrfClear fn slot => Sys2Proof.Machine.execHrfClear fn slot s
  | .hrfDone => Sys2Proof.Machine.execHrfDone s
  | .flowRunStart => Sys2Proof.Machine.execFlowRunStart s
  | .flowRunComplete fault => Sys2Proof.Machine.execFlowRunComplete fault s
  | .slotAssign slot data => Sys2Proof.Machine.execSlotAssign slot data s
  | .refitInterval slot => Sys2Proof.Machine.execRefitInterval slot s
  | .refitCommit fn slot => Sys2Proof.Machine.execRefitCommit fn slot s
  | .refitDiscard fn slot => Sys2Proof.Machine.execRefitDiscard fn slot s
  | .taskDispatch cls core => Sys2Proof.Machine.execTaskDispatch cls core s
  | .pfTaskPost data => Sys2Proof.Machine.execPfTaskPost data s
  | .taskPop core => Sys2Proof.Machine.execTaskPop core s
  | .taskDone core status score win => Sys2Proof.Machine.execTaskDone core status score win s
  | .taskWatchdog core => Sys2Proof.Machine.execTaskWatchdog core s
  | .mboxIn core => Sys2Proof.Machine.execMboxIn core s
  | .mboxOut core msg => Sys2Proof.Machine.execMboxOut core msg s
  | .doorbellDmaChannel core ch tail => Sys2Proof.Machine.execDoorbellDmaChannel core ch tail s
  | .doorbellRefitReady core slot changed => Sys2Proof.Machine.execDoorbellRefitReady core slot changed s
  | .registerWindowAccess core addr op => Sys2Proof.Machine.execRegisterWindowAccess core addr op s
  | .h2cDeliver core hi => Sys2Proof.Machine.execH2cDeliver core hi s
  | .c2hFree core => Sys2Proof.Machine.execC2hFree core s
  | .coreDrain core => Sys2Proof.Machine.execCoreDrain core s
  | .coreStart core => Sys2Proof.Machine.execCoreStart core s
  | .coreFault core => Sys2Proof.Machine.execCoreFault core s
  | .fwLoad => Sys2Proof.Machine.execFwLoad s
  | .fwLoadDone => Sys2Proof.Machine.execFwLoadDone s
  | .exceptionRecord core => Sys2Proof.Machine.execExceptionRecord core s
  | .graftSubmit fn data => Sys2Proof.Machine.execGraftSubmit fn data s
  | .graftStageStart list => Sys2Proof.Machine.execGraftStageStart list s
  | .graftStageDone => Sys2Proof.Machine.execGraftStageDone s
  | .graftCommit => Sys2Proof.Machine.execGraftCommit s
  | .epochRetire x => Sys2Proof.Machine.execEpochRetire x s
  | .epochExpire x => Sys2Proof.Machine.execEpochExpire x s
  | .groupPrepare tag list payloads => Sys2Proof.Machine.execGroupPrepare tag list payloads s
  | .groupReply member status => Sys2Proof.Machine.execGroupReply member status s
  | .groupPrepareTimeout => Sys2Proof.Machine.execGroupPrepareTimeout s
  | .groupCommit tc => Sys2Proof.Machine.execGroupCommit tc s
  | .groupAbort => Sys2Proof.Machine.execGroupAbort s
  | .groupCommitTimeout => Sys2Proof.Machine.execGroupCommitTimeout s
  | .groupAckTimeout => Sys2Proof.Machine.execGroupAckTimeout s
  | .bar2Read off len => Sys2Proof.Machine.execBar2Read off len s
  | .bar2Write off bytes => Sys2Proof.Machine.execBar2Write off bytes s
  | .scrubVisit unit => Sys2Proof.Machine.execScrubVisit unit s
  | .repairCopyDone unit copy => Sys2Proof.Machine.execRepairCopyDone unit copy s
  | .unitLost unit => Sys2Proof.Machine.execUnitLost unit s
  | .sramInit => Sys2Proof.Machine.execSramInit s
  | .hbmInit failed => Sys2Proof.Machine.execHbmInit failed s
  | .errorInjectArm data => Sys2Proof.Machine.execErrorInjectArm data s
  | .channelEnable ch => Sys2Proof.Machine.execChannelEnable ch s
  | .channelDisable ch => Sys2Proof.Machine.execChannelDisable ch s
  | .channelResume ch => Sys2Proof.Machine.execChannelResume ch s
  | .channelReset ch => Sys2Proof.Machine.execChannelReset ch s
  | .tailDoorbell fn ch tail => Sys2Proof.Machine.execTailDoorbell fn ch tail s
  | .descriptorFetch ch host => Sys2Proof.Machine.execDescriptorFetch ch host s
  | .nop ch => Sys2Proof.Machine.execNop ch s
  | .copy ch src preempt => Sys2Proof.Machine.execCopy ch src preempt s
  | .gather ch src aux preempt => Sys2Proof.Machine.execGather ch src aux preempt s
  | .pack ch src preempt => Sys2Proof.Machine.execPack ch src preempt s
  | .transpose ch src preempt => Sys2Proof.Machine.execTranspose ch src preempt s
  | .job ch src fault => Sys2Proof.Machine.execJob ch src fault s
  | .replay ch src => Sys2Proof.Machine.execReplay ch src s
  | .label ch src => Sys2Proof.Machine.execLabel ch src s
  | .except ch => Sys2Proof.Machine.execExcept ch s
  | .descriptorComplete ch => Sys2Proof.Machine.execDescriptorComplete ch s
  | .busRetry ch ok => Sys2Proof.Machine.execBusRetry ch ok s
  | .flr fn => Sys2Proof.Machine.execFlr fn s
  | .linkFlitReceive link lanes => Sys2Proof.Machine.execLinkFlitReceive link lanes s
  | .helloSend => Sys2Proof.Machine.execHelloSend s
  | .helloReceive link id eligible epoch live => Sys2Proof.Machine.execHelloReceive link id eligible epoch live s
  | .memberTimeout id => Sys2Proof.Machine.execMemberTimeout id s
  | .masterSettle => Sys2Proof.Machine.execMasterSettle s
  | .timeExchange => Sys2Proof.Machine.execTimeExchange s
  | .timeReply t2 t3 => Sys2Proof.Machine.execTimeReply t2 t3 s
  | .handoverReceive link handle peer hop => Sys2Proof.Machine.execHandoverReceive link handle peer hop s
  | .resultReceive handle msg => Sys2Proof.Machine.execResultReceive handle msg s
  | .steerClaimReceive peer entry => Sys2Proof.Machine.execSteerClaimReceive peer entry s
  | .steerSetReceive entry owner => Sys2Proof.Machine.execSteerSetReceive entry owner s
  | .steerEntrySnapshot data => Sys2Proof.Machine.execSteerEntrySnapshot data s
  | .floodReceive peer msg => Sys2Proof.Machine.execFloodReceive peer msg s
  | .labelForwardReceive raw => Sys2Proof.Machine.execLabelForwardReceive raw s
  | .heartbeatSend => Sys2Proof.Machine.execHeartbeatSend s
  | .heartbeatReceive role fltState epoch => Sys2Proof.Machine.execHeartbeatReceive role fltState epoch s
  | .partnerTimeout => Sys2Proof.Machine.execPartnerTimeout s
  | .takeover => Sys2Proof.Machine.execTakeover s
  | .takeoverDone => Sys2Proof.Machine.execTakeoverDone s
  | .mirrorDeltaSend => Sys2Proof.Machine.execMirrorDeltaSend s
  | .mirrorDeltaApply delta => Sys2Proof.Machine.execMirrorDeltaApply delta s
  | .chainHeadReceive boot resets interval tenant chain count val => Sys2Proof.Machine.execChainHeadReceive boot resets interval tenant chain count val s
  | .join partner => Sys2Proof.Machine.execJoin partner s
  | .joinBoundary => Sys2Proof.Machine.execJoinBoundary s
  | .syncSweepVisit => Sys2Proof.Machine.execSyncSweepVisit s
  | .faultDetect cls unit => Sys2Proof.Machine.execFaultDetect cls unit s
  | .fltInject data => Sys2Proof.Machine.execFltInject data s
  | .remapCopyDone => Sys2Proof.Machine.execRemapCopyDone s
  | .holdExit => Sys2Proof.Machine.execHoldExit s
  | .release => Sys2Proof.Machine.execRelease s
  | .dvfsTargetWrite dom data => Sys2Proof.Machine.execDvfsTargetWrite dom data s
  | .dvfsStepDone dom => Sys2Proof.Machine.execDvfsStepDone dom s
  | .gateRequest upper data => Sys2Proof.Machine.execGateRequest upper data s
  | .gateOnDone gate => Sys2Proof.Machine.execGateOnDone gate s
  | .gateOffDone gate => Sys2Proof.Machine.execGateOffDone gate s
  | .gateForcedOff gate => Sys2Proof.Machine.execGateForcedOff gate s
  | .domainRequest data => Sys2Proof.Machine.execDomainRequest data s
  | .domainOffDone dom => Sys2Proof.Machine.execDomainOffDone dom s
  | .domainOnDone dom => Sys2Proof.Machine.execDomainOnDone dom s
  | .sourceSelect data => Sys2Proof.Machine.execSourceSelect data s
  | .pllLock => Sys2Proof.Machine.execPllLock s
  | .fallbackReady => Sys2Proof.Machine.execFallbackReady s
  | .refReady => Sys2Proof.Machine.execRefReady s
  | .monitorTrip pll => Sys2Proof.Machine.execMonitorTrip pll s
  | .sourceCompare far => Sys2Proof.Machine.execSourceCompare far s
  | .holdRestart => Sys2Proof.Machine.execHoldRestart s
  | .holdFatal => Sys2Proof.Machine.execHoldFatal s
  | .sdRefLost => Sys2Proof.Machine.execSdRefLost s
  | .thermalSample temps => Sys2Proof.Machine.execThermalSample temps s
  | .railSample energy => Sys2Proof.Machine.execRailSample energy s
  | .signetIntervalEnd => Sys2Proof.Machine.execSignetIntervalEnd s
  | .batchWrite => Sys2Proof.Machine.execBatchWrite s
  | .calLoad => Sys2Proof.Machine.execCalLoad s
  | .calLoadDone => Sys2Proof.Machine.execCalLoadDone s
  | .sysRstAssert rail => Sys2Proof.Machine.execSysRstAssert rail s
  | .sysRstRelease straps => Sys2Proof.Machine.execSysRstRelease straps s
  | .aonReset => Sys2Proof.Machine.execAonReset s
  | .perstAssert => Sys2Proof.Machine.execPerstAssert s
  | .crsEnd => Sys2Proof.Machine.execCrsEnd s
  | .cfgLoad data => Sys2Proof.Machine.execCfgLoad data s
  | .imageCheckDone img => Sys2Proof.Machine.execImageCheckDone img s
  | .epochZero => Sys2Proof.Machine.execEpochZero s
  | .writeRoot slot => Sys2Proof.Machine.execWriteRoot slot s
  | .revokeRoot slot => Sys2Proof.Machine.execRevokeRoot slot s
  | .writeImgKey => Sys2Proof.Machine.execWriteImgKey s
  | .raiseSvn val => Sys2Proof.Machine.execRaiseSvn val s
  | .fuseProgramDone ok => Sys2Proof.Machine.execFuseProgramDone ok s
  | .watchdogFire idx => Sys2Proof.Machine.execWatchdogFire idx s
  | .snapshotDone => Sys2Proof.Machine.execSnapshotDone s
  | .counterSample => Sys2Proof.Machine.execCounterSample s
  | .freezePin => Sys2Proof.Machine.execFreezePin s
  | .freeze => Sys2Proof.Machine.execFreeze s
  | .freezeCut => Sys2Proof.Machine.execFreezeCut s
  | .dumpReady => Sys2Proof.Machine.execDumpReady s
  | .memOpen => Sys2Proof.Machine.execMemOpen s
  | .resume pinHigh => Sys2Proof.Machine.execResume pinHigh s
  | .resumeBoundary => Sys2Proof.Machine.execResumeBoundary s
  | .dumpRead fn => Sys2Proof.Machine.execDumpRead fn s
  | .dumpStart => Sys2Proof.Machine.execDumpStart s
  | .idcode => Sys2Proof.Machine.execIdcode s
  | .samplePreload pins dr => Sys2Proof.Machine.execSamplePreload pins dr s
  | .extest pins => Sys2Proof.Machine.execExtest pins s
  | .lpeStat => Sys2Proof.Machine.execLpeStat s
  | .lpeFreeze bits => Sys2Proof.Machine.execLpeFreeze bits s
  | .lpeReg dr => Sys2Proof.Machine.execLpeReg dr s
  | .lpeDump => Sys2Proof.Machine.execLpeDump s
  | .bypass ir => Sys2Proof.Machine.execBypass ir s
  | .blockWriteAddr addr => Sys2Proof.Machine.execBlockWriteAddr addr s
  | .blockWriteData data => Sys2Proof.Machine.execBlockWriteData data s
  | .blockReadData => Sys2Proof.Machine.execBlockReadData s
  | .readByteStatus => Sys2Proof.Machine.execReadByteStatus s
  | .signalDetect link lanes => Sys2Proof.Machine.execSignalDetect link lanes s
  | .portLinkUp port => Sys2Proof.Machine.execPortLinkUp port s
  | .timeRequestReceive peer t1 => Sys2Proof.Machine.execTimeRequestReceive peer t1 s
  | .commitAckReceive member => Sys2Proof.Machine.execCommitAckReceive member s
  | .perstRelease => Sys2Proof.Machine.execPerstRelease s

end Sys2Proof.Machine
end

