-- ==== Sys2Proof/Machine/Step.lean ====
section
/-!
DEFINITION. Step.lean: one step takes the command at the front of the queue; with an empty queue one CLK_TIME cycle
passes (log entry 6); in reset the time base stands still (R473). The block decodes no words (log entry 7), so nothing is fetched.
-/
namespace Sys2Proof.Machine

/-- One step. -/
def step (s : State) : Host.Outcome State Fault Refusal :=
  match s.pending with
  | [] => .next { s with dev := if s.dev.pins.sysRstN then Ops.timeTick s.dev else s.dev }
  | c :: rest => exec c { s with pending := rest }

/-- The state in which the next step runs the command that a word spells: no row of the table gives bits, so no word
spells a command and the state is unchanged (log entry 7). -/
def State.withFetchWord (s : State) (_nbits _w : Nat) : State := s

end Sys2Proof.Machine
end

