-- ==== Sys2Proof/Safety.lean ====
section
/-!
DEFINITION. Safety.lean: what counts as a safe state, and the words in which the statements speak of a command's effect: the
device runs, an access arrives, what a command leaves as it was.
-/
namespace Sys2Proof

/-- A device whose state is not specified is in reset (R515). -/
abbrev Safe (s : Machine.State) : Prop := s.dev.pins.railLost = true → s.dev.pins.sysRstN = false

namespace Machine

/-- `SYS_RST_N` is high and no rail is lost: the device runs (R473, R515). -/
abbrev Awake (s : State) : Prop := s.dev.pins.sysRstN = true ∧ s.dev.pins.railLost = false

/-- An access of function `fn` to PF BAR0 address `addr` arrives at its block: HIF lets it through (R340, R474); the block's gate is
ON and no clock hold keeps it; a write is not discarded in a freeze (R11, R431, R474, R491). -/
abbrev Arrives (d : Dev) (fn addr : Nat) (write : Bool) : Prop :=
  Ops.reaches d fn = true ∧ Ops.blockCause d (addr / 0x100000) = none ∧
    (write = true → Ops.discards d (addr / 0x100000) = false)

/-- The command completes: its meaning answers a next state, the waiting commands stay as they are, and the device after it
satisfies `P`. -/
def Does (c : Instr) (s : State) (P : Dev → Prop) : Prop :=
  ∃ t : State, exec c s = .next t ∧ t.pending = s.pending ∧ P t.dev

/-- The commands that act on a device that `SYS_RST_N` holds in reset: the edges of the resets, the readiness of the clock sources,
the TAP (R429, R473, R474, R498, R516). -/
def actsInReset : Instr → Bool
  | .sysRstAssert _ | .sysRstRelease _ | .aonReset | .perstAssert | .perstRelease | .refReady | .fallbackReady | .idcode
  | .samplePreload _ _ | .extest _ | .lpeStat | .lpeFreeze _ | .lpeReg _ | .lpeDump | .bypass _ => true
  | _ => false

/-- The edges of the resets, which act on every device (R473, R474, R515, R516). -/
def resetEdge : Instr → Bool
  | .sysRstAssert _ | .sysRstRelease _ | .aonReset | .perstAssert | .perstRelease => true
  | _ => false

/-- Every register field but those with these keys reads as before. -/
def RegsKept (d d' : Dev) (keys : List Nat) : Prop := ∀ f : Fld, f.key ∉ keys → Ops.rd d' f = Ops.rd d f

/-- Every counter but those at these addresses reads as before. -/
def CtrsKept (d d' : Dev) (addrs : List Nat) : Prop := ∀ a : Nat, a ∉ addrs → Ops.ctr d' a = Ops.ctr d a

/-- Every byte of device memory outside the `n` bytes at `a` reads as before. -/
def MemKept (d d' : Dev) (a n : Nat) : Prop :=
  ∀ x : Nat, x < a ∨ a + n ≤ x → Ops.byteGet d'.mem.cells x = Ops.byteGet d.mem.cells x

/-- Only register fields with these keys may change. -/
def RegsOnly (d d' : Dev) (keys : List Nat) : Prop := RegsKept d d' keys ∧ { d' with regs := d.regs } = d

/-- Only register fields with these keys and counters at these addresses may change. -/
def RegsCtrsOnly (d d' : Dev) (keys addrs : List Nat) : Prop :=
  RegsKept d d' keys ∧ CtrsKept d d' addrs ∧ { d' with regs := d.regs, ctrs := d.ctrs } = d

/-- As `RegsCtrsOnly`, and the device may send or hold back an interrupt (R342, R366). -/
def Signals (d d' : Dev) (keys addrs : List Nat) : Prop :=
  RegsKept d d' keys ∧ CtrsKept d d' (Ops.vecBad :: addrs) ∧
    { d' with regs := d.regs, ctrs := d.ctrs, out := d.out, hif := { d'.hif with msixPend := d.hif.msixPend } } = d

/-- Device memory holds `b` at `a`, and every other byte as before. -/
def Stored (d d' : Dev) (a : Nat) (b : Bytes) : Prop :=
  ∀ x : Nat, Ops.byteGet d'.mem.cells x = if a ≤ x ∧ x < a + b.length then b.getD (x - a) 0 else Ops.byteGet d.mem.cells x

/-- `n` bytes at `a` of device memory are served as they stand: their medium is up, their unit lives, no codeword of their blocks holds
an error, no injection waits (R326, R327, R332, R334, R337). -/
abbrev Lands (d : Dev) (a n : Nat) : Prop :=
  (∀ b ∈ Ops.blocksOf a n, Ops.served d (128 * b) = true ∧ Ops.find? d.mem.blk b = none) ∧ Ops.rdB d Reg.memInjCtlArm = false

/-- Entry `i` of the flow table and its side record are served as they stand (R91). -/
abbrev EntLands (d : Dev) (i : Nat) : Prop := Lands d (Ops.entAddr d i) 128 ∧ Lands d (Ops.sideAddr d i) 16

/-- No lookup is due: what comes now ranks after no other in bank order (R97). -/
abbrev NoneDue (d : Dev) : Prop := ∀ p ∈ d.units, Ops.lookupDue d p.2 = false

/-- `n` bytes at `a` are served as they stand and lie outside the flow table and its side records (R91, R320). -/
abbrev PlainMem (d : Dev) (a n : Nat) : Prop := Lands d a n ∧ Ops.meets d 0 a n = false ∧ Ops.meets d 1 a n = false

/-- A read of `n` bytes at `a` of device memory (`dev`) or host memory gives `b`; the contents of a region that the device fills without a
layout of the spec's are open (R320, R345). -/
def Reads (d : Dev) (dev : Bool) (a n : Nat) (host : Option Bytes) (b : Bytes) : Prop :=
  if dev then PlainMem d a n ∧ (∀ id ∈ [2, 3, 4, 9], Ops.meets d id a n = false) ∧ b = Ops.memGet d a n
  else ∃ h : Bytes, host = some h ∧ n ≤ h.length ∧ b = h.take n

/-- Descriptor `i` of channel `c`, `x`, of operation `op`, starts now (R346, R355, R360, R361). -/
abbrev Starts (d : Dev) (c i op : Nat) (x : Desc) : Prop :=
  Ops.dmaRuns d = true ∧ Ops.chState d c = 1 ∧ Ops.current (Ops.chan d c) = some i ∧ (Ops.chan d c).flight[i]? = some x ∧
    x.op = op ∧ x.waiting = false ∧ x.tries = 0 ∧ (x.barrier = true → i = 0) ∧ (op = 4 → x.started = true ∨ Ops.buffersHeld d < 16)

/-- Nothing refuses the descriptor once it has started (R349, R350, R363). -/
abbrev Admitted (d : Dev) (c i : Nat) (x : Desc) : Prop := Ops.descRefused (Ops.descStart d c i) c x = none

/-- The descriptor has run with this status and these destination bytes; the other descriptors and channels are as before. -/
def Ran (d d' : Dev) (c i : Nat) (x : Desc) (st done : Nat) : Prop :=
  (∃ e : Nat, (Ops.chan d' c).flight = (Ops.chan d c).flight.set i { x with started := true, status := some st, done, energy := e }) ∧
    ∀ k : Nat, k ≠ c → Ops.find? d'.chans k = Ops.find? d.chans k

/-- Addresses of PF BAR0 whose write does more than its access codes say: a command of the table, or a rule of a block. -/
def ownEffect (a : Nat) : Bool :=
  [0x100, 0x104, 0x100004, 0x100104, 0x100114, 0x100124, 0x100200, 0x100814, 0x100818, 0x10081C, 0x20000C, 0x205C00, 0x301010, 0x500000,
    0x500010, 0x70005C, 0x700100, 0x700040, 0x900000, 0x900080, 0xA00200, 0xB00200, 0xC00810, 0xC0091C, 0xE00104, 0xE00410, 0x1200050,
    0x1300008, 0x1400008, 0x140000C, 0x1500000, 0x1500030, 0x1500034, 0x1600000, 0x1600020, 0x1600030, 0x1600044, 0x1600048,
    0x1700440].contains a ||
  [(0x204000, 0x204400), (0x400100, 0x400180), (0x400200, 0x400280), (0xC00200, 0xC00240), (0xC00400, 0xC00500),
    (0x1010000, 0x1050000), (0x1200010, 0x1200020), (0x1300028, 0x1300030)].any (fun r => decide (r.1 ≤ a ∧ a < r.2)) ||
  (decide (0x205000 ≤ a ∧ a < 0x205800) && a % 8 == 0) || (decide (0xC02000 ≤ a ∧ a < 0xC02400) && a % 16 == 4) ||
  (decide (0x1500400 ≤ a ∧ a < 0x1500C00) && decide (a % 32 < 8))

end Machine
end Sys2Proof
end

