-- ==== Sys2Proof/Certificates/Slice0/Obligations.lean ====
section
/-!
DEFINITION. Certificates/Slice0/Obligations.lean: the statements. Each says in its docstring which rules it follows, and where it
rests on a choice of the model. `Does c s P` says that the command `c` completes in the state `s`, with the commands that wait
unchanged, and that the device after it satisfies `P`.
-/
open Sys2Proof Sys2Proof.Machine

/-! ### The queue, the resets, the whole machine -/

/-- A step takes the command at the front of the queue and runs it on the state with the rest of the queue; an empty queue lets one
CLK_TIME cycle pass while `SYS_RST_N` is high (R139; the form of the queue is the model's own, log entry 6). -/
def Obligations.StepTakesTheFrontCommand : Prop :=
  (∀ (c : Instr) (rest : List Instr) (d : Dev),
    step { dev := d, pending := c :: rest } = exec c { dev := d, pending := rest }) ∧
  (∀ d : Dev, d.pins.sysRstN = true → step { dev := d, pending := [] } = .next { dev := Ops.timeTick d, pending := [] }) ∧
  (∀ d : Dev, d.pins.sysRstN = false → step { dev := d, pending := [] } = .next { dev := d, pending := [] })

/-- What reset leaves: no command waits, `SYS_RST_N` is high, every register field holds the reset value of its table, every counter is
zero, memory lists nothing and has its canonical form, the always-on blocks and the gates of `TOP_GATE_EN` are ON and every other gate is
off, every power domain is ON, no epoch exists (R419, R420, R427, R473). Where the spec gives no reset value the model names one (log
entries 1 and 2). -/
def Obligations.ResetLeaves : Prop :=
  State.reset.pending = [] ∧ Awake State.reset ∧ Safe State.reset ∧
  (∀ f : Fld, Ops.rd State.reset.dev f = f.rst) ∧ (∀ a : Nat, Ops.ctr State.reset.dev a = 0) ∧
  Memory.wf State.reset.dev.mem.cells = true ∧ (∀ a : Nat, Ops.byteGet State.reset.dev.mem.cells a = 0) ∧
  (∀ k : Nat, k < 24 → (Ops.gateOn State.reset.dev k = true ↔ k ∈ [0, 1, 2, 3, 17, 20, 23])) ∧
  (∀ k : Nat, k < 14 → Ops.domOn State.reset.dev k = true) ∧ State.reset.dev.epochs = [] ∧ State.reset.dev.units = []

/-- Every step keeps `Safe`: a device whose state is not specified stays in reset until the release (R515). -/
def Obligations.EveryStepKeepsSafe : Prop :=
  ∀ s t : State, Safe s → step s = .next t → Safe t

/-- The straps and the level of `SYS_RST_N` change only at the edges of `SYS_RST_N` and of VDD_AON, whatever is commanded; the release
latches its straps, and the AON reset returns them to their power-up value (R473, R515, R516). -/
def Obligations.StrapsAreLatchedAtTheRelease : Prop :=
  (∀ (c : Instr) (s t : State), exec c s = .next t → t.dev.straps ≠ s.dev.straps ∨ t.dev.pins.sysRstN ≠ s.dev.pins.sysRstN →
    (∃ rail, c = .sysRstAssert rail) ∨ (∃ x, c = .sysRstRelease x) ∨ c = .aonReset) ∧
  (∀ (x : Straps) (s : State), s.dev.pins.sysRstN = false →
    Does (.sysRstRelease x) s fun d => d.straps = x ∧ d.pins.sysRstN = true ∧ d.pins.railLost = false) ∧
  (∀ (x : Straps) (s : State), s.dev.pins.sysRstN = true → Does (.sysRstRelease x) s fun d => d = s.dev)

/-- While `SYS_RST_N` is low every command but the edges of the resets, the readiness of the clock sources and the TAP's scans leaves the
device as it is (R473; that an event which cannot happen in reset is ignored is the model's choice, log entry 11). -/
def Obligations.ResetHoldsTheDevice : Prop :=
  ∀ (c : Instr) (s : State), s.dev.pins.sysRstN = false → s.dev.pins.railLost = false → actsInReset c = false →
    exec c s = .next s

/-- On a device that runs every command completes and leaves the commands that wait as they are. -/
def Obligations.EveryCommandCompletes : Prop :=
  ∀ (c : Instr) (s : State), Awake s → ∃ t : State, exec c s = .next t ∧ t.pending = s.pending

/-- The only stop is that of a device whose rail has fallen while `SYS_RST_N` was high: its state is not specified (R515), and every
command stops by that name but the edges of the resets, which complete on every device. -/
def Obligations.OnlyALostRailStops : Prop :=
  (∀ (c : Instr) (s : State), resetEdge c = true → ∃ t : State, exec c s = .next t ∧ t.pending = s.pending) ∧
  (∀ (c : Instr) (s : State), resetEdge c = false → (s.dev.pins.railLost = true ↔ exec c s = .fault .railUnspecified)) ∧
  (∀ (c : Instr) (s : State) (r : Refusal), exec c s ≠ .refused r)

/-! ### The register bus -/

/-- A write by access code (R5, R9, R285), under each of the three commands that write a register: a RW field takes the written value
unless the register's ranges refuse it, a W1C field loses the bits written as 1, a WO field takes the value, a RO or RC field keeps its
value; an RWS field keeps its value and its shadow takes the written one, unless the ranges refuse it; no other field, no other shadow and
nothing else of the device changes, but for `HANDOVER_STALL`, which counts a write of an RWS register that was stalled (R285). `homeFld` is
the copy of the field that the function and the select registers name. Registers with an effect of their own (`ownEffect`) are shut out
here. A write of a field that a VF's window does not let it write is ignored (R504, R505). -/
def Obligations.RegisterWriteFollowsItsAccessCodes : Prop :=
  (∀ (c : Instr) (s : State) (fn : Fn) (addr : Nat) (data : Word) (a copy : Nat) (stall : Bool),
    (stall = false ∧ (c = .registerWrite fn addr data ∨ c = .gatedBlockAccess fn addr (some data))) ∨ c = .rwsWrite fn addr ⟨data, stall⟩ →
    Awake s → Ops.locate s.dev fn addr = .reg a copy → 0 < fn.val → fn.val < 64 → Ops.vfReadOnly a = true →
    Arrives s.dev fn a true → Does c s fun d => d = s.dev) ∧
  ∀ (c : Instr) (s : State) (fn : Fn) (addr : Nat) (data : Word) (a copy : Nat) (r : Row) (stall : Bool),
    (stall = false ∧ (c = .registerWrite fn addr data ∨ c = .gatedBlockAccess fn addr (some data))) ∨ c = .rwsWrite fn addr ⟨data, stall⟩ →
    Awake s → Ops.locate s.dev fn addr = .reg a copy → ¬(0 < fn.val ∧ fn.val < 64 ∧ Ops.vfReadOnly a = true) →
    Arrives s.dev fn a true → ownEffect a = false → Ops.rowAt a = some r →
    Does c s fun d =>
      (∀ g ∈ r.flds,
        let f := Ops.homeFld s.dev a copy (.at a g.lo g.w g.rst)
        let v := Ops.bits data.toNat g.lo g.w
        Ops.rd d f = (match g.acc with
          | .rw => if Ops.takes g.ok g.w v then Ops.landing g.ok v else Ops.rd s.dev f
          | .w1c => (Ops.rd s.dev f - (Ops.rd s.dev f &&& v)) % 2 ^ g.w
          | .wo => v
          | _ => Ops.rd s.dev f) ∧
        Ops.find? d.shadow f.key = (if g.acc = .rws ∧ Ops.takes g.ok g.w v = true then some v else Ops.find? s.dev.shadow f.key)) ∧
      RegsKept s.dev d (r.flds.map fun g => (Ops.homeFld s.dev a copy (.at a g.lo g.w g.rst)).key) ∧
      (∀ k, k ∉ (r.flds.map fun g => (Ops.homeFld s.dev a copy (.at a g.lo g.w g.rst)).key) →
        Ops.find? d.shadow k = Ops.find? s.dev.shadow k) ∧
      Ops.ctr d Ctr.grfHandoverStall = (Ops.ctr s.dev Ctr.grfHandoverStall +
        Ops.b2n (stall && r.flds.any fun g => g.acc == .rws)) % 2 ^ 64 ∧
      CtrsKept s.dev d [Ctr.grfHandoverStall] ∧
      { d with regs := s.dev.regs, shadow := s.dev.shadow, ctrs := s.dev.ctrs } = s.dev

/-- A read by access code (R5, R285), under each of the two commands that read a register in this way: the word returned holds, in the bits
of each field that is kept as a field (not one that the device computes from its state), zero for a WO field, the value written last for an
RWS field, and the current value for the rest; an RC field is zero afterwards, unless the device is frozen (R491); no other field and
nothing else of the device changes. Counters and pairs read as counters, the mailbox word that a read frees and the dump port have
statements of their own. -/
def Obligations.RegisterReadFollowsItsAccessCodes : Prop :=
  ∀ (c : Instr) (s : State) (fn : Fn) (addr a copy : Nat) (r : Row),
    c = .rcRead fn addr ∨ c = .gatedBlockAccess fn addr none →
    Awake s → Ops.locate s.dev fn addr = .reg a copy → Arrives s.dev fn a false → Ops.rowAt a = some r →
    Ops.latched a = false → Ops.latched (a - 4) = false → Ops.viewWord s.dev a = none →
    ¬(0xC02000 ≤ a ∧ a < 0xC02400 ∧ a % 16 = 12) → a ≠ 0x1600038 →
    Does c s fun d =>
      (∃ v, d.out = .read fn addr (some v) :: s.dev.out ∧ ∀ g ∈ r.flds,
        let f := Ops.homeFld s.dev a copy (.at a g.lo g.w g.rst)
        (Ops.viewFlds s.dev a).find? (fun p => p.1 == g.lo) = none →
        Ops.bits v g.lo g.w = (match g.acc with
          | .wo => 0
          | .rws => Ops.shd s.dev f
          | _ => Ops.rd s.dev f) % 2 ^ g.w) ∧
      (∀ g ∈ r.flds, g.acc = .rc → Ops.rd s.dev Reg.lpeFreezeStatState = 0 →
        Ops.rd d (Ops.homeFld s.dev a copy (.at a g.lo g.w g.rst)) = 0) ∧
      RegsKept s.dev d ((r.flds.filter fun g => g.acc == .rc).map fun g => (Ops.homeFld s.dev a copy (.at a g.lo g.w g.rst)).key) ∧
      (Ops.rd s.dev Reg.lpeFreezeStatState ≠ 0 → d.regs = s.dev.regs) ∧ { d with regs := s.dev.regs, out := s.dev.out } = s.dev

/-- A 64-bit counter (R10): reading the low half returns it and latches the high half for that function and counter; reading the high half
returns what that function's last read of the low half latched, zero if there was none; neither read changes the counter, another latch or
anything else. Every counter of the register tables is read only, so that no read clears one. -/
def Obligations.CounterHalvesAreLatchedPerFunction : Prop :=
  (∀ (s : State) (fn : Fn) (addr a copy : Nat), Awake s → Ops.locate s.dev fn addr = .reg a copy → Arrives s.dev fn a false →
    Ops.isCtr a = true →
    Does (.counterLowRead fn addr) s fun d =>
      d.out = .read fn addr (some (Ops.ctr s.dev a % 2 ^ 32)) :: s.dev.out ∧
      Ops.getD d.latch (Ops.latchKey fn a) 0 = Ops.ctr s.dev a / 2 ^ 32 ∧
      (∀ k, k ≠ Ops.latchKey fn a → Ops.getD d.latch k 0 = Ops.getD s.dev.latch k 0) ∧
      { d with latch := s.dev.latch, out := s.dev.out } = s.dev) ∧
  (∀ (s : State) (fn : Fn) (addr a copy : Nat), Awake s → Ops.locate s.dev fn addr = .reg (a + 4) copy →
    Arrives s.dev fn (a + 4) false → Ops.isCtr a = true →
    Does (.counterHighRead fn addr) s fun d =>
      d.out = .read fn addr (some (Ops.getD s.dev.latch (Ops.latchKey fn a) 0)) :: s.dev.out ∧ { d with out := s.dev.out } = s.dev)

/-- A register access to a block whose gate is not ON completes with a bus error and has no other effect than the record of it:
`TOP_BUSERR_LOG` latches the first, with the aperture, the function and the direction, and an address in `TOP_BUSERR_ADDR`; while it is
VALID a later one sets MORE and leaves the record (R11, R422). Cause 0 is a gate, cause 2 a clock hold (R431). That the address of a VF's
access is that of the PF's aperture is the model's choice (log entry 60). -/
def Obligations.GatedBlockAnswersWithABusError : Prop :=
  ∀ (c : Instr) (s : State) (fn : Fn) (addr a copy cause : Nat) (wr : Option Word),
    c = .gatedBlockAccess fn addr wr ∨ (∃ w, wr = some w ∧ (c = .registerWrite fn addr w ∨ ∃ x, c = .rwsWrite fn addr ⟨w, x⟩)) ∨
      (wr = none ∧ c = .rcRead fn addr) →
    Awake s → Ops.locate s.dev fn addr = .reg a copy → Ops.reaches s.dev fn = true →
    Ops.blockCause s.dev (a / 0x100000) = some cause →
    Does c s fun d =>
      d.out = .busError fn a :: s.dev.out ∧
      (Ops.rdB s.dev Reg.topBuserrLogValid = true → Ops.rd d Reg.topBuserrLogMore = 1 ∧
        RegsKept s.dev d [Reg.topBuserrLogMore.key]) ∧
      (Ops.rdB s.dev Reg.topBuserrLogValid = false →
        Ops.rd d Reg.topBuserrLogValid = 1 ∧ Ops.rd d Reg.topBuserrLogAperture = a / 0x100000 % 32 ∧
        Ops.rd d Reg.topBuserrLogFunc = fn.val ∧ Ops.rd d Reg.topBuserrLogWrite = Ops.b2n wr.isSome ∧
        Ops.rd d Reg.topBuserrLogCause = cause % 8 ∧ Ops.rd d Reg.topBuserrAddrLoAddr = a % 2 ^ 32 ∧
        Ops.rd d Reg.topBuserrAddrHiAddr = a / 2 ^ 32 % 2 ^ 32 ∧
        RegsKept s.dev d ([Reg.topBuserrLogValid, Reg.topBuserrLogAperture, Reg.topBuserrLogFunc, Reg.topBuserrLogWrite,
          Reg.topBuserrLogCause, Reg.topBuserrAddrLoAddr, Reg.topBuserrAddrHiAddr].map (·.key))) ∧
      { d with regs := s.dev.regs, out := s.dev.out } = s.dev

/-- A core's accesses (R232, R233, R234). In its register window, outside the nine apertures an access is counted in `ACCESS_FAULT`, raises
an access fault in the core and does nothing else; a read of a register that holds no effect of its own returns its word to the core; a write
of such a register writes its fields as the management path's would; a write to a DMA channel that is not SPR's is ignored. Local SRAM reads
as it was written. `mtime` reads the time base, and the machine timer interrupt is raised once it has reached the compare value. A core that
does not run does nothing. How an access that faults is held (`trap`), and that it is ignored where the limit to SPR's channels forbids it, is
the model's choice (log entry 151). -/
def Obligations.CoreWindowReachesItsApertures : Prop :=
  (∀ (s : State) (core : CoreNo) (op : CoreOp) (addr : Nat), Awake s → Ops.coreRuns s.dev core.val = true → addr < 0x1800000 →
    Ops.coreReaches addr = false → (∃ n, op = .load n) ∨ (∃ b, op = .store b) →
    Does (.registerWindowAccess core (0x40000000 + addr) op) s fun d =>
      Ops.ctr d Ctr.sprAccessFault = (Ops.ctr s.dev Ctr.sprAccessFault + 1) % 2 ^ 64 ∧ CtrsKept s.dev d [Ctr.sprAccessFault] ∧
      (∃ w : Bool, (w = true ↔ ∃ b, op = .store b) ∧
        Ops.core d core.val = { Ops.core s.dev core.val with trap := some (.access (0x40000000 + addr) w) }) ∧
      (∀ k, k ≠ core.val → Ops.core d k = Ops.core s.dev k) ∧
      { d with ctrs := s.dev.ctrs, spr := { d.spr with cores := s.dev.spr.cores } } = s.dev) ∧
  (∀ (s : State) (core : CoreNo) (addr n : Nat), Awake s → Ops.coreRuns s.dev core.val = true → addr < 0x1800000 →
    Ops.coreReaches addr = true → Ops.portReg addr = false → Arrives s.dev 64 addr false → Ops.latched addr = false →
    Ops.latched (addr - 4) = false → (∀ r, Ops.rowAt addr = some r → ∀ g ∈ r.flds, g.acc ≠ .rc) →
    Does (.registerWindowAccess core (0x40000000 + addr) (.load n)) s fun d =>
      d = { s.dev with out := .core core.val (0x40000000 + addr) (Ops.readReg s.dev addr 0) :: s.dev.out }) ∧
  (∀ (s : State) (core : CoreNo) (addr : Nat) (b : Bytes), Awake s → Ops.coreRuns s.dev core.val = true → addr < 0x1800000 →
    Ops.coreReaches addr = true → Ops.portReg addr = false → Arrives s.dev 64 addr true →
    Does (.registerWindowAccess core (0x40000000 + addr) (.store b)) s fun d =>
      (ownEffect addr = false → d = Ops.writeFlds s.dev addr 0 (Ops.le b 0 4)) ∧
      (Ops.foreignChan s.dev addr = true → d = s.dev)) ∧
  (∀ (s : State) (core : CoreNo) (a n : Nat), Awake s → Ops.coreRuns s.dev core.val = true → a < 0x100000 →
    Does (.registerWindowAccess core a (.load n)) s fun d =>
      d = { s.dev with out := .core core.val a (Ops.le (Ops.core s.dev core.val).sram a n) :: s.dev.out }) ∧
  (∀ (s : State) (core : CoreNo) (a : Nat) (b : Bytes), Awake s → Ops.coreRuns s.dev core.val = true → a < 0x100000 →
    Does (.registerWindowAccess core a (.store b)) s fun d =>
      (∀ x, Ops.byteAt (Ops.core d core.val).sram x =
        if a ≤ x ∧ x < a + b.length then Ops.byteAt b (x - a) else Ops.byteAt (Ops.core s.dev core.val).sram x) ∧
      (∀ k, k ≠ core.val → Ops.core d k = Ops.core s.dev k) ∧
      { d with spr := { d.spr with cores := s.dev.spr.cores } } = s.dev) ∧
  (∀ (s : State) (core : CoreNo), Awake s → Ops.coreRuns s.dev core.val = true →
    Does (.registerWindowAccess core 0 .mtime) s fun d => d = { s.dev with out := .mtime core.val (Ops.now64 s.dev) :: s.dev.out }) ∧
  (∀ (s : State) (core : CoreNo) (t : Nat), Awake s → Ops.coreRuns s.dev core.val = true → (Ops.core s.dev core.val).timer = some t →
    Does (.registerWindowAccess core 0 .irq) s fun d =>
      (t ≤ Ops.now64 s.dev → (Ops.core d core.val).trap = some .timer) ∧ (Ops.now64 s.dev < t → d = s.dev)) ∧
  (∀ (s : State) (core : CoreNo) (addr : Nat) (op : CoreOp), Awake s → Ops.coreRuns s.dev core.val = false →
    Does (.registerWindowAccess core addr op) s fun d => d = s.dev)

/-- Arming an error injection (R337): each field of `MEM_INJ_CTL` takes its bits of the word, ARM among them, and nothing else happens
until a write reaches the block. -/
def Obligations.ErrorInjectionIsArmed : Prop :=
  ∀ (s : State) (data : Word), Awake s → Arrives s.dev 0 0x00F00408 true →
    Does (.errorInjectArm data) s fun d =>
      Ops.rd d Reg.memInjCtlBitA = Ops.bits data.toNat 0 7 ∧ Ops.rd d Reg.memInjCtlBitB = Ops.bits data.toNat 7 7 ∧
      Ops.rd d Reg.memInjCtlWord = Ops.bits data.toNat 14 5 ∧ Ops.rd d Reg.memInjCtlArm = Ops.bits data.toNat 19 1 ∧
      RegsOnly s.dev d [Reg.memInjCtlArm.key, Reg.memInjCtlWord.key, Reg.memInjCtlBitA.key, Reg.memInjCtlBitB.key]
/-! ### Clocks, gates and power domains -/

/-- DVFS (R417): a TARGET written to a domain in DVFS mode is taken; where no step is in progress and it is not the point in force, the
first step towards it begins and BUSY sets; a step in progress goes on. Below FLOOR it is refused, with REFUSED and the count, and TARGET
keeps its value; in divided mode it is ignored. As a step ends, POINT takes the point that the step led to, the step is counted, and the next
step towards TARGET as it then reads begins, or BUSY clears where POINT is TARGET. -/
def Obligations.DvfsWalksToItsTarget : Prop :=
  (∀ (s : State) (k : Nat) (w : Word), k < 3 → Awake s → Arrives s.dev 0 (0x00100104 + 16 * k) true →
    Ops.rdB s.dev (Reg.clkDvfsCfgMode k) = true → Ops.rd s.dev (Reg.clkDvfsCfgFloor k) ≤ w.toNat % 8 →
    Does (.dvfsTargetWrite k w) s fun d =>
      let p := Ops.rd s.dev (Reg.clkDvfsStatPoint k)
      let t := w.toNat % 8
      Ops.rd d (Reg.clkDvfsCtlTarget k) = t ∧
      (Ops.rdB s.dev (Reg.clkDvfsStatBusy k) = false → p ≠ t →
        Ops.rd d (Reg.clkDvfsStatBusy k) = 1 ∧ Ops.find? d.clk.dvfsNext k = some (if p < t then p + 1 else p - 1)) ∧
      (Ops.rdB s.dev (Reg.clkDvfsStatBusy k) = true ∨ p = t →
        Ops.rd d (Reg.clkDvfsStatBusy k) = Ops.rd s.dev (Reg.clkDvfsStatBusy k) ∧ d.clk = s.dev.clk) ∧
      (∀ j, j ≠ k → Ops.find? d.clk.dvfsNext j = Ops.find? s.dev.clk.dvfsNext j) ∧
      RegsKept s.dev d [(Reg.clkDvfsCtlTarget k).key, (Reg.clkDvfsStatBusy k).key] ∧
      { d with regs := s.dev.regs, clk := { d.clk with dvfsNext := s.dev.clk.dvfsNext } } = s.dev) ∧
  (∀ (s : State) (k : Nat) (w : Word), k < 3 → Awake s → Arrives s.dev 0 (0x00100104 + 16 * k) true →
    Ops.rdB s.dev (Reg.clkDvfsCfgMode k) = true → w.toNat % 8 < Ops.rd s.dev (Reg.clkDvfsCfgFloor k) →
    Does (.dvfsTargetWrite k w) s fun d =>
      Ops.rd d (Reg.clkDvfsStatRefused k) = 1 ∧
      Ops.ctr d Ctr.clkDvfsRefused = (Ops.ctr s.dev Ctr.clkDvfsRefused + 1) % 2 ^ 64 ∧
      RegsCtrsOnly s.dev d [(Reg.clkDvfsStatRefused k).key] [Ctr.clkDvfsRefused]) ∧
  (∀ (s : State) (k : Nat) (w : Word), k < 3 → Awake s → Arrives s.dev 0 (0x00100104 + 16 * k) true →
    Ops.rdB s.dev (Reg.clkDvfsCfgMode k) = false → Does (.dvfsTargetWrite k w) s fun d => d = s.dev) ∧
  (∀ (s : State) (k p : Nat), k < 3 → Awake s → Ops.moving s.dev = true → Ops.rdB s.dev (Reg.clkDvfsStatBusy k) = true →
    Ops.find? s.dev.clk.dvfsNext k = some p → p < 8 →
    Does (.dvfsStepDone k) s fun d =>
      let t := Ops.rd s.dev (Reg.clkDvfsCtlTarget k)
      Ops.rd d (Reg.clkDvfsStatPoint k) = p ∧ Ops.rd d (Reg.clkDvfsStatBusy k) = Ops.b2n (p != t) ∧
      (p ≠ t → Ops.find? d.clk.dvfsNext k = some (if p < t then p + 1 else p - 1)) ∧
      Ops.ctr d Ctr.clkDvfsStep = (Ops.ctr s.dev Ctr.clkDvfsStep + 1) % 2 ^ 64 ∧
      RegsKept s.dev d [(Reg.clkDvfsStatPoint k).key, (Reg.clkDvfsStatBusy k).key] ∧ CtrsKept s.dev d [Ctr.clkDvfsStep] ∧
      { d with regs := s.dev.regs, ctrs := s.dev.ctrs, clk := { d.clk with dvfsNext := s.dev.clk.dvfsNext } } = s.dev)

/-- A write of SEL with FB_EN written 1 (R428): where a switch is in progress or a clock hold lasts it is ignored; the current source
gives DONE and changes nothing else; a source that is not READY gives REFUSED, SEL reads back unchanged and the refusal is counted; an
accepted one changes the reference, SEL and SRC, FALLBACK follows, and `CLK_SW_STAT` reads BUSY until the PLL reports lock, then DONE. -/
def Obligations.SourceSelectionFollowsItsReadyFlag : Prop :=
  (∀ (s : State) (w : Word), Awake s → Arrives s.dev 0 0x00100004 true → Ops.frozen s.dev = false → Ops.bit w.toNat 1 = true →
    Does (.sourceSelect w) s fun d =>
      let sel := Ops.bit w.toNat 0
      Ops.rd d Reg.clkSrcCtlFbEn = 1 ∧
      (Ops.rd s.dev Reg.clkSwStatResult = 1 ∨ Ops.holding s.dev = true → RegsOnly s.dev d [Reg.clkSrcCtlFbEn.key]) ∧
      (Ops.rd s.dev Reg.clkSwStatResult ≠ 1 → Ops.holding s.dev = false → sel = s.dev.clk.onFb →
        Ops.rd d Reg.clkSwStatResult = 2 ∧ RegsOnly s.dev d [Reg.clkSrcCtlFbEn.key, Reg.clkSwStatResult.key]) ∧
      (Ops.rd s.dev Reg.clkSwStatResult ≠ 1 → Ops.holding s.dev = false → sel ≠ s.dev.clk.onFb → Ops.srcReady s.dev sel = false →
        Ops.rd d Reg.clkSwStatResult = 3 ∧ Ops.ctr d Ctr.clkSwRefused = (Ops.ctr s.dev Ctr.clkSwRefused + 1) % 2 ^ 64 ∧
        RegsCtrsOnly s.dev d [Reg.clkSrcCtlFbEn.key, Reg.clkSwStatResult.key] [Ctr.clkSwRefused]) ∧
      (Ops.rd s.dev Reg.clkSwStatResult ≠ 1 → Ops.holding s.dev = false → sel ≠ s.dev.clk.onFb → Ops.srcReady s.dev sel = true →
        Ops.rd d Reg.clkSwStatResult = 1 ∧ d.clk.onFb = sel ∧ Ops.rd d Reg.clkSrcCtlSel = Ops.b2n sel ∧
        Ops.rd d Reg.clkRootStatSrc = Ops.b2n sel ∧ Ops.rd d Reg.clkTbStatFallback = Ops.b2n sel ∧
        RegsKept s.dev d [Reg.clkSrcCtlFbEn.key, Reg.clkSwStatResult.key, Reg.clkSrcCtlSel.key, Reg.clkRootStatSrc.key,
          Reg.clkTbStatFallback.key, Reg.clkTbStatUnsynced.key] ∧
        { d with regs := s.dev.regs, clk := s.dev.clk, sgn := s.dev.sgn } = s.dev)) ∧
  (∀ (s : State), Awake s →
    Does .pllLock s fun d =>
      Ops.rd d Reg.clkRootStatLocked = 1 ∧
      (Ops.rd s.dev Reg.clkSwStatResult = 1 → Ops.rd d Reg.clkSwStatResult = 2 ∧
        Ops.ctr d Ctr.clkSwDone = (Ops.ctr s.dev Ctr.clkSwDone + 1) % 2 ^ 64) ∧
      (Ops.rd s.dev Reg.clkSwStatResult ≠ 1 →
        Ops.rd d Reg.clkSwStatResult = Ops.rd s.dev Reg.clkSwStatResult) ∧
      RegsCtrsOnly s.dev d [Reg.clkRootStatLocked.key, Reg.clkSwStatResult.key] [Ctr.clkSwDone])

/-- The readiness of the sources, which also a device in reset keeps (R429, R473): the reference sets REF_READY, the fallback
FB_READY where FB_EN or a clock hold has started it; a clock hold that waits for that source switches to it and loses lock (R431). A
write of FB_EN = 0 is ignored while the fallback is the source, and otherwise clears FB_READY.
A trip of the clock monitor sets TRIP and LAST_CAUSE (1 an edge gap, 2 a lost lock), is counted, clears REF_READY where the reference
is the source, and starts a clock hold of 2 ms towards the other source; a disagreement beyond TOL sets DISAGREE and does not trip
(R429, R430, R431). -/
def Obligations.SourcesBecomeReadyAndTrip : Prop :=
  (
  (∀ s : State, s.dev.pins.railLost = false → s.dev.clk.holdTo = none →
    Does .refReady s fun d => Ops.rd d Reg.clkSrcStatRefReady = 1 ∧ RegsOnly s.dev d [Reg.clkSrcStatRefReady.key]) ∧
  (∀ s : State, s.dev.pins.railLost = false → s.dev.clk.holdTo = none →
    Does .fallbackReady s fun d =>
      (Ops.rdB s.dev Reg.clkSrcCtlFbEn = true → Ops.rd d Reg.clkSrcStatFbReady = 1 ∧ RegsOnly s.dev d [Reg.clkSrcStatFbReady.key]) ∧
      (Ops.rdB s.dev Reg.clkSrcCtlFbEn = false → d = s.dev)) ∧
  (∀ (s : State) (fb : Bool), s.dev.pins.railLost = false → s.dev.clk.holdTo = some fb → s.dev.clk.onFb ≠ fb →
    Does (if fb then .fallbackReady else .refReady) s fun d =>
      Ops.srcReady d fb = true ∧ d.clk.onFb = fb ∧ Ops.rd d Reg.clkRootStatSrc = Ops.b2n fb ∧ Ops.rd d Reg.clkRootStatLocked = 0 ∧
      d.clk.holdTo = some fb) ∧
  (∀ (s : State) (w : Word), Awake s → Arrives s.dev 0 0x00100004 true → Ops.frozen s.dev = false → Ops.bit w.toNat 1 = false →
    Ops.holding s.dev = true →
    Does (.sourceSelect w) s fun d =>
      (s.dev.clk.onFb = true → d = s.dev) ∧
      (s.dev.clk.onFb = false → Ops.rd d Reg.clkSrcCtlFbEn = 0 ∧ Ops.rd d Reg.clkSrcStatFbReady = 0 ∧
        RegsOnly s.dev d [Reg.clkSrcCtlFbEn.key, Reg.clkSrcStatFbReady.key]))) ∧
  (
  (∀ (s : State) (pll : Bool), Awake s → Ops.holding s.dev = false →
    Does (.monitorTrip pll) s fun d =>
      Ops.rd d Reg.clkMonStatTrip = 1 ∧ Ops.rd d Reg.clkMonStatLastCause = (if pll then 2 else 1) ∧
      Ops.ctr d Ctr.clkMonTrip = (Ops.ctr s.dev Ctr.clkMonTrip + 1) % 2 ^ 64 ∧ Ops.holding d = true ∧
      d.clk.holdTo = some (!s.dev.clk.onFb) ∧ d.clk.holdDl = some (Ops.now s.dev + 2000000) ∧
      (s.dev.clk.onFb = false → Ops.rd d Reg.clkSrcStatRefReady = 0) ∧
      (Ops.srcReady s.dev (!s.dev.clk.onFb) = true → d.clk.onFb = !s.dev.clk.onFb) ∧
      (Ops.srcReady s.dev (!s.dev.clk.onFb) = false → d.clk.onFb = s.dev.clk.onFb) ∧
      RegsKept s.dev d [Reg.clkMonStatTrip.key, Reg.clkMonStatLastCause.key, Reg.clkSrcStatRefReady.key, Reg.clkRootStatLocked.key,
        Reg.clkRootStatHolding.key, Reg.clkRootStatSrc.key, Reg.clkTbStatFallback.key, Reg.clkTbStatUnsynced.key] ∧
      CtrsKept s.dev d [Ctr.clkMonTrip, Ops.vecBad] ∧ d.mem = s.dev.mem) ∧
  (∀ (s : State) (far : Nat), Awake s →
    Does (.sourceCompare far) s fun d =>
      (Ops.rd s.dev Reg.clkMonCfgTol < far → Ops.rd d Reg.clkSrcStatDisagree = 1 ∧
        RegsOnly s.dev d [Reg.clkSrcStatDisagree.key]) ∧
      (far ≤ Ops.rd s.dev Reg.clkMonCfgTol → d = s.dev)))

/-- A clock hold ends (R431, R433): where the PLL is locked to the new, READY source, the stopped domains restart: HOLDING clears, the
hold is counted, and what the hold had cut short is gone from the queues (R432). Where the wait has expired FATAL is set, once, and the
CLOCK fault takes FLT to FAILED (R404). A lost SerDes reference sets SD_REF_LOST and takes every port that was up down, with
LANE_FAIL. -/
def Obligations.ClockHoldsEnd : Prop :=
  (∀ (s : State) (fb : Bool), Awake s → s.dev.clk.holdTo = some fb → s.dev.clk.onFb = fb → Ops.srcReady s.dev fb = true →
    Ops.rdB s.dev Reg.clkRootStatLocked = true → Ops.rdB s.dev Reg.clkMonStatFatal = false →
    Does .holdRestart s fun d =>
      Ops.holding d = false ∧ d.clk.holdTo = none ∧ d.clk.holdDl = none ∧ (∀ q ∈ d.tmg.queues, q.2.pkts = []) ∧ d.flw.pend = [] ∧
      d.clk.onFb = fb) ∧
  (∀ (s : State) (fb : Bool), Awake s → s.dev.clk.holdTo = some fb →
    s.dev.clk.onFb ≠ fb ∨ Ops.srcReady s.dev fb = false ∨ Ops.rdB s.dev Reg.clkRootStatLocked = false →
    Does .holdRestart s fun d => d = s.dev) ∧
  (∀ (s : State) (dl : Nat), Awake s → s.dev.clk.holdDl = some dl → dl ≤ Ops.now s.dev →
    Ops.rdB s.dev Reg.clkMonStatFatal = false → Ops.fltState s.dev ≠ 6 →
    Does .holdFatal s fun d =>
      Ops.rd d Reg.clkMonStatFatal = 1 ∧ Ops.fltState d = 6 ∧ Ops.rd d Reg.fltStatCause = 11 ∧
      (∀ n, n < 32 → Ops.rd d (Reg.prtPortStatLinkUp n) = 0) ∧ d.clk = s.dev.clk ∧ d.mem = s.dev.mem) ∧
  (∀ (s : State) (dl : Nat), Awake s → s.dev.clk.holdDl = some dl → Ops.now s.dev < dl → Does .holdFatal s fun d => d = s.dev) ∧
  (∀ s : State, Awake s →
    Does .sdRefLost s fun d =>
      Ops.rd d Reg.clkMonStatSdRefLost = 1 ∧ d.clk = s.dev.clk ∧
      ∀ n, n < Ops.portCount s.dev → Ops.rdB s.dev (Reg.prtPortStatLinkUp n) = true →
        Ops.rd d (Reg.prtPortStatLinkUp n) = 0 ∧ Ops.rd d (Reg.prtPortStatLaneFail n) = 1)

/-- A sample of the sixteen sensors (R434): each reading is recorded, with the hottest and its sensor; a reading at or above WARN sets
WARN; one sensor at or above 115.0 °C (460) in two samples running sets TRIP, is counted and, as THERMAL, takes FLT to HOLD (R404); TRIP
clears once every sensor reads below 105.0 °C (420). -/
def Obligations.ThermalSamplesWarnAndTrip : Prop :=
  ∀ (s : State) (temps : List Nat), Awake s → temps.length = 16 → (∀ x ∈ temps, x < 2048) →
    Does (.thermalSample temps) s fun d =>
      (∀ k, k < 16 → Ops.rd d (Reg.clkThermTemp k) = temps.getD k 0) ∧
      (∃ h, h < 16 ∧ Ops.rd d Reg.clkThermStatHot = h ∧ Ops.rd d Reg.clkThermStatMax = temps.getD h 0 ∧
        ∀ k, k < 16 → Ops.sgn 11 (temps.getD k 0) ≤ Ops.sgn 11 (temps.getD h 0)) ∧
      ((∃ k, k < 16 ∧ Ops.sgn 11 (Ops.rd s.dev Reg.clkThermCfgWarn) ≤ Ops.sgn 11 (temps.getD k 0)) →
        Ops.rd d Reg.clkThermStatWarn = 1) ∧
      (∀ k, k ∈ d.clk.thermHi ↔ k < 16 ∧ 460 ≤ Ops.sgn 11 (temps.getD k 0)) ∧
      (Ops.rdB s.dev Reg.clkThermStatTrip = false →
        (∃ k, k < 16 ∧ k ∈ s.dev.clk.thermHi ∧ 460 ≤ Ops.sgn 11 (temps.getD k 0)) →
        Ops.rd d Reg.clkThermStatTrip = 1 ∧
          (Ops.frozen s.dev = false → Ops.fltState s.dev < 3 → Ops.fltState d = 3 ∧ Ops.rd d Reg.fltStatCause = 10)) ∧
      (Ops.rdB s.dev Reg.clkThermStatTrip = false →
        (∀ k, k < 16 → k ∈ s.dev.clk.thermHi → Ops.sgn 11 (temps.getD k 0) < 460) →
        Ops.rd d Reg.clkThermStatTrip = Ops.rd s.dev Reg.clkThermStatTrip) ∧
      (Ops.rdB s.dev Reg.clkThermStatTrip = true → (∀ k, k < 16 → Ops.sgn 11 (temps.getD k 0) < 420) →
        Ops.rd d Reg.clkThermStatTrip = 0)

/-- The gate machine (R419, R420): a write of the request bits moves each gate of the word by the table, and a block that is never gated
ignores its bit; a pending gate-on reads ON once its domain is ON, or PENDING_OFF where its bit
reads 0 by then; a pending gate-off reads OFF once its ports are idle with the block's own condition, or, counted, once its count has elapsed. In a freeze a request waits (R435).
Power domains (R424, R425, R427): a request for a domain that is not switchable is refused with reason 1 and its bit reads 1 again;
HBM, PORT, LINK and SPR, which no other domain depends on, go from ON to PENDING_OFF and from OFF to PENDING_ON at a write of their bit;
the domain reads OFF once its gates are OFF and no channel works in it, and ON once its power-up time has elapsed, where no request made
with it is to complete first. A domain that goes down has the gate bits of its blocks cleared; one that comes up leaves gates OFF. -/
def Obligations.GatesAndDomainsFollowTheirRequests : Prop :=
  (
  let next : GateSt → Bool → GateSt := fun g b => match g, b with
    | .off, true => .pendOn
    | .pendOff, true => .on
    | .on, false => .pendOff
    | g, _ => g
  (∀ (s : State) (upper : Bool) (w : Word), Awake s → Arrives s.dev 0 (if upper then 0x104 else 0x100) true →
    Ops.frozen s.dev = false →
    Does (.gateRequest upper w) s fun d =>
      ∀ k, k < 24 →
        (Ops.neverGated k = true ∨ (upper = true ∧ k < 16) ∨ (upper = false ∧ 16 ≤ k) → Ops.gate d k = Ops.gate s.dev k) ∧
        (Ops.neverGated k = false → (upper = true ↔ 16 ≤ k) → Ops.gate d k = next (Ops.gate s.dev k) (Ops.bit w.toNat (k % 16)))) ∧
  (∀ (s : State) (upper : Bool) (w : Word), Awake s → Arrives s.dev 0 (if upper then 0x104 else 0x100) true →
    Ops.frozen s.dev = true →
    Does (.gateRequest upper w) s fun d =>
      d = { s.dev with clk := { s.dev.clk with frozenRq := s.dev.clk.frozenRq ++ [(if upper then 0x104 else 0x100, w.toNat)] } }) ∧
  (∀ (s : State) (k : Gate), Awake s → Ops.gate s.dev k = .pendOn → Ops.frozen s.dev = false → Ops.holding s.dev = false →
    Ops.domOn s.dev (Ops.gateDom k) = true → Ops.enBit s.dev k = true →
    Does (.gateOnDone k) s fun d =>
      Ops.gate d k = .on ∧ (∀ j, j < 24 → j ≠ k.val → Ops.gate d j = Ops.gate s.dev j) ∧
      (k.val ∉ [5, 12, 18, 19, 21] → { d with clk := s.dev.clk } = s.dev)) ∧
  (∀ (s : State) (k : Gate), Awake s → Ops.gate s.dev k = .pendOn → Ops.domOn s.dev (Ops.gateDom k) = false →
    Ops.enBit s.dev k = true → Does (.gateOnDone k) s fun d => d = s.dev) ∧
  (∀ (s : State) (k : Gate), Awake s → Ops.gate s.dev k = .pendOn → Ops.frozen s.dev = false → Ops.holding s.dev = false →
    Ops.domOn s.dev (Ops.gateDom k) = true → Ops.enBit s.dev k = false →
    Does (.gateOnDone k) s fun d =>
      Ops.gate d k = .pendOff ∧ (∀ j, j < 24 → j ≠ k.val → Ops.gate d j = Ops.gate s.dev j) ∧
      (k.val ≠ 16 → { d with clk := s.dev.clk } = s.dev)) ∧
  (∀ (s : State) (k : Gate), Awake s → Ops.gate s.dev k = .pendOff → Ops.frozen s.dev = false → Ops.gateIdle s.dev k = true →
    Does (.gateOffDone k) s fun d =>
      Ops.gate d k = .off ∧ Ops.find? d.clk.gateDl k = none ∧ (∀ j, j < 24 → j ≠ k.val → Ops.gate d j = Ops.gate s.dev j) ∧
      (k.val ∉ [10, 11, 12, 14, 18, 19] → { d with clk := s.dev.clk } = s.dev)) ∧
  (∀ (s : State) (k : Gate) (dl : Nat), Awake s → Ops.gate s.dev k = .pendOff → Ops.frozen s.dev = false →
    Ops.find? s.dev.clk.gateDl k = some dl → dl ≤ Ops.now s.dev →
    Does (.gateForcedOff k) s fun d =>
      Ops.gate d k = .off ∧ (∀ j, j < 24 → j ≠ k.val → Ops.gate d j = Ops.gate s.dev j) ∧
      (k.val ∉ [10, 11, 12, 14, 18, 19] → Ops.ctr d Ctr.clkGateForced = (Ops.ctr s.dev Ctr.clkGateForced + 1) % 2 ^ 64 ∧
        { d with clk := s.dev.clk, ctrs := s.dev.ctrs } = s.dev)) ∧
  (∀ (s : State) (k : Gate) (dl : Nat), Awake s → Ops.find? s.dev.clk.gateDl k = some dl → Ops.now s.dev < dl →
    Does (.gateForcedOff k) s fun d => d = s.dev)) ∧
  (
  (∀ (s : State) (w : Word), Awake s → Arrives s.dev 0 0x00100200 true → Ops.frozen s.dev = false →
    Does (.domainRequest w) s fun d =>
      (Ops.bit w.toNat 0 = false → Ops.rd d Reg.pwrDomRejDomain = 0 ∧ Ops.rd d Reg.pwrDomRejReason = 1 ∧ Ops.rd d Reg.pwrDomRejValid = 1) ∧
      (∀ k, k < 14 → Ops.switchable k = false → Ops.dom d k = Ops.dom s.dev k ∧
        Ops.bit (Ops.rd d Reg.pwrDomReqOn) k = Ops.bit (Ops.rd s.dev Reg.pwrDomReqOn) k) ∧
      (∀ k, k ∈ [5, 7, 8, 13] →
        (Ops.dom s.dev k = .on → Ops.bit w.toNat k = false → Ops.dom d k = .pendOff) ∧
        (Ops.dom s.dev k = .off → Ops.bit w.toNat k = true → Ops.dom d k = .pendOn) ∧
        (Ops.dom s.dev k = .on → Ops.bit w.toNat k = true → Ops.dom d k = .on) ∧
        (Ops.dom s.dev k = .off → Ops.bit w.toNat k = false → Ops.dom d k = .off) ∧
        (∀ g, g < 24 → Ops.gateDom g = k → Ops.dom s.dev k = .on → Ops.bit w.toNat k = false → Ops.gate s.dev g = .on →
          Ops.gate d g = .pendOff))) ∧
  (∀ (s : State) (k : Dom), Awake s → Ops.dom s.dev k = .pendOff → Ops.frozen s.dev = false → Ops.domainQuiet s.dev k = true →
    (∀ g, g < 24 → Ops.gateDom g = k.val → Ops.gate s.dev g = .off) → Ops.domWaits s.dev k = false →
    Ops.find? s.dev.clk.domNext k = none →
    Does (.domainOffDone k) s fun d => Ops.dom d k = .off ∧ (∀ j, j < 14 → j ≠ k.val → Ops.dom d j = Ops.dom s.dev j)) ∧
  (∀ (s : State) (k : Dom), Awake s → Ops.dom s.dev k = .pendOn → Ops.frozen s.dev = false → Ops.domWaits s.dev k = false →
    Ops.find? s.dev.clk.domNext k = none →
    Does (.domainOnDone k) s fun d =>
      Ops.dom d k = .on ∧ (∀ j, j < 14 → j ≠ k.val → Ops.dom d j = Ops.dom s.dev j) ∧ d.clk.gate = s.dev.clk.gate ∧
      (∀ f : Fld, Ops.gateDom (f.key % 2 ^ 40 / 32 / 0x100000) = k.val → f.key % 2 ^ 40 / 32 / 0x100000 < 24 → Ops.rd d f = f.rst)))

/-! ### The time base, Signet, resets and start-up -/

/-- The time base (R139): on each CLK_TIME cycle T increases by 2^32 + ADJ + σ, where σ is 4,294,967 with the sign of the remaining
slew while any slew remains, on the last cycle what remains, otherwise 0; the time base never decreases. The cycle is what a step with an
empty queue does (log entry 6). T is kept in 96 bits, and ADJ is within the range that its field takes. -/
def Obligations.TimeBaseAdvancesByAdjAndSlew : Prop :=
  ∀ d : Dev, d.pins.sysRstN = true → d.tb.t + 2 ^ 33 < 2 ^ 96 → -4294967 ≤ Ops.tbAdj d → Ops.tbAdj d ≤ 4294967 →
    ∃ (e : Dev) (σ : Int), step { dev := d, pending := [] } = .next { dev := e, pending := [] } ∧
      (e.tb.t : Int) = d.tb.t + 2 ^ 32 + Ops.tbAdj d + σ ∧ e.tb.slew = d.tb.slew - σ ∧
      (4294967 < d.tb.slew → σ = 4294967) ∧ (d.tb.slew < -4294967 → σ = -4294967) ∧
      (-4294967 ≤ d.tb.slew → d.tb.slew ≤ 4294967 → σ = d.tb.slew) ∧
      d.tb.t ≤ e.tb.t ∧ (Ops.rd e Reg.clkTbStatSlewActive = 1 ↔ e.tb.slew ≠ 0)

/-- Steps and slews (R140, R141): a positive step waits for its super-cycle boundary, with those that wait already, and is then added to T; a negative step and a write
of `CLK_TB_SLEW` are added to the remaining slew; a rising edge on the PPS pin captures the time base. -/
def Obligations.TimeBaseStepsAndSlews : Prop :=
  (∀ (s : State) (hi : Word), Awake s → Arrives s.dev 0 0x00100814 true →
    Does (.tbStepWrite hi) s fun d =>
      let n := Ops.sgn 64 (Ops.rd s.dev Reg.clkTbStepLoNs + 2 ^ 32 * hi.toNat)
      (0 < n → d.tb = { s.dev.tb with step := some (s.dev.tb.step.getD 0 + n) } ∧ Ops.rd d Reg.clkTbStatStepPend = 1 ∧
        RegsKept s.dev d [Reg.clkTbStatStepPend.key]) ∧
      (n < 0 → d.tb = { s.dev.tb with slew := s.dev.tb.slew + n * 2 ^ 32 } ∧
        (Ops.rd d Reg.clkTbStatSlewActive = 1 ↔ d.tb.slew ≠ 0) ∧ RegsKept s.dev d [Reg.clkTbStatSlewActive.key]) ∧
      (n = 0 → d = s.dev) ∧ { d with tb := s.dev.tb, regs := s.dev.regs } = s.dev) ∧
  (∀ (s : State) (n : Int), Awake s → s.dev.tb.step = some n → 0 < n →
    Does .tbStepApply s fun d =>
      d.tb = { s.dev.tb with t := (s.dev.tb.t + n.toNat * 2 ^ 32) % 2 ^ 96, step := none } ∧
      Ops.rd d Reg.clkTbStatStepPend = 0 ∧
      (Ops.sgnOn s.dev = false → RegsKept s.dev d [Reg.clkTbStatStepPend.key] ∧ { d with tb := s.dev.tb, regs := s.dev.regs } = s.dev)) ∧
  (∀ (s : State) (ns : Word), Awake s → Arrives s.dev 0 0x00100818 true →
    Does (.tbSlewWrite ns) s fun d =>
      d.tb = { s.dev.tb with slew := s.dev.tb.slew + ns.toInt * 2 ^ 32 } ∧
      (Ops.rd d Reg.clkTbStatSlewActive = 1 ↔ d.tb.slew ≠ 0) ∧ RegsKept s.dev d [Reg.clkTbStatSlewActive.key] ∧
      { d with tb := s.dev.tb, regs := s.dev.regs } = s.dev) ∧
  (∀ (s : State) (pin : Nat), Awake s →
    Does (.ppsEdge pin) s fun d =>
      (Ops.rdB s.dev Reg.clkTbCtlPpsEn = true → Ops.rd s.dev Reg.clkTbCtlPpsGpio = pin →
        Ops.rd d Reg.clkTbStatPpsValid = 1 ∧ Ops.rd64 d Reg.clkTbPpsLoNs Reg.clkTbPpsHiNs = Ops.now64 s.dev ∧
        RegsOnly s.dev d [Reg.clkTbStatPpsValid.key, Reg.clkTbPpsLoNs.key, Reg.clkTbPpsHiNs.key]) ∧
      (Ops.rdB s.dev Reg.clkTbCtlPpsEn = false ∨ Ops.rd s.dev Reg.clkTbCtlPpsGpio ≠ pin → d = s.dev))

/-- A Signet interval that has ended closes at its boundary, once: the next one begins there with its sums at zero, BSEQ advances by one,
and one batch of its records waits to be written (R446, R450, R452). No interval closes before its end, in a freeze, or without a session. A
rail sample adds to the sums of the seven rails, and its idle lanes are metered as event 23 (R437, R438); that their count comes with the
sample is the model's form (log entry 157). -/
def Obligations.SignetIntervalsClose : Prop :=
  (∀ s : State, Awake s → Ops.sgnOn s.dev = true → Ops.frozen s.dev = false → Ops.intervalEnd s.dev ≤ Ops.now s.dev →
    s.dev.sgn.calPend = none →
    Does .signetIntervalEnd s fun d =>
      d.sgn.start = Ops.intervalEnd s.dev ∧ d.sgn.bseq = s.dev.sgn.bseq + 1 ∧ d.sgn.d = 0 ∧ d.sgn.occ = 0 ∧ d.sgn.attr = 0 ∧
      d.sgn.rails = List.replicate 7 0 ∧ d.sgn.domOn = List.replicate 14 0 ∧
      (∃ b, d.sgn.batches = s.dev.sgn.batches ++ [b] ∧ b.take 4 = [0x53, 0x47, 0x4E, 0x42] ∧
        Ops.le b 24 8 = s.dev.sgn.bseq % 2 ^ 64) ∧
      (∀ p ∈ d.sgn.chains, p.2.fields = [] ∧ p.2.runs = 0) ∧ d.mem = s.dev.mem ∧ d.tb = s.dev.tb) ∧
  (∀ s : State, Awake s → Ops.sgnOn s.dev = false ∨ Ops.frozen s.dev = true ∨ Ops.now s.dev < Ops.intervalEnd s.dev →
    Does .signetIntervalEnd s fun d => d = s.dev) ∧
  (∀ (s : State) (e : List Nat) (idle : Nat), Awake s → s.dev.sgn.session = true →
    Does (.railSample ⟨e, idle⟩) s fun d =>
      d = { s.dev with sgn := { s.dev.sgn with rails := d.sgn.rails, d := d.sgn.d } } ∧ d.sgn.rails.length = 7 ∧
      (∀ k, k < 7 → d.sgn.rails.getD k 0 = s.dev.sgn.rails.getD k 0 + e.getD k 0) ∧
      (Ops.sgnOn s.dev = true → d.sgn.d = s.dev.sgn.d + Ops.coef s.dev 23 * idle)) ∧
  (∀ (s : State) (e : List Nat) (idle : Nat), Awake s → s.dev.sgn.session = false → Does (.railSample ⟨e, idle⟩) s fun d => d = s.dev)

/-- A batch is written to the ledger as one run modulo the ring, and WR advances by its length; a batch that does not fit, or that comes
while the ledger is off, is lost and counted; either way it waits no longer and the interrupt is raised (R452). That the ring keeps one
entry free, and that the batches of a session that has ended are written until its gate reads OFF, is the model's choice (log entries 9
and 158). -/
def Obligations.BatchesAreWrittenOrLost : Prop :=
  (∀ (s : State) (b : Bytes) (rest : List Bytes), Awake s → Ops.gate s.dev 21 = .on ∨ Ops.gate s.dev 21 = .pendOff →
    s.dev.sgn.batches = b :: rest → Ops.rdB s.dev Reg.sgnCtlLedgerEn = false →
    Does .batchWrite s fun d =>
      d.sgn.batches = rest ∧ Ops.rd d Reg.sgnStatLedgerFull = 1 ∧
      Ops.rd d Reg.sgnLedgerWrWr = Ops.rd s.dev Reg.sgnLedgerWrWr ∧
      RegsKept s.dev d [Reg.sgnStatLedgerFull.key] ∧ CtrsKept s.dev d [Ctr.sgnLedgerLost, Ops.vecBad] ∧
      Ops.ctr d Ctr.sgnLedgerLost = (Ops.ctr s.dev Ctr.sgnLedgerLost + 1) % 2 ^ 64 ∧ d.mem = s.dev.mem) ∧
  (∀ (s : State) (b : Bytes) (rest : List Bytes), Awake s → Ops.gate s.dev 21 = .on ∨ Ops.gate s.dev 21 = .pendOff →
    s.dev.sgn.batches = b :: rest → Ops.rdB s.dev Reg.sgnCtlLedgerEn = true →
    let n := Ops.rd s.dev Reg.sgnLedgerSizeSize * 1024
    let w := Ops.rd s.dev Reg.sgnLedgerWrWr
    let a := Ops.rd64 s.dev Reg.sgnLedgerLoAddr Reg.sgnLedgerHiAddr / 65536 * 65536
    w < n → n ≤ 2 ^ 26 → (w + n - Ops.rd s.dev Reg.sgnLedgerRdRd % n) % n + b.length / 64 < n →
    Does .batchWrite s fun d =>
      d.sgn.batches = rest ∧ Ops.rd d Reg.sgnLedgerWrWr = (w + b.length / 64) % n ∧
      Out.hostWrite (a + 64 * w) (b.take (64 * (n - w))) ∈ d.out ∧
      (64 * (n - w) < b.length → Out.hostWrite a (b.drop (64 * (n - w))) ∈ d.out) ∧
      RegsKept s.dev d [Reg.sgnLedgerWrWr.key] ∧ d.mem = s.dev.mem) ∧
  (∀ s : State, Awake s → s.dev.sgn.batches = [] → Does .batchWrite s fun d => d = s.dev)

/-- Loading a calibration table (R440): a write of CAL_LOAD sets CAL_BUSY; at its end the code tells what the checks found, and a table
that passes them waits, with CAL_PEND, for the next interval. A table whose bytes are uncorrectable has the code SIGNATURE, one that does
not begin with its magic FORMAT; neither changes the table in force. -/
def Obligations.CalibrationTablesAreChecked : Prop :=
  (∀ s : State, Awake s → Arrives s.dev 0 0x01500000 true →
    Does .calLoad s fun d =>
      (Ops.rdB s.dev Reg.sgnStatCalBusy = false → Ops.rd d Reg.sgnStatCalBusy = 1 ∧ RegsOnly s.dev d [Reg.sgnStatCalBusy.key]) ∧
      (Ops.rdB s.dev Reg.sgnStatCalBusy = true → d = s.dev)) ∧
  (∀ s : State, Awake s → Ops.rdB s.dev Reg.sgnStatCalBusy = true →
    Does .calLoadDone s fun d =>
      let r := Ops.memRead s.dev (Ops.rd64 s.dev Reg.sgnCalAddrLoAddr Reg.sgnCalAddrHiAddr) 416
      Ops.rd d Reg.sgnStatCalBusy = 0 ∧
      (r.2.2 = true → Ops.rd d Reg.sgnCalStatCode = 0x20 ∧ d.sgn.cal = r.1.sgn.cal ∧ d.sgn.calPend = r.1.sgn.calPend) ∧
      (r.2.2 = false → r.2.1.take 4 ≠ [0x53, 0x47, 0x43, 0x54] →
        Ops.rd d Reg.sgnCalStatCode = 0x21 ∧ d.sgn.cal = r.1.sgn.cal ∧ d.sgn.calPend = r.1.sgn.calPend) ∧
      (r.2.2 = false → Ops.rd d Reg.sgnCalStatCode = Ops.calCheck r.1 s.dev.cfg.keys r.2.1 ∧ d.sgn.cal = r.1.sgn.cal ∧
        (Ops.calCheck r.1 s.dev.cfg.keys r.2.1 = 0 → d.sgn.calPend = some (Ops.calOf r.2.1) ∧ Ops.rd d Reg.sgnStatCalPend = 1))) ∧
  (∀ s : State, Awake s → Ops.rdB s.dev Reg.sgnStatCalBusy = false → Does .calLoadDone s fun d => d = s.dev)

/-- The provisioning operations (R479): one that SEC accepts becomes BUSY with its slot, value and data; one that it does not accept gives
RESULT 1 and one whose fuses are set already RESULT 2, and neither changes a fuse. Fuse programming ends with RESULT 0 and the fuse set,
or RESULT 3 and no fuse changed: a programmed slot stays programmed, a revoked one revoked. -/
def Obligations.ProvisioningProgramsFusesOnce : Prop :=
  (∀ (c : Instr) (op slot val : Nat) (s : State),
    (c = .writeRoot slot ∧ op = 1 ∧ val = 0) ∨ (c = .revokeRoot slot ∧ op = 2 ∧ val = 0) ∨ (c = .writeImgKey ∧ op = 3 ∧ slot = 0 ∧ val = 0) ∨
      (c = .raiseSvn val ∧ op = 4 ∧ slot = 0) →
    slot < 4 → val < 64 → Awake s → Arrives s.dev 0 0x01700440 true → Ops.rdB s.dev Reg.secProvStatBusy = false →
    Does c s fun d =>
      (Ops.provAllowed s.dev op slot val = true → Ops.provSet s.dev op slot val = false →
        Ops.rd d Reg.secProvStatBusy = 1 ∧ d.sec = { s.dev.sec with prov := some (op, slot, val, Ops.provData s.dev) } ∧
        RegsKept s.dev d [Reg.secProvStatBusy.key]) ∧
      (Ops.provAllowed s.dev op slot val = true → Ops.provSet s.dev op slot val = true →
        Ops.rd d Reg.secProvStatResult = 2 ∧ RegsOnly s.dev d [Reg.secProvStatResult.key]) ∧
      (Ops.provAllowed s.dev op slot val = false → Ops.rd d Reg.secProvStatResult = 1 ∧ RegsOnly s.dev d [Reg.secProvStatResult.key]) ∧
      (Ops.bootState s.dev ≠ 0 → op ≠ 4 → d.sec = s.dev.sec) ∧ { d with regs := s.dev.regs, sec := s.dev.sec } = s.dev) ∧
  (∀ (s : State) (op slot val : Nat) (data : Bytes) (ok : Bool), Awake s → s.dev.sec.prov = some (op, slot, val, data) → slot < 4 →
    Does (.fuseProgramDone ok) s fun d =>
      Ops.rd d Reg.secProvStatBusy = 0 ∧ Ops.rd d Reg.secProvStatResult = (if ok then 0 else 3) ∧ d.sec.prov = none ∧
      (ok = false → d.sec = { s.dev.sec with prov := none }) ∧
      (ok = true → op = 1 → Ops.bit d.sec.programmed slot = true ∧ d.sec.roots.getD slot [] = data ∧
        ∀ k, k < 4 → k ≠ slot → Ops.bit d.sec.programmed k = Ops.bit s.dev.sec.programmed k ∧
          d.sec.roots.getD k [] = s.dev.sec.roots.getD k []) ∧
      (ok = true → op = 2 → Ops.bit d.sec.revoked slot = true ∧ d.sec.roots = s.dev.sec.roots) ∧
      (ok = true → op = 3 → d.sec.imgKey = some (data.take 32)) ∧ (ok = true → op = 4 → d.sec.svn = val) ∧
      (∀ k, Ops.bit s.dev.sec.programmed k = true → Ops.bit d.sec.programmed k = true) ∧
      (∀ k, Ops.bit s.dev.sec.revoked k = true → Ops.bit d.sec.revoked k = true) ∧
      RegsKept s.dev d [Reg.secProvStatBusy.key, Reg.secProvStatResult.key] ∧ { d with regs := s.dev.regs, sec := s.dev.sec } = s.dev)

/-- The base load (R475, R476): a LOAD written in PRELOAD starts one, with STATE = LOADING, and turns MEM's gate on; in READY it is
ignored and sets REJ; a load that is under way goes on.
An image that fails its container checks (R463, R475): the load ends with the check's code in CODE, the boot staging area is zero, and
nothing of the image is installed; image A is followed by image B, any other by PRELOAD. A code FORMAT carries its offset. That an image with
a poisoned line fails with SIGNATURE is the model's choice (log entry 152). An image that passes every check is installed: CODE is 0, the configuration
of epoch 0 and the MODELS section wait for the boundary, and the digest chains start from the image's.
Epoch 0 (R477): at the boundary after the installation it becomes current with what the base image configured and the shadow values
handed over (R285), STATE reads READY and the boundary's time is recorded; the MODELS graft, where the image has one, is submitted (R472). -/
def Obligations.BaseLoadsInstallEpochZero : Prop :=
  (
  ∀ (s : State) (w : Word), Awake s → Arrives s.dev 0 0x0020000C true → Ops.bit w.toNat 0 = true →
    Does (.cfgLoad w) s fun d =>
      Ops.rd d Reg.cfgLoadCtlSrc = Ops.bits w.toNat 1 2 ∧
      (Ops.bootState s.dev = 0 → Ops.bootState d = 1 ∧ d.cfg = { s.dev.cfg with loading := some 3 } ∧
        (Ops.gate s.dev 15 = .off → Ops.gate d 15 = .pendOn) ∧ (Ops.gate s.dev 15 = .on → Ops.gate d 15 = .on) ∧
        (∀ j, j < 24 → j ≠ 15 → Ops.gate d j = Ops.gate s.dev j)) ∧
      (Ops.bootState s.dev = 3 → Ops.rd d Reg.cfgBootStatRej = 1 ∧
        RegsOnly s.dev d [Reg.cfgLoadCtlSrc.key, Reg.cfgBootStatRej.key]) ∧
      (Ops.bootState s.dev = 1 ∨ Ops.bootState s.dev = 2 → RegsOnly s.dev d [Reg.cfgLoadCtlSrc.key])) ∧
  (
  ∀ (s : State) (img : Option Bytes) (src code off : Nat), Awake s → s.dev.cfg.loading = some src → Ops.moving s.dev = true →
    let e := (Ops.loadBytes s.dev src img).1
    ((Ops.loadBytes s.dev src img).2 = none ∧ code = 0x20 ∧ off = 0) ∨
      (∃ b, (Ops.loadBytes s.dev src img).2 = some b ∧ Img.container e b true (Ops.loadLimit e src) = Img.Chk.bad code off) →
    Does (.imageCheckDone img) s fun d =>
      Ops.rd d Reg.cfgBootStatCode = code % 256 ∧
      (code = 0x21 → Ops.rd d Reg.cfgFailOffOffset = off % 2 ^ 32) ∧
      (src = 1 → d.cfg.loading = some 2 ∧ Ops.bootState d = 1 ∧ Ops.rd d Reg.cfgBootStatCodeA = code % 256) ∧
      (src ≠ 1 → d.cfg.loading = none ∧ Ops.bootState d = 0) ∧
      (∀ x, 0x1C0000000 ≤ x → x < 0x200000000 → Ops.byteGet d.mem.cells x = 0) ∧
      MemKept e d 0x1C0000000 0x40000000 ∧ (src ≠ 3 ∨ Ops.rd s.dev Reg.cfgLoadCtlSrc ≠ 3 → e = s.dev) ∧
      d.epochs = e.epochs ∧ d.tcam = e.tcam ∧ d.em = e.em ∧ d.cfg.keys = e.cfg.keys ∧ d.cfg.device = e.cfg.device ∧
      d.sgn = e.sgn ∧ d.spr = e.spr) ∧
  (∀ (s : State) (img : Option Bytes) (src : Nat) (b : Bytes), Awake s → s.dev.cfg.loading = some src → Ops.moving s.dev = true →
    (Ops.loadBytes s.dev src img).2 = some b →
    Does (.imageCheckDone img) s fun d =>
      let e := (Ops.loadBytes s.dev src img).1
      ∀ i, Img.container e b true (Ops.loadLimit e src) = Img.Chk.ok i → Ops.baseCheck e i = none →
      Ops.rd d Reg.cfgBootStatCode = 0 ∧ Ops.rd d Reg.cfgBootStatSource = src % 4 ∧ d.epochs = [] ∧ d.cfg.base.isSome = true ∧
      d.cfg.models = Ops.secBytes i 0x0A ∧ d.cfg.chains = List.replicate 6 (Codes.sha256 (Ops.zeros 32 ++ i.digest)) ∧
      Ops.rd d Reg.cfgImgVerVersion = i.version % 2 ^ 32 ∧
      (∀ x, 0x1C0000000 ≤ x → x < 0x200000000 → Ops.byteGet d.mem.cells x = 0) ∧
      (Ops.secBytes i 9 = none → d.cfg.loading = none ∧ Ops.bootState d = 2 ∧
        ∀ k, Ops.secBytes i 6 = some k → d.cfg.keys = Img.keysOf k)) ∧
  (
  (∀ (s : State) (c : EpochCfg), Awake s → s.dev.cfg.base = some c → Ops.moving s.dev = true →
    Does .epochZero s fun d =>
      (∃ g, d.epochs = [{ num := 0, cfg := { c with regs := g }, drain := none }] ∧ (s.dev.shadow = [] → g = c.regs)) ∧
      d.cfg.base = none ∧ Ops.bootState d = 3 ∧
      Ops.rd64 d Reg.grfBoundaryLoNs Reg.grfBoundaryHiNs = Ops.now64 s.dev ∧
      (s.dev.cfg.models.isSome = true → d.grf.queue = s.dev.grf.queue ++ [65] ∧ Ops.rd d Reg.cfgBootStatModelsCode = 1) ∧
      (s.dev.cfg.models = none → d.grf = s.dev.grf) ∧ d.mem = s.dev.mem) ∧
  (∀ s : State, Awake s → s.dev.cfg.base = none ∨ Ops.moving s.dev = false → Does .epochZero s fun d => d = s.dev))

/-- A function-level reset (R288, R343): the channels that the function owns return to IDLE, its MSI-X table is cleared, its graft port is
idle; HIF records the function; what the PF has set for the tenant, the other functions' channels and tables stay.
`PERST_N` (R474): its fall resets HIF and acts as a function-level reset of every function, while packet service, the
time base, the epochs and memory go on; after it rises HIF answers with Retry Status until 20 ms have passed, and the host then configures the
link, the VFs and MSI-X as it will (R340, R342; that this comes with CRS_END is the model's choice, log entry 42).
`SYS_RST_N` low resets every block but the AON domain and the fuses; the release latches the straps, sets the time base to 0, chooses
the clock source by what is READY, starts Retry Status, and with BOOT_MODE = 0 the load of flash image A (R138, R473 to R475, R517). -/
def Obligations.ResetsActOnTheirDomains : Prop :=
  (
  ∀ (s : State) (fn : Fn), fn.val < 64 → Awake s →
    Does (.flr fn) s fun d =>
      Ops.rd d Reg.hifFlrStatFunc = fn ∧ Ops.rd d Reg.hifFlrStatSeen = 1 ∧
      (∀ c, c < 4096 → c ∈ s.dev.chans.map (·.1) → Ops.rd s.dev (Reg.dmaChOwnerOwner c) = fn → Ops.chState d c = 0) ∧
      (∀ c x, c < 4096 → Ops.rd s.dev (Reg.dmaChOwnerOwner c) ≠ fn → Ops.find? s.dev.chans c = some x →
        Ops.find? d.chans c = some x) ∧
      fn.val ∉ d.hif.msixEn ∧ (∀ n, n ≠ fn.val → (n ∈ d.hif.msixEn ↔ n ∈ s.dev.hif.msixEn)) ∧
      (∀ vec w, vec < 2048 → w < 4 → Ops.msixWord d fn vec w = if w = 3 then 1 else 0) ∧
      fn.val ∉ d.grf.queue ∧ (∀ t, t < 256 → Ops.rd d (Reg.cfgSlotOwner t) = Ops.rd s.dev (Reg.cfgSlotOwner t)) ∧
      d.mem = s.dev.mem ∧ d.epochs = s.dev.epochs ∧ d.tb = s.dev.tb) ∧
  (
  (∀ s : State,
    Does .perstAssert s fun d =>
      d.hif = { host := s.dev.hif.host, numVfs := 0, msixEn := [], msixTab := [], msixPend := [], perst := true, crs := none } ∧
      (∀ c, c < 4096 → c ∈ s.dev.chans.map (·.1) → Ops.rd s.dev (Reg.dmaChOwnerOwner c) < 64 → Ops.chState d c = 0) ∧
      (∀ f : Fld, f.key / 32 / 0x100000 = 17 → Ops.rd d f = f.rst) ∧ d.tb = s.dev.tb ∧
      d.epochs = s.dev.epochs ∧ d.mem = s.dev.mem ∧ d.pins = s.dev.pins ∧ d.stm = s.dev.stm ∧ d.flw = s.dev.flw) ∧
  (∀ s : State, s.dev.hif.perst = true →
    Does .perstRelease s fun d =>
      d = { s.dev with hif := { s.dev.hif with perst := false, crs := some (Ops.now s.dev + 20000000) } }) ∧
  (∀ s : State, s.dev.hif.perst = false → Does .perstRelease s fun d => d = s.dev) ∧
  (∀ (s : State) (t : Nat), Awake s → s.dev.hif.crs = some t →
    Does .crsEnd s fun d =>
      let h := s.dev.hif.host
      (s.dev.hif.perst = false → t ≤ Ops.now s.dev →
        d.hif = { s.dev.hif with crs := none, numVfs := min h.numVfs 63, msixEn := h.msix.filter (· ≤ min h.numVfs 63) } ∧
        Ops.rd d Reg.hifLinkStatRate = h.rate % 2 ^ Reg.hifLinkStatRate.w ∧
        Ops.rd d Reg.hifLinkStatWidth = h.width % 2 ^ Reg.hifLinkStatWidth.w ∧
        Ops.rd d Reg.hifLinkStatFlit = Ops.b2n (h.rate == 6) ∧
        Ops.rd d Reg.hifLinkStatNumVfs = h.numVfs % 2 ^ Reg.hifLinkStatNumVfs.w ∧
        RegsKept s.dev d [Reg.hifLinkStatRate.key, Reg.hifLinkStatWidth.key, Reg.hifLinkStatFlit.key, Reg.hifLinkStatNumVfs.key] ∧
        { d with regs := s.dev.regs, hif := s.dev.hif } = s.dev) ∧
      (s.dev.hif.perst = true ∨ Ops.now s.dev < t → d = s.dev))) ∧
  (
  (∀ (s : State) (rail : Bool),
    Does (.sysRstAssert rail) s fun d =>
      d.pins.sysRstN = false ∧ d.pins.railLost = (s.dev.pins.railLost || (rail && s.dev.pins.sysRstN)) ∧
      RegsKept State.reset.dev d (Ops.aonFlds.map (·.key)) ∧ (∀ f ∈ Ops.aonFlds, Ops.rd d f = Ops.rd s.dev f % 2 ^ f.w) ∧
      d.ctrs = [] ∧ d.units = [] ∧ d.epochs = [] ∧ d.mem = State.reset.dev.mem ∧ d.clk = State.reset.dev.clk ∧ d.tb.t = 0 ∧
      d.sgn.session = false ∧ d.sgn.boot = s.dev.sgn.boot ∧ d.sgn.resets = s.dev.sgn.resets ∧
      d.sec = { s.dev.sec with prov := none } ∧ d.grf = State.reset.dev.grf ∧ d.straps = s.dev.straps) ∧
  (∀ (s : State) (x : Straps), s.dev.pins.sysRstN = false →
    Does (.sysRstRelease x) s fun d =>
      d.pins.sysRstN = true ∧ d.straps = x ∧ d.tb.t = 0 ∧ d.hif.crs = some 20000000 ∧
      (x.bootHost = true → d.cfg.loading = s.dev.cfg.loading) ∧ (x.bootHost = false → d.cfg.loading = some 1 ∧ Ops.bootState d = 1) ∧
      (Ops.rdB s.dev Reg.clkSrcStatRefReady = true → Ops.rd d Reg.clkRootStatLocked = 1 ∧
        d.clk.onFb = s.dev.clk.onFb ∧ d.clk.holdTo = s.dev.clk.holdTo) ∧
      (Ops.rdB s.dev Reg.clkSrcStatRefReady = false → Ops.rdB s.dev Reg.clkSrcStatFbReady = true →
        Ops.rd d Reg.clkSrcCtlSel = 1 ∧ Ops.rd d Reg.clkRootStatSrc = 1 ∧ Ops.rd d Reg.clkTbStatFallback = 1 ∧
        Ops.rd d Reg.clkTbStatUnsynced = 1 ∧ d.clk.onFb = true) ∧
      (Ops.rdB s.dev Reg.clkSrcStatRefReady = false → Ops.rdB s.dev Reg.clkSrcStatFbReady = false →
        Ops.holding d = true ∧ d.clk.holdTo = some true ∧ d.clk.holdDl = some 2000000)))

/-- The AON domain's reset (R516): RESETS returns to zero, `FLT_AON` is cleared, the strap latches restart and the fallback oscillator
is not READY, and the next session raises BOOT, as far as its 13 bits go (R453). VDD_AON is a rail, so a device whose `SYS_RST_N` is high resets
with it (R515). -/
def Obligations.AonResetRestartsTheAonDomain : Prop :=
  (∀ s : State,
    Does .aonReset s fun d =>
      d.sgn.resets = 0 ∧ Ops.rd d Reg.fltAonValid = 0 ∧ Ops.rd d Reg.fltAonCause = 0 ∧ Ops.rd d Reg.clkSrcStatFbReady = 0 ∧
      Ops.rd d Reg.clkSrcStatRefReady = 0 ∧ d.straps = State.reset.dev.straps ∧ d.sgn.booted = false ∧ d.sgn.boot = s.dev.sgn.boot ∧
      (s.dev.pins.sysRstN = true → d.pins.sysRstN = false ∧ d.pins.railLost = true)) ∧
  (∀ s : State, Awake s → s.dev.sgn.booted = false → s.dev.sgn.boot < 8191 → Ops.gate s.dev 21 = .pendOn → Ops.enBit s.dev 21 = true →
    Ops.frozen s.dev = false → Ops.holding s.dev = false → Ops.domOn s.dev 1 = true →
    Does (.gateOnDone 21) s fun d =>
      d.sgn.session = true ∧ d.sgn.boot = s.dev.sgn.boot + 1 ∧ d.sgn.resets = (s.dev.sgn.resets + 1) % 2 ^ 32 ∧ d.sgn.bseq = 0)

/-! ### Grafts, epochs, faults -/

/-- The graft ports (R269, R280): a write of GO queues the port's graft and sets BUSY, with CODE PENDING and STAGE 1. It is ignored while
BUSY = 1, and before a base image has been loaded it only sets NOT_LOADED.
Staging (R269, R270, R274): GRF takes the graft whose GO came first, and takes none while it holds one, while an FLT graft stages or
in HOLD. A list with a bad header fails with FORMAT, EPOCH_FULL ends a graft with WAIT = 0 whose epoch number is live, and whatever
staging does or finds, no epoch, rule entry, tensor record or refit bank changes. -/
def Obligations.GraftsQueueAndStage : Prop :=
  (
  ∀ (s : State) (fn : Fn) (w : Word), Awake s → Arrives s.dev fn 0x00301010 true →
    Does (.graftSubmit fn w) s fun d =>
      let p := Ops.copyNo fn
      (Ops.bit w.toNat 0 = false ∨ Ops.rdB s.dev (Ops.portF p Reg.grfStatusBusy) = true → d = s.dev) ∧
      (Ops.bit w.toNat 0 = true → Ops.rdB s.dev (Ops.portF p Reg.grfStatusBusy) = false → s.dev.epochs = [] →
        Ops.rd d (Ops.portF p Reg.grfStatusNotLoaded) = 1 ∧ RegsOnly s.dev d [(Ops.portF p Reg.grfStatusNotLoaded).key]) ∧
      (Ops.bit w.toNat 0 = true → Ops.rdB s.dev (Ops.portF p Reg.grfStatusBusy) = false → s.dev.epochs ≠ [] →
        d.grf = { s.dev.grf with queue := s.dev.grf.queue ++ [p] } ∧ Ops.rd d (Ops.portF p Reg.grfStatusBusy) = 1 ∧
        Ops.rd d (Ops.portF p Reg.grfStatusCode) = 1 ∧ Ops.rd d (Ops.portF p Reg.grfStatusStage) = 1 ∧
        RegsKept s.dev d [(Ops.portF p Reg.grfStatusBusy).key, (Ops.portF p Reg.grfStatusCode).key,
          (Ops.portF p Reg.grfStatusStage).key] ∧ { d with regs := s.dev.regs, grf := s.dev.grf } = s.dev)) ∧
  (
  (∀ (s : State) (list : Bytes), Awake s →
    Does (.graftStageStart list) s fun d =>
      (s.dev.grf.cur.isSome = true ∨ s.dev.flt.grafts ≠ [] ∨ s.dev.epochs = [] ∨ Ops.fltState s.dev = 3 ∨ Ops.moving s.dev = false ∨
        s.dev.grf.queue = [] → d = s.dev) ∧
      (∀ p rest, s.dev.grf.queue = p :: rest → p < 64 → s.dev.grf.cur = none → s.dev.flt.grafts = [] → s.dev.epochs ≠ [] →
        Ops.fltState s.dev ≠ 3 → Ops.moving s.dev = true → Ops.groupMates s.dev = [] → s.dev.mem.blk = [] →
        ∃ g, d.grf = { s.dev.grf with queue := rest, cur := some g } ∧ g.port = p ∧ g.tag = Ops.le list 8 4 ∧ g.ready = false ∧
          g.wait = Ops.bit (Ops.le list 12 1) 0 ∧ g.group = false ∧ Ops.rd d (Ops.portF p Reg.grfStatusStage) = 2 ∧
          (list.take 4 ≠ [0x41, 0x51, 0x47, 0x4C] → ∃ more, g.fail = some (0x21, 0xFFFF, more)) ∧
          d.epochs = s.dev.epochs ∧ d.tcam = s.dev.tcam ∧ d.em = s.dev.em ∧ d.qnt = s.dev.qnt ∧ d.banks = s.dev.banks)) ∧
  (∀ (s : State) (g : Graft), Awake s → s.dev.grf.cur = some g → g.ready = false → g.port < 64 → g.group = false →
    Does .graftStageDone s fun d =>
      (∀ code item more, g.fail = some (code, item, more) ∨
          (g.fail = none ∧ g.wait = false ∧ (Ops.epoch? s.dev (Ops.needed s.dev)).isSome = true ∧ code = 0x13 ∧ item = 0xFFFF) →
        Ops.rd d (Ops.portF g.port Reg.grfStatusCode) = code % 256 ∧ Ops.rd d (Ops.portF g.port Reg.grfStatusBusy) = 0 ∧
        Ops.rd d (Ops.portF g.port Reg.grfStatusStage) = 0 ∧ d.grf.cur = none ∧ d.grf.queue = s.dev.grf.queue) ∧
      (g.fail = none → g.wait = true ∨ Ops.epoch? s.dev (Ops.needed s.dev) = none → s.dev.flt.grafts = [] →
        Ops.rd d (Ops.portF g.port Reg.grfStatusStage) = 3 ∧ d.grf = { s.dev.grf with cur := some { g with ready := true } }) ∧
      d.epochs = s.dev.epochs ∧ d.tcam = s.dev.tcam ∧ d.em = s.dev.em ∧ d.qnt = s.dev.qnt ∧ d.banks = s.dev.banks ∧ d.mem = s.dev.mem))

/-- The commit (R273 to R276, R280): at a boundary the graft that is READY begins epoch x + 1, modulo 256, where epoch x - 3 is free. The
replaced epoch drains with its configuration, from the drain limit as it reads then, or retires at once where nothing pins it: the status
is DRAINING or DONE. A graft that waits, and a device in a freeze or a clock hold, commits nothing. -/
def Obligations.CommitsBeginTheNextEpoch : Prop :=
  (∀ (s : State) (g : Graft) (slot pipes : Nat), Awake s → s.dev.grf.cur = some g → g.ready = true → g.port < 64 → g.group = false →
    g.items = [.activate slot pipes] → s.dev.flt.grafts = [] → s.dev.epochs ≠ [] → Ops.moving s.dev = true →
    Ops.epoch? s.dev (Ops.needed s.dev) = none → s.dev.grf.commitAt = none →
    Does .graftCommit s fun d =>
      let x := Ops.curNum s.dev
      Ops.curNum d = (x + 1) % 256 ∧ Ops.getD (Ops.curCfg d).active slot 0 = pipes ∧
      (∀ k, k ≠ slot → Ops.getD (Ops.curCfg d).active k 0 = Ops.getD (Ops.curCfg s.dev).active k 0) ∧
      (∀ k m, Ops.find? (Ops.curCfg s.dev).models k = some m →
        ∃ n, Ops.find? (Ops.curCfg d).models k = some n ∧ { n with acts := m.acts } = m) ∧
      (Ops.pins s.dev x = 0 → Ops.rd d (Ops.portF g.port Reg.grfStatusCode) = 0 ∧ ∀ e ∈ d.epochs, e.num ≠ x) ∧
      (Ops.pins s.dev x ≠ 0 → Ops.rd d (Ops.portF g.port Reg.grfStatusCode) = 2 ∧
        ∃ e ∈ d.epochs, e.num = x ∧ e.cfg = Ops.curCfg s.dev ∧
          e.drain = some (Ops.now s.dev + 1000 * Ops.rd s.dev Reg.grfDrainCfgLimit)) ∧
      Ops.rd d (Ops.portF g.port Reg.grfStatusEpoch) = (x + 1) % 256 ∧ Ops.rd d (Ops.portF g.port Reg.grfStatusBusy) = 0 ∧
      Ops.rd d (Ops.portF g.port Reg.grfStatusStage) = 4 ∧ d.grf.cur = none ∧
      Ops.rd64 d Reg.grfBoundaryLoNs Reg.grfBoundaryHiNs = Ops.now64 s.dev ∧ d.units = s.dev.units ∧ d.mem = s.dev.mem) ∧
  (∀ s : State, Awake s → s.dev.grf.cur = none ∧ s.dev.flt.grafts = [] ∨ Ops.moving s.dev = false ∨ s.dev.epochs = [] ∨
      (∃ g, s.dev.grf.cur = some g ∧ s.dev.flt.grafts = [] ∧
        (g.ready = false ∨ (Ops.epoch? s.dev (Ops.needed s.dev)).isSome = true)) →
    Does .graftCommit s fun d => d = s.dev)

/-- The end of an epoch (R275, R276, R278): a draining epoch that nothing pins retires, and its bit leaves every rule entry; one whose
drain timer has ended expires and retires, and every unit that it holds is marked; an epoch that is pinned, or whose timer runs, stays. -/
def Obligations.EpochsRetireOrExpire : Prop :=
  (∀ (s : State) (x : Nat) (e : Epoch), Awake s → Ops.epoch? s.dev x = some e → e.drain.isSome = true → s.dev.grf.cur = none →
    s.dev.flt.grafts = [] →
    Does (.epochRetire x) s fun d =>
      (Ops.pins s.dev x = 0 → d.epochs = s.dev.epochs.filter (fun e => e.num != x) ∧
        (∀ p ∈ d.tcam ++ d.em, Ops.bit p.2.epochs (x % 4) = false) ∧
        Ops.ctr d Ctr.grfRetire = (Ops.ctr s.dev Ctr.grfRetire + 1) % 2 ^ 64 ∧ d.units = s.dev.units ∧ d.mem = s.dev.mem ∧
        d.chans = s.dev.chans ∧ d.flw = s.dev.flw ∧ d.tb = s.dev.tb) ∧
      (Ops.pins s.dev x ≠ 0 → d = s.dev)) ∧
  (∀ (s : State) (x t : Nat) (e : Epoch), Awake s → Ops.epoch? s.dev x = some e → e.drain = some t → s.dev.grf.cur = none →
    s.dev.flt.grafts = [] →
    Does (.epochExpire x) s fun d =>
      (t ≤ Ops.now s.dev → Ops.pins s.dev x ≠ 0 → Ops.moving s.dev = true →
        d.epochs = s.dev.epochs.filter (fun e => e.num != x) ∧ (∀ q ∈ d.runQueue ++ d.runs, q.epoch ≠ x) ∧
        (∀ u r, Ops.find? s.dev.units u = some r → r.hasCtx = true → r.epoch = x →
          ∃ r', Ops.find? d.units u = some r' ∧ r'.expired = true ∧ r'.epoch = x) ∧
        (∀ u r, Ops.find? s.dev.units u = some r → (∀ p ∈ s.dev.units, p.1 = u → p.2.epoch ≠ x) →
          ∃ r', Ops.find? d.units u = some r' ∧ r'.expired = r.expired ∧ r'.hasCtx = r.hasCtx ∧ r'.verdict = r.verdict) ∧
        d.mem = s.dev.mem ∧ d.tb = s.dev.tb) ∧
      (Ops.now s.dev < t ∨ Ops.pins s.dev x = 0 ∨ Ops.moving s.dev = false → d = s.dev))

/-- Group commit (R283, R284). A participant takes the coordinator's list as its own graft, COMMIT gives it the commit time, ABORT
releases it, and without either COMMIT_TMO after its reply it releases it and sets SPLIT; a split device holds no group graft. The
coordinator ends its graft with a refusing participant's code or, where a reply is missing after PREP_TMO, with PARTNER_ABORT; once every reply
is READY it commits LEAD µs later; it waits for each acknowledgement, and sets SPLIT where one is missing after COMMIT_TMO. A member of the
first of two paired groups hands what its partner sends, and what it is sent, on (R393; log entry 156). -/
def Obligations.GroupsCommitTogether : Prop :=
  (∀ (s : State) (tag : Nat) (list : Bytes) (pay : List Bytes), Awake s → s.dev.flt.grafts = [] → s.dev.grf.cur = none → list ≠ [] →
    Does (.groupPrepare tag list pay) s fun d =>
      (Ops.split s.dev = true → d.grf = s.dev.grf) ∧
      (Ops.split s.dev = false → ∃ g, d.grf.cur = some g ∧ g.port = 66 ∧ g.tag = tag ∧ g.ready = false) ∧
      d.epochs = s.dev.epochs ∧ d.tcam = s.dev.tcam ∧ d.em = s.dev.em ∧ d.grf.queue = s.dev.grf.queue) ∧
  (∀ (s : State) (g : Graft) (t m st : Nat), Awake s → s.dev.flt.grafts = [] → s.dev.grf.cur = some g → g.port < 64 → g.group = true →
    s.dev.grf.prepDl = some t → m ∈ s.dev.grf.mates → Ops.relays s.dev = false ∨ m ≠ 8 + Ops.ownId s.dev →
    Does (.groupReply m st) s fun d =>
      (st ≠ 0 → Ops.rd d (Ops.portF g.port Reg.grfStatusCode) = st % 256 ∧ d.grf.cur = none ∧ d.epochs = s.dev.epochs) ∧
      (st = 0 → g.ready = false → d = { s.dev with grf := { s.dev.grf with replies := Ops.set s.dev.grf.replies m 0 } }) ∧
      (st = 0 → g.ready = true → Ops.epoch? s.dev (Ops.needed s.dev) = none →
        (∀ k ∈ s.dev.grf.mates, k ≠ m → Ops.find? s.dev.grf.replies k = some 0) →
        d.grf = { s.dev.grf with
          replies := Ops.set s.dev.grf.replies m 0, prepDl := none, acks := s.dev.grf.mates
          commitAt := some (Ops.now s.dev + 1000 * Ops.rd s.dev Reg.grfGroupCfg0Lead)
          ackDl := some (Ops.now s.dev + 1000 * Ops.rd s.dev Reg.grfGroupCfg0Lead +
            1000 * Ops.rd s.dev Reg.grfGroupCfg1CommitTmo) })) ∧
  (∀ (s : State) (g : Graft) (t : Nat), Awake s → s.dev.flt.grafts = [] → s.dev.grf.cur = some g → g.port < 64 → g.group = true →
    s.dev.grf.prepDl = some t →
    Does .groupPrepareTimeout s fun d =>
      (Ops.now s.dev < t ∨ (∀ k ∈ s.dev.grf.mates, Ops.find? s.dev.grf.replies k = some 0) → d = s.dev) ∧
      (t ≤ Ops.now s.dev → (∃ k ∈ s.dev.grf.mates, Ops.find? s.dev.grf.replies k ≠ some 0) →
        Ops.rd d (Ops.portF g.port Reg.grfStatusCode) = 0x31 ∧ d.grf.cur = none ∧ d.epochs = s.dev.epochs)) ∧
  (∀ (s : State) (tc : Nat), Awake s →
    Does (.groupCommit tc) s fun d =>
      (s.dev.grf.partDl.isSome = true → d.grf = { s.dev.grf with partDl := none, commitAt := some tc }) ∧
      (s.dev.grf.partDl = none → d.grf = s.dev.grf) ∧ (Ops.relays s.dev = false → { d with grf := s.dev.grf } = s.dev)) ∧
  (∀ (s : State) (g : Graft), Awake s → s.dev.grf.cur = some g →
    Does .groupAbort s fun d =>
      (g.port = 66 → s.dev.grf.commitAt = none → d.grf = (Ops.clearCur s.dev).grf) ∧
      (g.port ≠ 66 ∨ s.dev.grf.commitAt.isSome = true → d.grf = s.dev.grf) ∧
      (Ops.relays s.dev = false → { d with grf := s.dev.grf } = s.dev)) ∧
  (∀ (s : State) (g : Graft) (t : Nat), Awake s → s.dev.grf.partDl = some t → s.dev.grf.cur = some g → g.port = 66 →
    Does .groupCommitTimeout s fun d =>
      (Ops.now s.dev < t → d = s.dev) ∧
      (t ≤ Ops.now s.dev → Ops.rd d Reg.grfGroupStatSplit = 1 ∧ d.grf = (Ops.clearCur s.dev).grf ∧
        Ops.ctr d Ctr.grfPartnerAbort = (Ops.ctr s.dev Ctr.grfPartnerAbort + 1) % 2 ^ 64 ∧
        RegsKept s.dev d [Reg.grfGroupStatSplit.key, Reg.grfGroupStatMember.key] ∧ CtrsKept s.dev d [Ctr.grfPartnerAbort] ∧
        d.epochs = s.dev.epochs ∧ d.tcam = s.dev.tcam ∧ d.em = s.dev.em ∧ d.mem = s.dev.mem)) ∧
  (∀ (s : State) (t m : Nat) (rest : List Nat), Awake s → s.dev.grf.ackDl = some t → s.dev.grf.acks = m :: rest →
    Does .groupAckTimeout s fun d =>
      (Ops.now s.dev < t → d = s.dev) ∧
      (t ≤ Ops.now s.dev → Ops.rd d Reg.grfGroupStatSplit = 1 ∧ Ops.rd d Reg.grfGroupStatMember = m % 8 ∧
        d.grf = { s.dev.grf with acks := [], ackDl := none } ∧
        RegsKept s.dev d [Reg.grfGroupStatSplit.key, Reg.grfGroupStatMember.key])) ∧
  (∀ (s : State) (m : Nat), Awake s → Ops.relays s.dev = false ∨ m ≠ 8 + Ops.ownId s.dev →
    Does (.commitAckReceive m) s fun d =>
      d.grf.acks = s.dev.grf.acks.filter (fun k => k != m) ∧
      (m ∉ s.dev.grf.acks → d = s.dev) ∧
      (m ∈ s.dev.grf.acks → (∃ k ∈ s.dev.grf.acks, k ≠ m) →
        d = { s.dev with grf := { s.dev.grf with acks := s.dev.grf.acks.filter (fun k => k != m) } }) ∧
      (m ∈ s.dev.grf.acks → (∀ k ∈ s.dev.grf.acks, k = m) → d.grf.ackDl = none ∧ ∀ g ∈ d.grf.done, g.told = true))

/-- FLT (R397, R399, R403, R404, R408): a detected fault is logged with its class and unit. A pool with a spare starts a remap; a lane
takes its port down (that the model does so for a detected fault: log entry 164) and degrades the device, CLOCK and CONTROL fail it, THERMAL holds it; an uncorrectable memory error is logged only; a unit that does not exist,
or whose domain is not ON, is never a fault. An injected fault acts as the class that it names, logged with code 0x0D. -/
def Obligations.FaultsMoveTheStateMachine : Prop :=
  (∀ (s : State) (cls unit : Nat), Awake s → Ops.frozen s.dev = false → Ops.fltState s.dev = 0 →
    Does (.faultDetect cls unit) s fun d =>
      let k := Ops.rd s.dev Reg.fltLogHeadSeq % 64
      let logged := fun (d : Dev) => Ops.rd d Reg.fltStatFaultPend = 1 ∧
        Ops.rd d (Reg.fltLogWord k 2) % 256 = cls ∧ Ops.rd d (Reg.fltLogWord k 2) / 65536 = unit ∧
        Ops.rd d Reg.fltLogHeadSeq = (Ops.rd s.dev Reg.fltLogHeadSeq + 1) % 2 ^ 32
      (Ops.faultUnit cls unit = false ∨ Ops.faultPowered s.dev cls unit = false → d = s.dev) ∧
      (cls = 7 → Ops.faultUnit cls unit = true → logged d ∧ Ops.fltState d = 0 ∧ d.flt = s.dev.flt ∧ d.epochs = s.dev.epochs) ∧
      (cls = 6 → unit < 32 → Ops.domOn s.dev 7 = true → logged d ∧ Ops.fltState d = 2 ∧ Ops.rd d Reg.fltStatLost = 1 ∧ d.flt = s.dev.flt ∧
        Ops.rd d (Reg.prtPortStatLinkUp unit) = 0 ∧ Ops.rd d (Reg.prtPortStatLaneFail unit) = 1) ∧
      (cls = 10 → unit < 65536 → logged d ∧ Ops.fltState d = 3 ∧ Ops.rd d Reg.fltStatCause = 10 ∧ d.flt.before = 0 ∧
        d.flt.grafts = s.dev.flt.grafts) ∧
      (cls = 11 ∨ cls = 12 → unit < 65536 → logged d ∧ Ops.fltState d = 6 ∧ Ops.rd d Reg.fltStatCause = cls ∧
        Ops.rd d Reg.fltAonValid = 1 ∧ Ops.rd d Reg.fltAonCause = cls ∧ Ops.rd d Reg.stmStatState = 0 ∧
        ∀ n, n < 32 → Ops.rd d (Reg.prtPortStatLinkUp n) = 0) ∧
      (∀ sp, cls = 1 → unit < 32 → Ops.faultPowered s.dev 1 unit = true → Ops.unitFailed s.dev 0 unit = false →
        Ops.logicalOf s.dev 0 unit = some unit → (Ops.sparesUp s.dev 0).head? = some sp → s.dev.grf.cur = none → s.dev.flt.grafts = [] →
        logged d ∧ Ops.fltState d = 1 ∧ Ops.unitFailed d 0 unit = true ∧
        d.flt.grafts = [{ pool := some 0, logical := unit, phys := unit, spare := some sp, lost := none, t := Ops.now s.dev,
                          ready := false, cls := 1 }] ∧ d.epochs = s.dev.epochs)) ∧
  (∀ (s : State) (w : Word), Awake s → Arrives s.dev 0 0x0140000C true → Ops.frozen s.dev = false →
    Does (.fltInject w) s fun d =>
      (Ops.bit w.toNat 16 = false → Ops.rd d Reg.fltInjClass = Ops.bits w.toNat 0 5 ∧
        Ops.rd d Reg.fltInjUnit = Ops.bits w.toNat 5 11 ∧ RegsOnly s.dev d [Reg.fltInjClass.key, Reg.fltInjUnit.key]) ∧
      (Ops.bit w.toNat 16 = true → Ops.bits w.toNat 0 5 = 10 → Ops.fltState s.dev = 0 →
        Ops.fltState d = 3 ∧ Ops.rd d Reg.fltStatCause = 10 ∧ Ops.rd d (Reg.fltLogWord (Ops.rd s.dev Reg.fltLogHeadSeq % 64) 2) % 256 = 0x0D))

/-- The end of a remap (R399, R403, R404): once its map and copies are staged, the remap commits at the next boundary, whatever software
stages: the logical unit is served by the spare, and with LOST = 0 the device is NORMAL again. A HOLD that is not thermal ends in
HANDOVER with a PAIRED partner, in FAILED where an SRAM die is lost, else in SKELETON; a thermal one ends by RELEASE, once the trip is over,
in the state before it. -/
def Obligations.RemapsAndHoldsEnd : Prop :=
  (∀ (s : State) (g : FltGraft), Awake s → s.dev.flt.grafts = [g] → g.ready = false → Ops.groupMates s.dev = [] →
    Does .remapCopyDone s fun d => d = { s.dev with flt := { s.dev.flt with grafts := [{ g with ready := true }] } }) ∧
  (∀ (s : State) (g : FltGraft) (sp : Nat), Awake s → s.dev.flt.grafts = [g] → g.ready = true → g.pool = some 0 → g.spare = some sp →
    g.lost = none → s.dev.grf.prepDl = none → s.dev.grf.commitAt = none → Ops.moving s.dev = true → s.dev.epochs ≠ [] →
    Ops.fltState s.dev = 1 → Ops.rd s.dev Reg.fltStatLost = 0 → Ops.epoch? s.dev (Ops.needed s.dev) = none →
    Does .graftCommit s fun d =>
      Ops.physOf d 0 g.logical = sp ∧ (∀ k, k ≠ g.logical → k < 128 → Ops.physOf d 0 k = Ops.physOf s.dev 0 k) ∧ d.flt.grafts = [] ∧
      Ops.fltState d = 0 ∧ Ops.curNum d = (Ops.curNum s.dev + 1) % 256 ∧ d.flt.failed = s.dev.flt.failed) ∧
  (∀ s : State, Awake s →
    Does .holdExit s fun d =>
      (Ops.fltState s.dev ≠ 3 ∨ Ops.rd s.dev Reg.fltStatCause = 10 → d = s.dev) ∧
      (Ops.fltState s.dev = 3 → Ops.rd s.dev Reg.fltStatCause ≠ 10 →
        Ops.fltState d = (if Ops.rd s.dev Reg.clpStatState = 2 then 4 else if Ops.rd s.dev Reg.fltStatCause = 8 then 6 else 5) ∧
        Ops.rd d Reg.fltStatCause = Ops.rd s.dev Reg.fltStatCause ∧ d.flt = s.dev.flt ∧ d.epochs = s.dev.epochs)) ∧
  (∀ s : State, Awake s → Arrives s.dev 0 0x01400008 true →
    Does .release s fun d =>
      (Ops.fltState s.dev ≠ 3 ∨ Ops.rd s.dev Reg.fltStatCause ≠ 10 ∨ Ops.rdB s.dev Reg.clkThermStatTrip = true → d = s.dev) ∧
      (Ops.fltState s.dev = 3 → Ops.rd s.dev Reg.fltStatCause = 10 → Ops.rdB s.dev Reg.clkThermStatTrip = false →
        s.dev.flt.before = 0 ∨ s.dev.flt.before = 2 →
        Ops.fltState d = s.dev.flt.before ∧ d.flt = s.dev.flt ∧ d.epochs = s.dev.epochs))
/-! ### Links and ports -/

/-- The training of a link (R62, R371): DOWN to PHY_TRAIN while ENABLE = 1 and its lanes have signal, then ALIGN, PARAM and ACTIVE,
each bounded at 10 ms; a disagreement returns it to DOWN; loss of lock or RETRAIN take it from ACTIVE to RETRAIN and, once its work has
cleared, to PHY_TRAIN. A state answers only its own events.
The ports (R39, R40): where AN_EN and LT_EN are set a port whose partner advertises the speed comes up, any other stays down with AN_FAIL; a C2C
port comes up without it; a port that may not rise stays as it is. A recalibration reads RECAL_BUSY until it ends; a lane that fails takes
its port down with LANE_FAIL, and no other port. -/
def Obligations.LinksTrainAndPortsRise : Prop :=
  (
  (∀ (s : State) (k : LinkId), Awake s → Arrives s.dev 0 (Ops.linkCtlAddr k) true →
    Does (.linkEnable k) s fun d =>
      Ops.lEnabled d k = true ∧ (Ops.lState s.dev k ≠ 0 → Ops.lState d k = Ops.lState s.dev k) ∧
      (Ops.lState s.dev k = 0 → Ops.fltFailed s.dev = false →
        Ops.lSignal s.dev k = 0 ∨ Ops.lanesOk s.dev k (Ops.lSignal s.dev k) = true → Ops.lState d k = 1) ∧
      (Ops.lState s.dev k = 0 → Ops.lSignal s.dev k ≠ 0 → Ops.lanesOk s.dev k (Ops.lSignal s.dev k) = false → Ops.lState d k = 0) ∧
      RegsKept s.dev d [(Ops.linkRegs k).1.key, (Ops.linkRegs k).2.1.key] ∧
      { d with regs := s.dev.regs, stm := s.dev.stm, trl := s.dev.trl, clp := s.dev.clp } = s.dev) ∧
  (∀ (s : State) (k : LinkId), Awake s → Arrives s.dev 0 (Ops.linkCtlAddr k) true →
    Does (.linkDisable k) s fun d =>
      Ops.lEnabled d k = false ∧ Ops.lState d k = 0 ∧
      (Ops.lState s.dev k ≠ 4 → RegsKept s.dev d [(Ops.linkRegs k).1.key, (Ops.linkRegs k).2.1.key])) ∧
  (∀ (s : State) (k : LinkId) (m : Nat), Awake s →
    Does (.signalDetect k m) s fun d =>
      Ops.lSignal d k = m ∧
      Ops.lState d k = (if Ops.lState s.dev k = 0 ∧ Ops.lEnabled s.dev k = true ∧ Ops.lanesOk s.dev k m = true ∧
        Ops.linkGate s.dev k = true ∧ Ops.fltFailed s.dev = false then 1 else Ops.lState s.dev k) ∧
      RegsKept s.dev d [(Ops.linkRegs k).2.1.key]) ∧
  (∀ (s : State) (k : LinkId) (m : Nat), Awake s →
    Does (.fecLock k m) s fun d =>
      (Ops.lState s.dev k ≠ 1 → d = s.dev) ∧ (Ops.lState s.dev k = 1 → m % 65536 = 65535 → Ops.lState d k = 2) ∧
      (Ops.lState s.dev k = 1 → m % 256 ≠ 255 → m / 256 % 256 ≠ 255 → Ops.lState d k = 1) ∧
      (k = .stem → Ops.lState s.dev k = 1 → m % 65536 = 255 →
        Ops.lState d k = (if Ops.rdB s.dev Reg.stmCtlAllow8lane = true then 2 else 1) ∧
        (Ops.rdB s.dev Reg.stmCtlAllow8lane = true → Ops.rd d Reg.stmStatLanes8 = 1)) ∧
      RegsKept s.dev d [(Ops.linkRegs k).2.1.key, Reg.stmStatLanes8.key]) ∧
  (∀ (s : State) (k : LinkId), Awake s →
    Does (.laneAlign k) s fun d =>
      (Ops.lState s.dev k = 2 → Ops.lState d k = 3 ∧ RegsKept s.dev d [(Ops.linkRegs k).2.1.key]) ∧
      (Ops.lState s.dev k ≠ 2 → d = s.dev)) ∧
  (∀ (s : State) (k : LinkId) (p : PeerParam), Awake s →
    Does (.paramExchange k p) s fun d =>
      (Ops.lState s.dev k ≠ 3 → d = s.dev) ∧
      (k = .stem → Ops.lState s.dev k = 3 → p.strap = true → p.lanes = (if Ops.rdB s.dev Reg.stmStatLanes8 then 8 else 16) →
        p.group = Ops.rd s.dev Reg.stmWinCfgWindow → p.id = Ops.rd s.dev Reg.stmCreditCfgInit →
        Ops.lState d k = 4 ∧ d.stm.slot = 0 ∧ d.stm.cred = Ops.rd s.dev Reg.stmCreditCfgInit) ∧
      (∀ l peer clash, Ops.linkNo k = some l → Ops.peerRegs k = some (peer, clash) → Ops.lState s.dev k = 3 →
        (l < 4 → Ops.rdB s.dev Reg.trlCfgEnable = false → d = s.dev) ∧
        (p.part = Ops.rd s.dev Reg.topIdPart → p.group = Ops.rd s.dev Reg.trlCfgGroup →
          4 ≤ l ∨ (Ops.rdB s.dev Reg.trlCfgEnable = true ∧ p.id ≠ s.dev.straps.trlId ∧
            (Ops.bit (Ops.rd s.dev Reg.trlStatLive) p.id = true → Ops.routeTo s.dev p.id = some l)) →
          Ops.lState d k = 4 ∧ Ops.rd d peer = p.id % 2 ^ peer.w ∧ (Ops.link d l).txSeq = (Ops.link s.dev l).txSeq ∧
          (Ops.link d l).expSeq = (Ops.link s.dev l).expSeq ∧ (Ops.link d l).held = (Ops.link s.dev l).held) ∧
        (p.part ≠ Ops.rd s.dev Reg.topIdPart ∨ p.group ≠ Ops.rd s.dev Reg.trlCfgGroup → 4 ≤ l ∨ Ops.rdB s.dev Reg.trlCfgEnable = true →
          Ops.rd d (Ops.linkRegs k).2.2.1 = 1 ∧ Ops.lState d k ≤ 1) ∧
        (p.part = Ops.rd s.dev Reg.topIdPart → p.group = Ops.rd s.dev Reg.trlCfgGroup → l < 4 → p.id = s.dev.straps.trlId →
          Ops.rdB s.dev Reg.trlCfgEnable = true → Ops.rd d clash = 1 ∧ Ops.lState d k ≤ 1))) ∧
  (∀ (s : State) (k : LinkId), Awake s →
    Does (.trainingTimeout k) s fun d =>
      (1 ≤ Ops.lState s.dev k → Ops.lState s.dev k ≤ 3 → Ops.lSince s.dev k + 10000000 ≤ Ops.now s.dev →
        Ops.rd d (Ops.linkRegs k).2.2.2 = 1 ∧
        Ops.lState d k = (if Ops.lEnabled s.dev k = true ∧ Ops.lanesOk s.dev k (Ops.lSignal s.dev k) = true ∧
          Ops.linkGate s.dev k = true ∧ Ops.fltFailed s.dev = false then 1 else 0)) ∧
      (Ops.lState s.dev k = 0 ∨ 3 < Ops.lState s.dev k ∨ Ops.now s.dev < Ops.lSince s.dev k + 10000000 → d = s.dev)) ∧
  (∀ (s : State) (k : LinkId) (c : Instr), Awake s → c = .lossOfLock k ∨ c = .retrain k → Arrives s.dev 0 (Ops.linkCtlAddr k) true →
    Does c s fun d =>
      (Ops.lState s.dev k = 4 → Ops.lState d k = 5) ∧ (Ops.lState s.dev k ≠ 4 → d = s.dev)) ∧
  (∀ (s : State) (k : LinkId), Awake s →
    Does (.retrainCleared k) s fun d =>
      (Ops.lState s.dev k = 5 → k ≠ .stem ∨ (s.dev.stm.rsps = [] ∧ s.dev.stm.async = []) →
        Ops.lState d k = 1 ∧ RegsKept s.dev d [(Ops.linkRegs k).2.1.key]) ∧
      (Ops.lState s.dev k ≠ 5 ∨ (k = .stem ∧ (s.dev.stm.rsps ≠ [] ∨ s.dev.stm.async ≠ [])) → d = s.dev))) ∧
  (
  (∀ (s : State) (n : Port) (ok : Bool), Awake s →
    Does (.autoNegotiation n ok) s fun d =>
      (Ops.portMayRise s.dev n = true → Ops.rdB s.dev (Reg.prtPortCtlAnEn n) = true → Ops.rdB s.dev (Reg.prtPortCtlLtEn n) = true →
        Ops.rd d (Reg.prtPortStatLinkUp n) = (if ok then 1 else 0) ∧ (ok = false → Ops.rd d (Reg.prtPortStatAnFail n) = 1)) ∧
      (Ops.portMayRise s.dev n = false ∨ Ops.rdB s.dev (Reg.prtPortCtlAnEn n) = false ∨ Ops.rdB s.dev (Reg.prtPortCtlLtEn n) = false →
        d = s.dev) ∧
      RegsOnly s.dev d [(Reg.prtPortStatLinkUp n).key, (Reg.prtPortStatAnFail n).key]) ∧
  (∀ (s : State) (n : Port), Awake s →
    Does (.portLinkUp n) s fun d =>
      (Ops.portMayRise s.dev n = true → Ops.rd d (Reg.prtPortStatLinkUp n) = 1) ∧ (Ops.portMayRise s.dev n = false → d = s.dev) ∧
      RegsOnly s.dev d [(Reg.prtPortStatLinkUp n).key]) ∧
  (∀ (s : State) (k : Lane), Awake s → Arrives s.dev 0 (0x00400200 + 4 * k.val) true →
    Does (.recal k) s fun d =>
      Ops.rd d (Reg.prtLaneCtlRecalBusy k) = 1 ∧ RegsOnly s.dev d [(Reg.prtLaneCtlRecalBusy k).key]) ∧
  (∀ (s : State) (k : Lane) (ok : Bool), Awake s → Ops.rdB s.dev (Reg.prtLaneCtlRecalBusy k) = true → Ops.frozen s.dev = false →
    Does (.recalDone k ok) s fun d =>
      Ops.rd d (Reg.prtLaneCtlRecalBusy k) = 0 ∧ (ok = true → RegsOnly s.dev d [(Reg.prtLaneCtlRecalBusy k).key]) ∧
      (ok = false → Ops.rd d (Reg.prtPortStatLinkUp (Ops.portOf s.dev k)) = 0 ∧
        Ops.rd d (Reg.prtPortStatLaneFail (Ops.portOf s.dev k)) = 1)) ∧
  (∀ (s : State) (k : Lane), Awake s → Ops.frozen s.dev = false →
    Does (.laneFail k) s fun d =>
      let n := Ops.portOf s.dev k
      Ops.rd d (Reg.prtPortStatLinkUp n) = 0 ∧ Ops.rd d (Reg.prtPortStatLaneFail n) = 1 ∧ k.val ∈ d.prt.failed ∧
      (∀ j, j < 32 → j ≠ n → Ops.rd d (Reg.prtPortStatLinkUp j) = Ops.rd s.dev (Reg.prtPortStatLinkUp j)) ∧
      (Ops.fltState s.dev = 0 → Ops.fltState d = 2 ∧ Ops.rd d Reg.fltStatLost = 1) ∧ d.prt.pipeOf = s.dev.prt.pipeOf ∧
      d.epochs = s.dev.epochs))

/-- Trellis and Clasp links are lossless (R369): a flit that fails its CRC is counted and answered with a NAK, whose byte 0 is the SEQ
expected, and one out of sequence with a NAK; a counted flit in sequence advances the SEQ expected, and its ACK releases the flits that it
covers; at most 128 flits are unacknowledged; a link that goes to RETRAIN keeps them. In a slot of an ACTIVE link some flit leaves. A link that
is not ACTIVE receives nothing. What the slot carried is given by its 8 lanes (R47, R367). -/
def Obligations.LinkFlitsAreNotLost : Prop :=
  (∀ (s : State) (k : LinkId) (lanes : Option (List Nat)), Awake s →
    Does (.linkFlitReceive k lanes) s fun d =>
      (k = .stem → d = s.dev) ∧
      ∀ l, Ops.linkNo k = some l →
        let flit := Ops.slotFlit 8 lanes
        let crcErr := if l < 4 then Ctr.trlCrcErr else Ctr.clpCrcErr
        let thresh := Ops.rd s.dev (if l < 4 then Reg.trlErrCfgRetrainThresh else Reg.clpErrCfgRetrainThresh)
        (Ops.linkState s.dev l ≠ 4 → d = s.dev) ∧
        (Ops.linkState s.dev l = 4 → flit = none → thresh = 0 →
          Ops.ctr d crcErr = (Ops.ctr s.dev crcErr + 1) % 2 ^ 64 ∧ Ops.linkState d l = 4 ∧
          (Ops.link d l).held = (Ops.link s.dev l).held ∧ (Ops.link d l).expSeq = (Ops.link s.dev l).expSeq ∧
          ∃ b, d.out = (if l < 4 then .trlFlit l (Ops.laneWords 8 b) else .clpFlit (l - 4) (Ops.laneWords 8 b)) :: s.dev.out ∧
            (Ops.linkSends s.dev l = true → Ops.le b 0 8 % 16 = 3 ∧ Ops.byteAt b 8 = (Ops.link s.dev l).expSeq % 256) ∧
            (Ops.linkSends s.dev l = false → Ops.le b 0 8 % 16 = 0)) ∧
        (Ops.linkState s.dev l = 4 → flit = none → thresh = 1 →
          Ops.linkState d l = 5 ∧ (Ops.link d l).held = (Ops.link s.dev l).held ∧ (Ops.link d l).wait = (Ops.link s.dev l).wait) ∧
        (Ops.linkState s.dev l = 4 → Ops.linkState d l = 4 → s.dev.out.length < d.out.length) ∧
        (∀ f, flit = some f → Ops.linkState s.dev l = 4 → Ops.flitOk f = true → Ops.linkCarries l (Ops.le f 0 8 % 16) = true →
          Ops.le f 0 8 % 16 ≠ 3 → Ops.le f 0 8 % 16 ≠ 0 →
          (Ops.bits (Ops.le f 0 8) 13 8 = (Ops.link s.dev l).expSeq →
            (Ops.link d l).expSeq = ((Ops.link s.dev l).expSeq + 1) % 256) ∧
          (Ops.bits (Ops.le f 0 8) 13 8 ≠ (Ops.link s.dev l).expSeq → (Ops.link d l).expSeq = (Ops.link s.dev l).expSeq) ∧
          ((Ops.link s.dev l).wait = [] → ∀ h rest, (Ops.link s.dev l).held = h :: rest →
            Ops.bits (Ops.le f 0 8) 21 8 = h.1 → (Ops.link d l).held = rest)) ∧
        ((Ops.link s.dev l).held.length ≤ 128 → (Ops.link d l).held.length ≤ 128))

/-! ### The Stem port -/

/-- Stem requests (R49 to R55, R60): a request that ends in slot s has its response in slot s + ⌈W × f⌉; a well-formed one spends a
credit and waits for a LOOKASIDE pipe, a malformed one is answered by STM with the fallback verdict and MALFORMED, its credit returned. A
bad flit is counted, and the gap in SEQ that it leaves is counted as lost and answered with a NAK.
Stem responses and updates (R55 to R58, R64, R65): at its position, never before, a response leaves as an RSP flit with the
request's TAG and event time; an update that has been computed leaves as an ASYNC flit in a free slot, and is dropped at its limit. A
window outside its range is refused with WIN_REJ; the new one takes effect, and is announced, only while nothing is outstanding. An update that
the flit layer discards, as its link has left ACTIVE, ends without a slot (R63). Flits enter and leave on 16 or 8 lanes (R46, R47). -/
def Obligations.StemRequestsAreAnsweredInTheirSlot : Prop :=
  (∀ (n : Nat) (f : Bytes), n = 16 ∨ n = 8 → f.length = 80 → Ops.flitOfLanes (Ops.laneWords n f) = f) ∧
  (
  (∀ (s : State) (lanes : Option (List Nat)), Awake s →
    Does (.stemFlitReceive lanes) s fun d =>
      let flit := Ops.slotFlit (Ops.stmLanes s.dev) lanes
      (Ops.stmActive s.dev = false → d = s.dev) ∧
      (Ops.stmActive s.dev = true → flit = none → d.stm.slot = s.dev.stm.slot + 1 ∧ d.stm.rsps = s.dev.stm.rsps ∧
        d.stm.expSeq = s.dev.stm.expSeq ∧ d.units = s.dev.units) ∧
      (∀ f, flit = some f → Ops.stmActive s.dev = true → Ops.flitOk f = false → Ops.rd s.dev Reg.stmErrCfgRetrainThresh = 0 →
        Ops.ctr d Ctr.stmCrcErr = (Ops.ctr s.dev Ctr.stmCrcErr + 1) % 2 ^ 64 ∧ d.stm.slot = s.dev.stm.slot + 1 ∧
        d.stm.rsps = s.dev.stm.rsps ∧ d.stm.expSeq = s.dev.stm.expSeq) ∧
      (∀ f e, flit = some f → Ops.stmActive s.dev = true → Ops.flitOk f = true → s.dev.stm.expSeq = some e → e < 256 →
        Ops.le f 0 8 % 16 = 0 →
        let n := (Ops.bits (Ops.le f 0 8) 42 8 + 256 - e) % 256
        d.stm.expSeq = some ((Ops.bits (Ops.le f 0 8) 42 8 + 1) % 256) ∧ (n = 0 → d.stm.opened = s.dev.stm.opened) ∧
        (n ≠ 0 → Ops.ctr d Ctr.stmFlitLost = (Ops.ctr s.dev Ctr.stmFlitLost + n) % 2 ^ 64 ∧ d.stm.opened = none ∧ d.stm.dropping = true ∧
          ∃ nak, d.stm.naks.getLast? = some nak ∧ Ops.byteAt nak 0 = e ∧ Ops.byteAt nak 1 = n)) ∧
      (∀ f, flit = some f → Ops.stmActive s.dev = true → Ops.flitOk f = true →
        s.dev.stm.expSeq = none ∨ s.dev.stm.expSeq = some (Ops.bits (Ops.le f 0 8) 42 8) → s.dev.stm.opened = none →
        Ops.le f 0 8 % 16 = 1 → Ops.bit (Ops.le f 0 8) 4 = true → Ops.bit (Ops.le f 0 8) 5 = true →
        s.dev.stm.credRet = 0 → 0 < s.dev.stm.cred →
        let h := Ops.le f 0 8
        (1 ≤ Ops.bits h 26 10 → Ops.bits h 26 10 ≤ 64 → Ops.rd s.dev Reg.stmPipesMask ≠ 0 → 0 < Ops.ctxFree s.dev →
          ∃ u, d.stm.fifo = s.dev.stm.fifo ++ [u] ∧ d.stm.cred = s.dev.stm.cred - 1 ∧ d.stm.credRet = 0 ∧
            (∃ r, Ops.unit? d u = some r ∧ r.hasCtx = true ∧ r.len = Ops.bits h 26 10 ∧ r.bytes = (Ops.slice f 8 64).take r.len) ∧
            ∃ r, d.stm.rsps = s.dev.stm.rsps ++ [r] ∧ r.due = s.dev.stm.slot + Ops.windowSlots s.dev ∧ r.unit = some u ∧
              r.tag = Ops.bits h 8 18) ∧
        (Ops.bits h 26 10 = 0 ∨ 64 < Ops.bits h 26 10 →
          d.stm.fifo = s.dev.stm.fifo ∧ d.stm.cred = s.dev.stm.cred - 1 ∧ d.stm.credRet = 1 ∧ d.units = s.dev.units ∧
          Ops.ctr d Ctr.stmMalformed = (Ops.ctr s.dev Ctr.stmMalformed + 1) % 2 ^ 64 ∧
          ∃ r, d.stm.rsps = s.dev.stm.rsps ++ [r] ∧ r.due = s.dev.stm.slot + Ops.windowSlots s.dev ∧ r.unit = none ∧
            r.tag = Ops.bits h 8 18 ∧ r.verdict.flags = 4 ∧ r.verdict.action = Ops.rd s.dev Reg.stmFallbackVerdict0Action ∧
            r.verdict.queue = Ops.rd s.dev Reg.stmFallbackVerdict1Queue))) ∧
  (∀ (s : State), Awake s →
    Does .stemRequestDispatch s fun d =>
      (Ops.stmActive s.dev = false ∨ s.dev.stm.fifo = [] → d = s.dev) ∧
      (∀ u rest p r, Ops.stmActive s.dev = true → s.dev.stm.fifo = u :: rest → Ops.nextPipe s.dev = some p →
        Ops.unit? s.dev u = some r →
        d.stm = { s.dev.stm with fifo := rest, credRet := s.dev.stm.credRet + 1, rot := p + 1 } ∧
        Ops.unit? d u = some { r with pipe := p } ∧ { d with stm := s.dev.stm, units := s.dev.units } = s.dev))) ∧
  (
  (∀ (s : State) (r : StemRsp) (rest : List StemRsp), Awake s → s.dev.stm.rsps = r :: rest → r.discard = false →
    Does .stemResponseSend s fun d =>
      (Ops.stmActive s.dev = false ∨ s.dev.stm.slot < r.due → d = s.dev) ∧
      (Ops.stmActive s.dev = true → r.due ≤ s.dev.stm.slot → r.unit = none →
        d.stm.rsps = rest ∧ d.units = s.dev.units ∧ Ops.ctr d Ctr.stmRsp = (Ops.ctr s.dev Ctr.stmRsp + 1) % 2 ^ 64 ∧
        ∃ b pre mid, d.out = pre ++ .stemFlit s.dev.stm.slot (Ops.laneWords (Ops.stmLanes s.dev) b) :: mid ++ s.dev.out ∧
          Ops.le b 0 8 % 16 = 2 ∧ Ops.bits (Ops.le b 0 8) 8 18 = r.tag % 2 ^ 18 ∧ Ops.le b 24 8 = r.evT % 2 ^ 64) ∧
      (∀ u q v, Ops.stmActive s.dev = true → r.due ≤ s.dev.stm.slot → r.unit = some u → Ops.unit? s.dev u = some q →
        q.stage = .done → q.verdict = some v →
        d.stm.rsps = rest ∧ Ops.unit? d u = none ∧
        ∃ b pre mid, d.out = pre ++ .stemFlit s.dev.stm.slot (Ops.laneWords (Ops.stmLanes s.dev) b) :: mid ++ s.dev.out ∧
          Ops.le b 0 8 % 16 = 2 ∧ Ops.bits (Ops.le b 0 8) 8 18 = r.tag % 2 ^ 18 ∧ Ops.le b 24 8 = r.evT % 2 ^ 64)) ∧
  (∀ (s : State) (a : AsyncUpd) (rest : List AsyncUpd) (r : UnitRec) (v : Verdict), Awake s →
    s.dev.stm.async = a :: rest → Ops.unit? s.dev a.unit = some r → r.stage = .done → r.verdict = some v → r.tenant < 64 →
    Does .stemAsyncSend s fun d =>
      ((∀ b ∈ a :: rest, b.off = false) → Ops.stmFree s.dev = false ∨ s.dev.stm.naks ≠ [] → d = s.dev) ∧
      ((∀ b ∈ a :: rest, b.off = false) → Ops.stmFree s.dev = true → s.dev.stm.naks = [] →
        Ops.unit? d a.unit = none ∧ d.stm.async = rest.filter (fun b => b.unit != a.unit) ∧
        Ops.ctr d Ctr.stmAsyncSent = (Ops.ctr s.dev Ctr.stmAsyncSent + 1) % 2 ^ 64 ∧
        ∃ b pre mid, d.out = pre ++ .stemFlit s.dev.stm.slot (Ops.laneWords (Ops.stmLanes s.dev) b) :: mid ++ s.dev.out ∧
          Ops.le b 0 8 % 16 = 3 ∧ Ops.bits (Ops.le b 0 8) 8 18 = a.tag % 2 ^ 18) ∧
      (a.off = true → Ops.unit? d a.unit = none ∧ d.stm.async = rest.filter (fun b => b.unit != a.unit) ∧
        Ops.ctr d Ctr.stmLinkDiscard = (Ops.ctr s.dev Ctr.stmLinkDiscard + 1) % 2 ^ 64 ∧ d.stm.slot = s.dev.stm.slot ∧
        d.stm.txSeq = s.dev.stm.txSeq)) ∧
  (∀ s : State, Awake s →
    Does .stemAsyncTimeout s fun d =>
      d.stm.async = s.dev.stm.async.filter (fun a => decide (Ops.now s.dev < a.limit)) ∧
      ((∀ a ∈ s.dev.stm.async, Ops.now s.dev < a.limit) → d = s.dev) ∧
      (∀ a r, s.dev.stm.async = [a] → a.limit ≤ Ops.now s.dev → Ops.unit? s.dev a.unit = some r → r.tenant < 64 →
        Ops.ctr d Ctr.stmAsyncDrop = (Ops.ctr s.dev Ctr.stmAsyncDrop + 1) % 2 ^ 64 ∧
        ∀ q, Ops.unit? d a.unit = some q → q.hasCtx = false)) ∧
  (∀ (s : State) (fn : Fn) (w : Word), Awake s → Arrives s.dev fn 0x00500010 true →
    Does (.stemWindowWrite fn w) s fun d =>
      (Ops.tenantOf fn ≠ 0 → d = s.dev) ∧
      (Ops.tenantOf fn = 0 → w.toNat % 128 < 20 ∨ 100 < w.toNat % 128 ∨ w.toNat % 128 < Ops.rd s.dev Reg.stmWinMinMin →
        Ops.rd d Reg.stmStatWinRej = 1 ∧ RegsOnly s.dev d [Reg.stmStatWinRej.key]) ∧
      (Ops.tenantOf fn = 0 → 20 ≤ w.toNat % 128 → w.toNat % 128 ≤ 100 → Ops.rd s.dev Reg.stmWinMinMin ≤ w.toNat % 128 →
        d = { s.dev with shadow := Ops.set s.dev.shadow Reg.stmWinCfgWindow.key (w.toNat % 128) })) ∧
  (∀ (s : State) (w : Nat), Awake s → Ops.find? s.dev.shadow Reg.stmWinCfgWindow.key = some w → w < 128 →
    Does .stemWindowHandover s fun d =>
      (Ops.stmFree s.dev = false ∨ Ops.stmQuiet s.dev = false → d = s.dev) ∧
      (Ops.stmFree s.dev = true → Ops.stmQuiet s.dev = true → Ops.rd d Reg.stmWinCfgWindow = w ∧
        Ops.find? d.shadow Reg.stmWinCfgWindow.key = none ∧ RegsKept s.dev d [Reg.stmWinCfgWindow.key] ∧
        ∃ b, d.out = .stemFlit s.dev.stm.slot (Ops.laneWords (Ops.stmLanes s.dev) b) :: s.dev.out ∧ Ops.le b 0 8 % 16 = 7 ∧
          Ops.le b 8 2 = w)))

/-! ### Trellis groups and Clasp pairs -/

/-- The members of a group (R373 to R375): a HELLO makes its member live, and none for 5 µs ends that, with the steering entries that name
it; the master is the lowest live eligible member once it has stood for 10 µs; a TIME exchange gives the offset to the master,
((t4 - t3) - (t2 - t1)) / 2 rounded towards zero, and TB_FAR beyond 1,000 ns; the offset of the master is 0. -/
def Obligations.TheGroupElectsItsMaster : Prop :=
  (∀ s : State, Awake s →
    Does .helloSend s fun d =>
      (Ops.inGroup s.dev = false ∨ Ops.moving s.dev = false → d = s.dev) ∧
      (Ops.inGroup s.dev = true → Ops.moving s.dev = true → ∀ l, l < 4 → Ops.linkState s.dev l = 4 → (Ops.link s.dev l).wait = [] →
        (Ops.link s.dev l).held.length < 128 →
        ∃ b, Out.trlFlit l (Ops.laneWords 8 b) ∈ d.out ∧ Ops.le b 0 8 % 16 = 4 ∧ Ops.byteAt b 8 = s.dev.straps.trlId % 256 ∧
          Ops.byteAt b 10 = Ops.curNum s.dev % 256 ∧ Ops.byteAt b 11 = Ops.rd s.dev Reg.trlStatLive % 256)) ∧
  (∀ (s : State) (k : Fin 4) (id epoch live : Nat) (el : Bool), Awake s → id < 8 →
    Does (.helloReceive (.trl k) id el epoch live) s fun d =>
      (Ops.inGroup s.dev = false ∨ id = s.dev.straps.trlId → d = s.dev) ∧
      (Ops.inGroup s.dev = true → id ≠ s.dev.straps.trlId →
        (∀ j, j < 8 → Ops.isLive d j = (Ops.isLive s.dev j || j == id)) ∧ (Ops.memberOf d id).seen = Ops.now s.dev ∧
        (Ops.memberOf d id).eligible = el ∧ (Ops.memberOf d id).epoch = epoch ∧ d.trl.cand = Ops.computedMaster d ∧
        (Ops.computedMaster d ≠ s.dev.trl.cand → Ops.rd d Reg.trlStatMasterValid = 0 ∧ d.trl.candT = Ops.now s.dev))) ∧
  (∀ (s : State) (id : Nat), Awake s → id < 8 →
    Does (.memberTimeout id) s fun d =>
      (Ops.isLive s.dev id = true → (Ops.memberOf s.dev id).seen + 5000 ≤ Ops.now s.dev →
        (∀ j, j < 8 → Ops.isLive d j = (Ops.isLive s.dev j && j != id)) ∧ (∀ e ∈ d.trl.steer, e.2 % 8 ≠ id) ∧
        (∀ i e, Ops.find? d.trl.steer i = some e → (i, e) ∈ s.dev.trl.steer) ∧ d.trl.cand = Ops.computedMaster d) ∧
      (Ops.isLive s.dev id = false ∨ Ops.now s.dev < (Ops.memberOf s.dev id).seen + 5000 → d = s.dev)) ∧
  (∀ (s : State) (m : Nat), Awake s → Ops.inGroup s.dev = true → Ops.computedMaster s.dev = some m → s.dev.trl.cand = some m →
    Ops.rdB s.dev Reg.trlStatMasterValid = false →
    Does .masterSettle s fun d =>
      (s.dev.trl.candT + 10000 ≤ Ops.now s.dev →
        Ops.rd d Reg.trlStatMaster = m ∧ Ops.rd d Reg.trlStatMasterValid = 1 ∧ d.trl.claims = [] ∧
        (m = s.dev.straps.trlId → Ops.rd d Reg.trlTbOffOffset = 0)) ∧
      (Ops.now s.dev < s.dev.trl.candT + 10000 → d = s.dev)) ∧
  (∀ s : State, Awake s →
    Does .timeExchange s fun d =>
      (Ops.inGroup s.dev = true → Ops.rdB s.dev Reg.trlStatMasterValid = true → Ops.isMaster s.dev = false →
        d.trl.t1 = some (Ops.now s.dev)) ∧
      (Ops.inGroup s.dev = false ∨ Ops.rdB s.dev Reg.trlStatMasterValid = false ∨ Ops.isMaster s.dev = true → d = s.dev)) ∧
  (∀ (s : State) (peer t1 : Nat), Awake s →
    Does (.timeRequestReceive peer t1) s fun d =>
      (Ops.inGroup s.dev = false ∨ Ops.isMaster s.dev = false → d = s.dev) ∧
      (∀ l, Ops.inGroup s.dev = true → Ops.isMaster s.dev = true → Ops.routeTo s.dev peer = some l → l < 4 →
        Ops.linkState s.dev l = 4 → (Ops.link s.dev l).wait = [] → (Ops.link s.dev l).held.length < 128 →
        ∃ b, d.out = .trlFlit l (Ops.laneWords 8 b) :: s.dev.out ∧ Ops.le b 0 8 % 16 = 12 ∧ Ops.le b 16 8 = t1 % 2 ^ 64 ∧
          Ops.le b 24 8 = Ops.now64 s.dev ∧ Ops.le b 32 8 = Ops.now64 s.dev)) ∧
  (∀ (s : State) (t2 t3 : Nat), Awake s →
    Does (.timeReply t2 t3) s fun d =>
      (∀ t1, s.dev.trl.t1 = some t1 → Ops.inGroup s.dev = true → Ops.isMaster s.dev = false →
        let o : Int := (((Ops.now s.dev : Int) - t3) - ((t2 : Int) - t1)).tdiv 2
        Ops.rd d Reg.trlTbOffOffset = Ops.uns 32 o ∧ (Ops.rd d Reg.trlStatTbFar = 1 ↔ 1000 < o.natAbs) ∧
        d.trl = { s.dev.trl with t1 := none } ∧ RegsKept s.dev d [Reg.trlTbOffOffset.key, Reg.trlStatTbFar.key]) ∧
      (s.dev.trl.t1 = none ∨ Ops.inGroup s.dev = false ∨ Ops.isMaster s.dev = true → d = s.dev))

/-- Hops, steering and floods (R378 to R383): an admitted unit holds a context that pins the carried epoch; without a reserved cycle, a
context or that epoch the arrival is answered with the default and counted in HOP_DEFAULT. A RESULT reaches the unit that waits for it: the
record of a steered unit or a default, or the margins of a deepened one, to which the link function applies here; one that comes late is
counted (that the margins come summed over the stages is the model's choice, log entry 99). The master records the first claimant of a steering entry and answers a later one with it; a set message
clears PROVISIONAL. A flood that misses learns nothing; it comes in bank order after the lookups that are due (R97). -/
def Obligations.HopsAndSteeringActOnTheirUnits : Prop :=
  (∀ (s : State) (k : Fin 4) (handle peer : Nat) (full : Bool) (msg : Bytes), Awake s →
    Does (.handoverReceive (.trl k) handle peer ⟨full, msg⟩) s fun d =>
      let h := Ops.hopOf msg
      let free := full = false ∧ Ops.recircK s.dev (Config.linkPipe k.val).val ≠ 0 ∧ 0 < Ops.ctxFree s.dev ∧
        (Ops.epoch? s.dev h.epoch).isSome = true
      (Ops.inGroup s.dev = false ∨ Ops.moving s.dev = false → d = s.dev) ∧
      (Ops.inGroup s.dev = true → Ops.moving s.dev = true → ¬free → d.units = s.dev.units ∧
        Ops.ctr d Ctr.trlHopDefault = (Ops.ctr s.dev Ctr.trlHopDefault + 1) % 2 ^ 64) ∧
      (Ops.inGroup s.dev = true → Ops.moving s.dev = true → free → h.steer = false →
        Ops.ctr d Ctr.trlHandoverRx = (Ops.ctr s.dev Ctr.trlHandoverRx + 1) % 2 ^ 64 ∧ d.nextUnit = s.dev.nextUnit + 1 ∧
        ∃ r, Ops.unit? d s.dev.nextUnit = some r ∧ r.hasCtx = true ∧ r.epoch = h.epoch ∧ r.pass = h.passes ∧ r.slot = h.slot ∧
          r.kind = .handover (peer % 8) k.val handle false)) ∧
  (∀ (s : State) (handle : Nat) (msg : Bytes), Awake s →
    Does (.resultReceive handle msg) s fun d =>
      (Ops.inGroup s.dev = false → d = s.dev) ∧
      (Ops.inGroup s.dev = true → Ops.find? s.dev.trl.away handle = none →
        Ops.ctr d Ctr.trlResultStale = (Ops.ctr s.dev Ctr.trlResultStale + 1) % 2 ^ 64 ∧ RegsCtrsOnly s.dev d [] [Ctr.trlResultStale]) ∧
      (∀ u r, Ops.inGroup s.dev = true → Ops.find? s.dev.trl.away handle = some u → Ops.unit? s.dev u = some r →
        Ops.find? d.trl.away handle = none ∧
        (r.hopped = false ∨ Ops.bit (Ops.verdictOf msg).flags 1 = true →
          Ops.unit? d u = some { r with verdict := some (Ops.verdictOf msg), stage := .inferred } ∧
          { d with units := s.dev.units, trl := s.dev.trl } = s.dev) ∧
        (r.hopped = true → Ops.bit (Ops.verdictOf msg).flags 1 = false →
          ∃ q : UnitRec, Ops.unit? d u = some { r with res := q.res, flags := q.flags } ∧
            ∀ m e, Ops.unitModel s.dev r = some m → m.ens = some e → m.slotSec.scoreSrc = 0 →
              let x := Esp.link e (Ops.tab e.k fun i => Ops.sgn 48 (Ops.le msg (16 + 6 * i) 6))
              q.res = (match x.score with | some p => PassRes.score x.cls p | none => .none)))) ∧
  (∀ (s : State) (peer i : Nat), Awake s → i < 2 ^ 20 →
    Does (.steerClaimReceive peer i) s fun d =>
      (Ops.inGroup s.dev = false ∨ Ops.isMaster s.dev = false → d = s.dev) ∧
      (Ops.inGroup s.dev = true → Ops.isMaster s.dev = true → Ops.bit (Ops.getD s.dev.trl.steer i 0) 3 = false →
        Ops.getD d.trl.steer i 0 = peer % 8 + 8 ∧ ∀ j, j ≠ i → Ops.find? d.trl.steer j = Ops.find? s.dev.trl.steer j) ∧
      (Ops.inGroup s.dev = true → Ops.isMaster s.dev = true → Ops.bit (Ops.getD s.dev.trl.steer i 0) 3 = true →
        d.trl.steer = s.dev.trl.steer ∧ Ops.ctr d Ctr.trlClaimLost = (Ops.ctr s.dev Ctr.trlClaimLost + 1) % 2 ^ 64)) ∧
  (∀ (s : State) (i owner : Nat), Awake s → i < 2 ^ 20 →
    Does (.steerSetReceive i owner) s fun d =>
      (Ops.inGroup s.dev = true → Ops.find? d.trl.steer i = some (owner % 8 + 8) ∧
        (∀ j, j ≠ i → Ops.find? d.trl.steer j = Ops.find? s.dev.trl.steer j) ∧ { d with trl := s.dev.trl } = s.dev) ∧
      (Ops.inGroup s.dev = false → d = s.dev)) ∧
  (∀ (s : State) (w : Word), Awake s → Arrives s.dev 0 0x01200050 true →
    Does (.steerEntrySnapshot w) s fun d =>
      let e := Ops.getD s.dev.trl.steer (w.toNat % 2 ^ 20) 0
      Ops.rd d Reg.trlSteerSelIndex = w.toNat % 2 ^ 20 ∧ Ops.rd d Reg.trlSteerDataOwner = e % 8 ∧
      (Ops.rd d Reg.trlSteerDataValid = 1 ↔ Ops.bit e 3 = true) ∧ (Ops.rd d Reg.trlSteerDataProvisional = 1 ↔ Ops.bit e 4 = true) ∧
      RegsOnly s.dev d [Reg.trlSteerSelIndex.key, Reg.trlSteerDataOwner.key, Reg.trlSteerDataValid.key,
        Reg.trlSteerDataProvisional.key]) ∧
  (∀ (s : State) (peer : Nat) (msg : Bytes), Awake s → Ops.inGroup s.dev = true → Ops.gateOn s.dev 7 = true → NoneDue s.dev →
    Does (.floodReceive peer msg) s fun d =>
      Ops.ctr d Ctr.trlFloodRx = (Ops.ctr s.dev Ctr.trlFloodRx + 1) % 2 ^ 64 ∧
      (Ops.lookup s.dev (Ops.slice msg 0 40) = none → RegsCtrsOnly s.dev d [] [Ctr.trlFloodRx]) ∧
      (∀ i e, Ops.lookup s.dev (Ops.slice msg 0 40) = some i → Ops.ent? s.dev i = some e → Ops.standby s.dev = false → EntLands s.dev i →
        Ops.ctr d Ctr.trlFloodHit = (Ops.ctr s.dev Ctr.trlFloodHit + 1) % 2 ^ 64 ∧
        Ops.ent? d i = some { e with lastSeen := Ops.seenAt s.dev (Ops.le msg 40 8 + 1600) } ∧
        (∀ j, j ≠ i → Ops.ent? d j = Ops.ent? s.dev j) ∧
        (Ops.sideOf d i).pkts = min ((Ops.sideOf s.dev i).pkts + 1) 0xFFFFFFFF ∧
        (Ops.sideOf d i).cache = (Ops.sideOf s.dev i).cache))

/-- The loss of a Clasp partner (R388, R391): a HEARTBEAT that reports HOLD to FAILED, or none for 5 µs, sets PARTNER_LOST, and with AUTO
takeover begins; without it `CLP_CTL.TAKEOVER` begins it. The survivor becomes ACTIVE and takes every flow group; its epochs and its
flow table stay.
Mirroring and joining (R389, R390, R392, R455): each change that waits goes to the partner once, oldest first, and none in HANDOVER (R406); a
delta that arrives takes effect at its index, with its lag in CLP_LAG and LAG_EXCEEDED beyond 20 µs; the partner's chain heads are kept. A JOIN that does not fit
sets JOIN_FAIL; after one that fits the joining device takes the survivor's epoch number with an empty flow table, the survivor's sweep
sends every bucket, and both are PAIRED. -/
def Obligations.PairsMirrorJoinAndTakeOver : Prop :=
  (
  (∀ s : State, Awake s →
    Does .heartbeatSend s fun d =>
      (Ops.gateOn s.dev 19 = false ∨ Ops.moving s.dev = false → d = s.dev) ∧
      (∀ l, l = 4 ∨ l = 5 → Ops.gateOn s.dev 19 = true → Ops.moving s.dev = true → Ops.linkState s.dev l = 4 →
        (Ops.link s.dev l).wait = [] → (Ops.link s.dev l).held.length < 128 →
        ∃ b, Out.clpFlit (l - 4) (Ops.laneWords 8 b) ∈ d.out ∧ Ops.le b 0 8 % 16 = 13 ∧ Ops.byteAt b 8 = s.dev.straps.trlId % 256 ∧
          Ops.byteAt b 9 = Ops.rd s.dev Reg.clpStatRole % 256 ∧ Ops.byteAt b 10 = Ops.fltState s.dev % 256 ∧
          Ops.byteAt b 11 = Ops.curNum s.dev % 256)) ∧
  (∀ (s : State) (c : Instr) (role flt epoch : Nat), Awake s → Ops.gateOn s.dev 19 = true → Ops.clpPaired s.dev = true →
    Ops.rdB s.dev Reg.clpStatPartnerLost = false →
    (c = .heartbeatReceive role flt epoch ∧ 3 ≤ flt ∧ flt ≤ 6) ∨
      (c = .partnerTimeout ∧ ∃ t, s.dev.clp.hb = some t ∧ t + 5000 ≤ Ops.now s.dev) →
    Does c s fun d =>
      Ops.rd d Reg.clpStatPartnerLost = 1 ∧
      (Ops.rdB s.dev Reg.clpCfgAuto = true → Ops.clpState d = 3 ∧ d.clp.dirty = [] ∧ d.clp.join = none) ∧
      (Ops.rdB s.dev Reg.clpCfgAuto = false → Ops.clpState d = Ops.clpState s.dev ∧ d.clp.dirty = s.dev.clp.dirty) ∧
      RegsKept s.dev d [Reg.clpStatPartnerLost.key, Reg.clpStatState.key] ∧ d.flw = s.dev.flw ∧ d.epochs = s.dev.epochs) ∧
  (∀ (s : State) (role flt epoch : Nat), Awake s → Ops.gateOn s.dev 19 = true → flt < 3 →
    Does (.heartbeatReceive role flt epoch) s fun d => d = { s.dev with clp := { s.dev.clp with hb := some (Ops.now s.dev) } }) ∧
  (∀ s : State, Awake s → Ops.clpPaired s.dev = false ∨ (∀ t, s.dev.clp.hb = some t → Ops.now s.dev < t + 5000) →
    Does .partnerTimeout s fun d => d = s.dev) ∧
  (∀ s : State, Awake s → Arrives s.dev 0 0x01300008 true →
    Does .takeover s fun d =>
      (Ops.clpPaired s.dev = true → Ops.rdB s.dev Reg.clpStatPartnerLost = true → Ops.clpState d = 3 ∧
        d.clp = { s.dev.clp with dirty := [], join := none } ∧ RegsKept s.dev d [Reg.clpStatState.key]) ∧
      (Ops.clpPaired s.dev = false ∨ Ops.rdB s.dev Reg.clpStatPartnerLost = false → d = s.dev)) ∧
  (∀ s : State, Awake s →
    Does .takeoverDone s fun d =>
      (Ops.clpState s.dev = 3 → Ops.rd d Reg.clpStatRole = 1 ∧ Ops.rd d Reg.clpOwnMask = 0xFFFF ∧ Ops.clpState d = 4 ∧
        Ops.rd d Reg.clpStatTakeoverDone = 1 ∧ Ops.rd64 d Reg.clpTakeoverLoNs Reg.clpTakeoverHiNs = Ops.now64 s.dev ∧
        Ops.ctr d Ctr.clpTakeover = (Ops.ctr s.dev Ctr.clpTakeover + 1) % 2 ^ 64 ∧ d.epochs = s.dev.epochs ∧ d.flw = s.dev.flw ∧
        (s.dev.grf.partDl.isSome = true → d.grf.cur = none) ∧ (s.dev.grf.partDl = none → d.grf = s.dev.grf)) ∧
      (Ops.clpState s.dev ≠ 3 → d = s.dev))) ∧
  (
  (∀ s : State, Awake s →
    Does .mirrorDeltaSend s fun d =>
      (∀ x rest, (Ops.clpLink s.dev).isSome = true → Ops.gateOn s.dev 19 = true → Ops.fltState s.dev ≠ 4 → s.dev.clp.dirty = x :: rest →
        d.clp.dirty = rest ∧ d.flw = s.dev.flw ∧
        (x.data.isSome = true → Ops.ctr d Ctr.clpEntryTx = (Ops.ctr s.dev Ctr.clpEntryTx + 1) % 2 ^ 64) ∧
        (x.data = none → Ops.ctr d Ctr.clpStateTx = (Ops.ctr s.dev Ctr.clpStateTx + 1) % 2 ^ 64)) ∧
      (Ops.clpLink s.dev = none ∨ Ops.gateOn s.dev 19 = false ∨ Ops.fltState s.dev = 4 ∨ s.dev.clp.dirty = [] → d = s.dev)) ∧
  (∀ (s : State) (i t : Nat) (b side : Bytes), Awake s → Ops.gateOn s.dev 19 = true → Ops.clpPaired s.dev = true → NoneDue s.dev →
    EntLands s.dev i →
    Does (.mirrorDeltaApply (.entry i b side t)) s fun d =>
      let lag := Ops.now s.dev - t
      Ops.ent? d i = (if (Ops.entOfBytes b).valid then some (Ops.entOfBytes b) else none) ∧
      (∀ j, j ≠ i → Ops.ent? d j = Ops.ent? s.dev j) ∧ Ops.rd d Reg.clpLagCur = min lag 65535 ∧
      Ops.ctr d Ctr.clpDeltaRx = (Ops.ctr s.dev Ctr.clpDeltaRx + 1) % 2 ^ 64 ∧
      (20000 < lag → Ops.rd d Reg.clpStatLagExceeded = 1 ∧
        Ops.ctr d Ctr.clpLagExceed = (Ops.ctr s.dev Ctr.clpLagExceed + 1) % 2 ^ 64) ∧
      RegsKept s.dev d [Reg.clpLagCur.key, Reg.clpLagMax.key, Reg.clpStatLagExceeded.key] ∧
      (∀ x, (x < Ops.entAddr s.dev i ∨ Ops.entAddr s.dev i + 128 ≤ x) → (x < Ops.sideAddr s.dev i ∨ Ops.sideAddr s.dev i + 16 ≤ x) →
        Ops.byteGet d.mem.cells x = Ops.byteGet s.dev.mem.cells x)) ∧
  (∀ (s : State) (boot resets interval tenant chain count : Nat) (val : Bytes), Awake s → Ops.gateOn s.dev 19 = true →
    Does (.chainHeadReceive boot resets interval tenant chain count val) s fun d =>
      Ops.find? d.clp.heads (Ops.chainKey tenant chain) = some ⟨boot, resets, interval, count, val⟩ ∧
      { d with clp := { d.clp with heads := s.dev.clp.heads } } = s.dev) ∧
  (∀ (s : State) (p : JoinInfo), Awake s → Arrives s.dev 0 0x01300008 true → Ops.clpState s.dev = 0 ∨ Ops.clpState s.dev = 4 →
    (Ops.clpLink s.dev).isSome = true →
    Does (.join p) s fun d =>
      (Ops.joinFits s.dev p = true → d = { s.dev with clp := { s.dev.clp with join := some (p.survivor, p.epoch) } }) ∧
      (Ops.joinFits s.dev p = false → Ops.rd d Reg.clpStatJoinFail = 1 ∧ Signals s.dev d [Reg.clpStatJoinFail.key] [])) ∧
  (∀ (s : State) (surv : Bool) (e : Nat), Awake s → s.dev.clp.join = some (surv, e) → Ops.clpPaired s.dev = false →
    Ops.moving s.dev = true →
    Does .joinBoundary s fun d =>
      Ops.clpState d = 1 ∧ Ops.rd d Reg.clpSyncDone = 0 ∧ d.clp.sync = 0 ∧ d.clp.dirty = [] ∧
      (surv = true → d.flw = s.dev.flw ∧ d.epochs = s.dev.epochs) ∧
      (surv = false → d.flw.ents = [] ∧ (s.dev.epochs ≠ [] → Ops.curNum d = e))) ∧
  (∀ (s : State) (surv : Bool) (e : Nat), Awake s → s.dev.clp.join = some (surv, e) → Ops.clpState s.dev = 1 →
    Does .syncSweepVisit s fun d =>
      (surv = true → s.dev.clp.sync < Ops.buckets s.dev + 4096 → d.clp.sync = s.dev.clp.sync + 1 ∧ Ops.clpState d = 1 ∧
        (∀ w x, w < 4 → Ops.ent? s.dev (4 * s.dev.clp.sync + w) = some x → ∃ y ∈ d.clp.dirty, y.idx = 4 * s.dev.clp.sync + w ∧
          y.data = some (Ops.entBytes x ++ Ops.sideBytes (Ops.sideOf s.dev (4 * s.dev.clp.sync + w))))) ∧
      (surv = true → Ops.buckets s.dev + 4096 ≤ s.dev.clp.sync → s.dev.clp.dirty = [] →
        Ops.clpState d = 2 ∧ Ops.rd d Reg.clpSyncDone = 1 ∧ Ops.rd d Reg.clpStatRole = 1 ∧ d.clp.join = none) ∧
      (surv = false → Ops.rdB s.dev Reg.clpCfgMode = false → Ops.clpState d = 2 ∧ Ops.rd d Reg.clpStatRole = 2 ∧ d.clp.join = none) ∧
      d.flw = s.dev.flw ∧ d.epochs = s.dev.epochs))

/-! ### DMA and memory -/

/-- The channels (R346, R347, R351): ENABLE takes an IDLE channel to RUN with HEAD = TAIL = 0; RESUME takes one that is PAUSED or HALTED
to RUN; RESET, and ENABLE written 0, take any to IDLE with its descriptors abandoned and their contexts released. TAIL moves by its owner's
doorbell, or by a core's on a channel of SPR's, and a write that leaves the fill unchanged has no effect. Other channels stay. -/
def Obligations.ChannelsFollowTheirControl : Prop :=
  (∀ (s : State) (c : Chn), Awake s → Arrives s.dev 0 (Ops.chAddr c 0x14) true →
    Does (.channelEnable c) s fun d =>
      Ops.rd d (Reg.dmaChCtlEnable c) = 1 ∧
      (Ops.chState s.dev c = 0 → Ops.chState d c = 1 ∧ Ops.rd d (Reg.dmaChHeadHead c) = 0 ∧ Ops.rd d (Reg.dmaChTailTail c) = 0 ∧
        (Ops.chan d c).flight = []) ∧
      (Ops.chState s.dev c ≠ 0 → RegsOnly s.dev d [(Reg.dmaChCtlEnable c).key]) ∧
      ∀ k, k ≠ c.val → Ops.find? d.chans k = Ops.find? s.dev.chans k) ∧
  (∀ (s : State) (c : Chn) (i : Instr), Awake s → Arrives s.dev 0 (Ops.chAddr c 0x14) true → i = .channelDisable c ∨ i = .channelReset c →
    Does i s fun d =>
      Ops.chState d c = 0 ∧ Ops.rd d (Reg.dmaChHeadHead c) = 0 ∧ Ops.rd d (Reg.dmaChTailTail c) = 0 ∧ Ops.chan d c = default ∧
      (i = .channelDisable c → Ops.rd d (Reg.dmaChCtlEnable c) = 0) ∧
      (∀ x ∈ (Ops.chan s.dev c).flight, ∀ u, x.ctx = some u → Ops.unit? d u = none) ∧
      (∀ k, k ≠ c.val → Ops.find? d.chans k = Ops.find? s.dev.chans k) ∧ d.mem = s.dev.mem ∧
      RegsKept s.dev d [(Reg.dmaChCtlEnable c).key, (Reg.dmaChStatState c).key, (Reg.dmaChHeadHead c).key,
        (Reg.dmaChTailTail c).key]) ∧
  (∀ (s : State) (c : Chn), Awake s → Arrives s.dev 0 (Ops.chAddr c 0x14) true →
    Does (.channelResume c) s fun d =>
      (Ops.chState s.dev c = 2 ∨ Ops.chState s.dev c = 3 → Ops.chState d c = 1 ∧ (Ops.chan d c).bad = false ∧
        (Ops.chan d c).flight = (Ops.chan s.dev c).flight ∧ Ops.rd d (Reg.dmaChHeadHead c) = Ops.rd s.dev (Reg.dmaChHeadHead c) ∧
        ∀ k, k ≠ c.val → Ops.find? d.chans k = Ops.find? s.dev.chans k) ∧
      (Ops.chState s.dev c < 2 → d = s.dev)) ∧
  (∀ (s : State) (i : Instr) (fn : Fn) (core : CoreNo) (c : Chn) (tail : Nat), Awake s → tail < 65536 →
    (i = .tailDoorbell fn c tail ∧ Arrives s.dev fn (Ops.chAddr c 0x0C) true ∧ Ops.reachesChan s.dev fn c = true) ∨
      (i = .doorbellDmaChannel core c tail ∧ Ops.coreRuns s.dev core = true ∧ Ops.gateOn s.dev 16 = true ∧
        Ops.rd s.dev (Reg.dmaChOwnerOwner c) = 64) →
    Does i s fun d =>
      let n := Ops.ringSize s.dev c
      let fill := fun t => (t % n + n - Ops.rd s.dev (Reg.dmaChHeadHead c) % n) % n
      (fill tail = fill (Ops.rd s.dev (Reg.dmaChTailTail c)) → d = s.dev) ∧
      (fill tail ≠ fill (Ops.rd s.dev (Reg.dmaChTailTail c)) →
        Ops.rd d (Reg.dmaChTailTail c) = tail ∧ RegsOnly s.dev d [(Reg.dmaChTailTail c).key])) ∧
  (∀ (s : State) (fn : Fn) (c : Chn) (tail : Nat), Awake s → Ops.reachesChan s.dev fn c = false →
    Does (.tailDoorbell fn c tail) s fun d => d = s.dev) ∧
  (∀ (s : State) (core : CoreNo) (c : Chn) (tail : Nat), Awake s → Ops.rd s.dev (Reg.dmaChOwnerOwner c) ≠ 64 →
    Does (.doorbellDmaChannel core c tail) s fun d => d = s.dev)

/-- The data operations (R352 to R355, R357): COPY moves LEN bytes, GATHER the elements that its table names in order, PACK and TRANSPOSE
write their formats at DST, NOP moves nothing, LABEL delivers its labels, EXCEPT posts its buffer; a refused descriptor gives its status
and writes nothing; a host read that fails is retried, then BUS_ERR. A destination in device memory takes exactly the bytes written. -/
def Obligations.DescriptorsMoveTheirData : Prop :=
  (∀ (s : State) (i : Instr) (c : Chn) (k : Nat) (x : Desc) (src : Option Bytes) (p : Nat) (b o : Bytes), Awake s →
    Starts s.dev c k x.op x → Admitted s.dev c k x →
    (i = .copy c src p ∧ x.op = 1 ∧ Reads s.dev x.srcDev x.src x.len src b ∧ o = b) ∨
      (i = .pack c src p ∧ x.op = 3 ∧ Reads s.dev x.srcDev x.src x.len src b ∧ o = Ops.packed x b) ∨
      (i = .transpose c src p ∧ x.op = 4 ∧ Reads s.dev x.srcDev x.src ((x.count - 1) * x.stride + x.recLen) src b ∧
        o = Ops.transposed x b) ∨
      (i = .nop c ∧ x.op = 0 ∧ o = []) →
    Does i s fun d =>
      Ran s.dev d c k x 0 o.length ∧
      (x.dstDev = false → o ≠ [] → d.out.head? = some (.hostWrite x.dst o)) ∧ (x.dstDev = false ∨ o = [] → d.mem = s.dev.mem) ∧
      (x.dstDev = true → PlainMem s.dev x.dst o.length → Stored s.dev d x.dst o) ∧ d.epochs = s.dev.epochs ∧ d.units = s.dev.units) ∧
  (∀ (s : State) (c : Chn) (k : Nat) (x : Desc) (src aux : Option Bytes) (a b : Bytes) (p : Nat), Awake s → Starts s.dev c k 2 x →
    Admitted s.dev c k x → Reads s.dev x.auxDev x.aux (4 * x.count) aux a →
    Reads s.dev x.srcDev x.src (x.srcCount * x.len) src b →
    Does (.gather c src aux p) s fun d =>
      let o := (List.range x.count).flatMap fun j => (b.drop (Ops.le a (4 * j) 4 * x.len)).take x.len
      ((∀ j, j < x.count → Ops.le a (4 * j) 4 < x.srcCount) → Ran s.dev d c k x 0 o.length ∧
        (x.dstDev = false → d.out.head? = some (.hostWrite x.dst o) ∧ d.mem = s.dev.mem) ∧
        (x.dstDev = true → PlainMem s.dev x.dst o.length → Stored s.dev d x.dst o)) ∧
      (x.srcCount ≤ Ops.le a 0 4 → Ran s.dev d c k x 1 0 ∧ d.mem = s.dev.mem)) ∧
  (∀ (s : State) (c : Chn) (k : Nat) (x : Desc) (src : Option Bytes) (b : Bytes), Awake s → Starts s.dev c k 7 x →
    Admitted s.dev c k x → Reads s.dev x.srcDev x.src x.len src b →
    Does (.label c src) s fun d => Ran s.dev d c k x 0 0 ∧ d.mem = s.dev.mem ∧ d.epochs = s.dev.epochs) ∧
  (∀ (s : State) (c : Chn) (k : Nat) (x : Desc), Awake s → Starts s.dev c k 8 x → Admitted s.dev c k x →
    Does (.except c) s fun d =>
      (Ops.chan d c).flight = (Ops.chan s.dev c).flight.set k { x with started := true, posted := true } ∧ d.mem = s.dev.mem ∧ d.out = s.dev.out) ∧
  (∀ (s : State) (i : Instr) (c : Chn) (k st p : Nat) (x : Desc) (src aux : Option Bytes) (f : Option PassFault), Awake s →
    Starts s.dev c k x.op x → Ops.descRefused (Ops.descStart s.dev c k) c x = some st →
    (i = .nop c ∧ x.op = 0) ∨ (i = .copy c src p ∧ x.op = 1) ∨ (i = .gather c src aux p ∧ x.op = 2) ∨
      (i = .pack c src p ∧ x.op = 3) ∨ (i = .transpose c src p ∧ x.op = 4) ∨ (i = .job c src f ∧ x.op = 5) ∨
      (i = .replay c src ∧ x.op = 6) ∨ (i = .label c src ∧ x.op = 7) ∨ (i = .except c ∧ x.op = 8) →
    Does i s fun d =>
      (Ops.chan d c).flight = (Ops.chan s.dev c).flight.set k { x with started := true, status := some st, done := 0 } ∧ d.mem = s.dev.mem ∧
      d.out = s.dev.out ∧ d.units = s.dev.units) ∧
  (∀ (s : State) (c : Chn) (k p : Nat) (x : Desc), Awake s → Starts s.dev c k 1 x → Admitted s.dev c k x → x.srcDev = false →
    Does (.copy c none p) s fun d =>
      (0 < Ops.rd s.dev Reg.dmaRetryCount →
        ∃ e, (Ops.chan d c).flight = (Ops.chan s.dev c).flight.set k { x with started := true, tries := 1, waiting := true, energy := e }) ∧
      (Ops.rd s.dev Reg.dmaRetryCount = 0 → Ran s.dev d c k x 4 0))

/-- The life of a descriptor (R346, R349, R351, R356 to R359): it is fetched from its slot while fewer than 4 are in flight, and its
status word is written, oldest first, with DONE and DONE_BYTES, before HEAD passes it; BUS_ERR and SKIPPED halt the channel; a fetch
that still fails after its retries halts it with FETCH_ERR. A job runs on the features of its record and gives its verdict, of its slot and
epoch, with its score; one without a context gives the default verdict with DEFAULT_USED; a replay gives one run of K × 8 bytes per record; an exception record fills the oldest posted buffer, or is counted where there is none. -/
def Obligations.DescriptorsCompleteInOrder : Prop :=
  (∀ (s : State) (c : Chn) (b : Bytes), Awake s → Ops.dmaRuns s.dev = true → Ops.chState s.dev c = 1 →
    (Ops.chan s.dev c).pausing = false → (Ops.chan s.dev c).waiting = false → (Ops.chan s.dev c).flight.length < 4 →
    Ops.takesWork s.dev c = true → (∀ x ∈ (Ops.chan s.dev c).flight, x.status = none) →
    (Ops.chan s.dev c).fetch ≠ Ops.rd s.dev (Reg.dmaChTailTail c) % Ops.ringSize s.dev c →
    Ops.rdB s.dev (Reg.dmaChRingCfgDev c) = false → b.length = 64 →
    Does (.descriptorFetch c (some b)) s fun d =>
      (Ops.chan d c).fetch = ((Ops.chan s.dev c).fetch + 1) % Ops.ringSize s.dev c ∧
      (∃ x, (Ops.chan d c).flight = (Ops.chan s.dev c).flight ++ [x] ∧ x.raw = b ∧ x.idx = (Ops.chan s.dev c).fetch ∧
        x.t = Ops.now s.dev ∧ x.status = none ∧ x.tries = 0 ∧
        (Ops.byteAt b 26 ≠ 5 → Ops.byteAt b 26 ≠ 6 → x.ctx = none ∧ d.units = s.dev.units)) ∧
      d.regs = s.dev.regs ∧ d.mem = s.dev.mem) ∧
  (∀ (s : State) (c : Chn), Awake s → Ops.dmaRuns s.dev = false ∨ Ops.chState s.dev c ≠ 1 ∨ 4 ≤ (Ops.chan s.dev c).flight.length →
    ∀ host, Does (.descriptorFetch c host) s fun d => d = s.dev) ∧
  (∀ (s : State) (c : Chn) (x : Desc) (rest : List Desc) (st : Nat), Awake s → Ops.dmaRuns s.dev = true →
    Ops.chState s.dev c = 1 → (Ops.chan s.dev c).flight = x :: rest → x.status = some st → x.verd = none → x.ctx = none → x.outb = [] →
    x.posted = false → x.waiting = false → st < 256 → (Ops.chan s.dev c).pausing = false →
    (∀ y ∈ rest, y.ctx = none) → Ops.rdB s.dev (Reg.dmaChRingCfgDev c) = false → Ops.rd s.dev (Reg.dmaChOwnerOwner c) < 128 →
    Does (.descriptorComplete c) s fun d =>
      Ops.rd d (Reg.dmaChHeadHead c) = (x.idx + 1) % Ops.ringSize s.dev c % 65536 ∧ d.mem = s.dev.mem ∧ d.units = s.dev.units ∧
      (∃ w, .hostWrite (Ops.ringSlot s.dev c x.idx + 56) w ∈ d.out ∧ w.length = 8 ∧ Ops.byteAt w 0 = st ∧ Ops.byteAt w 1 = 1 ∧
        Ops.le w 4 4 = x.done % 2 ^ 32) ∧
      (st ≠ 0 → Ops.rd d (Reg.dmaChStatLast c) = st) ∧
      (st ≠ 4 → st ≠ 6 → Ops.chState d c = 1 ∧ (Ops.chan d c).flight = rest) ∧
      (st = 4 ∨ st = 6 → Ops.chState d c = 3 ∧ (Ops.chan d c).flight = [])) ∧
  (∀ (s : State) (c : Chn) (ok : Bool), Awake s → Ops.dmaRuns s.dev = true → Ops.chState s.dev c = 1 →
    (Ops.chan s.dev c).waiting = true →
    Does (.busRetry c ok) s fun d =>
      Ops.ctr d Ctr.dmaBusRetry = (Ops.ctr s.dev Ctr.dmaBusRetry + 1) % 2 ^ 64 ∧
      (ok = true → (Ops.chan d c) = { (Ops.chan s.dev c) with waiting := false } ∧ Ops.chState d c = 1) ∧
      (ok = false → (Ops.chan s.dev c).tries < Ops.rd s.dev Reg.dmaRetryCount →
        (Ops.chan d c) = { (Ops.chan s.dev c) with tries := (Ops.chan s.dev c).tries + 1 } ∧ Ops.chState d c = 1) ∧
      (ok = false → Ops.rd s.dev Reg.dmaRetryCount ≤ (Ops.chan s.dev c).tries →
        Ops.chState d c = 3 ∧ Ops.rd d (Reg.dmaChStatFetchErr c) = 1)) ∧
  (∀ (s : State) (c : Chn) (k : Nat) (x : Desc) (src : Option Bytes) (f : Option PassFault), Awake s → Starts s.dev c k 5 x →
    Admitted s.dev c k x → x.ctx = none → Ops.gateOn s.dev 13 = true →
    Does (.job c src f) s fun d =>
      ∃ y v, (Ops.chan d c).flight[k]? = some y ∧ y.status = some 0 ∧ y.done = 32 ∧ y.verd = some v ∧ v.flags = 2 ∧
        v.tag = Ops.bits x.tag 0 18 ∧ v.slot = x.slot ∧ v.epoch = Ops.curNum s.dev ∧ d.units = s.dev.units ∧ d.mem = s.dev.mem) ∧
  (∀ (s : State) (c : Chn) (k u : Nat) (x : Desc) (r : UnitRec) (src : Option Bytes) (b : Bytes), Awake s →
    Starts s.dev c k 5 x → Admitted s.dev c k x → x.ctx = some u → Ops.unit? s.dev u = some r → r.expired = false →
    Ops.gateOn s.dev 13 = true → Reads s.dev x.srcDev x.src x.len src b →
    Does (.job c src none) s fun d =>
      ∃ y v q, (Ops.chan d c).flight[k]? = some y ∧ y.status = some 0 ∧ y.done = 32 ∧ y.verd = some v ∧
        v.tag = Ops.bits x.tag 0 18 ∧ v.slot = r.slot ∧ v.epoch = r.epoch ∧ Ops.unit? d u = some q ∧ q.feats = Ops.jobFeats x b ∧
        (∀ cls score, q.res = .score cls score → Ops.missing d q u = false → v.score = score)) ∧
  (∀ (s : State) (c : Chn) (k u : Nat) (x : Desc) (r : UnitRec) (e : Ensemble) (src : Option Bytes) (b : Bytes), Awake s →
    Starts s.dev c k 6 x → Admitted s.dev c k x → x.ctx = some u → Ops.unit? s.dev u = some r → r.expired = false → r.failed = false →
    Ops.replayEns s.dev x = some e → e.link ≠ 4 → 0 < e.k → x.auxDev = false → Ops.gateOn s.dev 10 = true →
    Reads s.dev x.srcDev x.src (x.blocks * e.feats.length * 264) src b →
    Does (.replay c src) s fun d =>
      Ran s.dev d c k x 0 (8 * e.k * x.recs) ∧
      ∃ o, d.out.head? = some (.hostWrite x.aux o) ∧ o.length = 8 * e.k * x.recs) ∧
  (∀ (s : State) (core : CoreNo) (t : Task) (since u : Nat) (r : UnitRec), Awake s →
    (Ops.core s.dev core).claimed = some (t, since) → t.cls = 0 → t.arg0 = u → Ops.unit? s.dev u = some r →
    Does (.exceptionRecord core) s fun d =>
      (Ops.gateOn s.dev 16 = false ∨ Ops.ringChan s.dev r.tenant 3 = none → RegsCtrsOnly s.dev d [] [Ctr.dmaExcNobuf] ∧
        Ops.ctr d Ctr.dmaExcNobuf = (Ops.ctr s.dev Ctr.dmaExcNobuf + 1) % 2 ^ 64) ∧
      (∀ c x rest, Ops.gateOn s.dev 16 = true → Ops.ringChan s.dev r.tenant 3 = some c → (Ops.chan s.dev c).flight = x :: rest →
        x.posted = true → x.status = none → x.dstDev = false → 128 ≤ x.len →
        ∃ y b, (Ops.chan d c).flight = y :: rest ∧ y.status = some 0 ∧ y.posted = false ∧ y.done = b.length ∧ b.length ≤ x.len ∧
          d.out = .hostWrite x.dst b :: s.dev.out ∧ Ops.le b 16 8 = t.arg1 % 2 ^ 64))
/-- BAR2 (R318, R326, R327): a write of the PF that it can reach stores exactly its bytes, at the same address below 0xF_0000_0000 and in
the 4 GiB block of `MEM_BAR2_WIN` above; a read returns them, or poisoned data of a lost unit; one that cannot be reached is a
bus error that changes no memory. -/
def Obligations.Bar2ReachesDeviceMemory : Prop :=
  (∀ (s : State) (off : Nat) (b : Bytes), Awake s → s.dev.hif.perst = false → b ≠ [] → off + b.length ≤ 0x1000000000 →
    off + b.length ≤ 0xF00000000 ∨ 0xF00000000 ≤ off →
    Does (.bar2Write off b) s fun d =>
      (Ops.bar2Fail s.dev off b.length = none → PlainMem s.dev (Ops.bar2Addr s.dev off) b.length →
        Stored s.dev d (Ops.bar2Addr s.dev off) b ∧ d.regs = s.dev.regs ∧ d.flw = s.dev.flw) ∧
      (∀ i cause, Ops.bar2Fail s.dev off b.length = some (i, cause) →
        d.mem = s.dev.mem ∧ d.out = .busError 0 off :: s.dev.out ∧ d.flw = s.dev.flw)) ∧
  (∀ (s : State) (off n : Nat), Awake s → s.dev.hif.perst = false → 0 < n → off + n ≤ 0x1000000000 →
    off + n ≤ 0xF00000000 ∨ 0xF00000000 ≤ off →
    Does (.bar2Read off n) s fun d =>
      (∀ b, Ops.bar2Fail s.dev off n = none → Reads s.dev true (Ops.bar2Addr s.dev off) n none b →
        d.out = .read 0 off (some (Ops.leNat b)) :: s.dev.out ∧ d.mem = s.dev.mem) ∧
      (Ops.bar2Fail s.dev off n = none → s.dev.mem.blk = [] → Ops.unitGone s.dev (Ops.unitAt s.dev (Ops.bar2Addr s.dev off)) = true →
        d.out = .poisoned off :: s.dev.out) ∧
      (∀ i cause, Ops.bar2Fail s.dev off n = some (i, cause) → d.out = .busError 0 off :: s.dev.out ∧ d.mem = s.dev.mem)) ∧
  (∀ off d, off < 0xF00000000 → Ops.bar2Addr d off = off) ∧
  (∀ off d, 0xF00000000 ≤ off → Ops.bar2Addr d off = Ops.rd d Reg.memBar2WinBlock * 2 ^ 32 + off % 2 ^ 32)

/-- Start-up, scrubbing, repair and loss of memory (R328 to R334, R402): the media are zeroed once each, SRAM first; a scrubber visits its
unit's blocks in ascending order and wraps; a repair that was started takes a spare or, where none is left, sets REPAIR_FAIL (that the
command tells of an HBM repair whether it found one is the model's form, log entry 153); a lost unit leaves `MEM_STAT`, and FLT
starts a layout graft, or holds the device for a die, or degrades it for a stack. -/
def Obligations.MemoryUnitsStartAndFail : Prop :=
  (∀ s : State, Awake s →
    Does .sramInit s fun d =>
      (Ops.gateOn s.dev 15 = true → Ops.rdB s.dev Reg.memStatSramInit = false → Ops.rd d Reg.memStatSramInit = 1 ∧
        (∀ x, x < 0x200000000 → Ops.byteGet d.mem.cells x = 0) ∧ MemKept s.dev d 0 0x200000000 ∧
        RegsKept s.dev d [Reg.memStatSramInit.key, Reg.memInjCtlArm.key]) ∧
      (Ops.gateOn s.dev 15 = false ∨ Ops.rdB s.dev Reg.memStatSramInit = true → d = s.dev)) ∧
  (∀ (s : State) (f : Nat), Awake s →
    Does (.hbmInit f) s fun d =>
      (Ops.gateOn s.dev 15 = true → Ops.rdB s.dev Reg.memStatSramInit = true → Ops.rdB s.dev Reg.memStatHbmInit = false →
        Ops.rd d Reg.memStatHbmInit = 1 ∧ (∀ x, 0x200000000 ≤ x → x < 0x1200000000 → Ops.byteGet d.mem.cells x = 0) ∧
        MemKept s.dev d 0x200000000 0x1000000000 ∧ (∀ k, k < 4 → Ops.bit f k = true → Ops.unitGone d (4 + k) = true)) ∧
      (Ops.gateOn s.dev 15 = false ∨ Ops.rdB s.dev Reg.memStatSramInit = false ∨ Ops.rdB s.dev Reg.memStatHbmInit = true → d = s.dev)) ∧
  (∀ (s : State) (u : Nat), Awake s →
    Does (.scrubVisit u) s fun d =>
      (Ops.scrubs s.dev u = true →
        Ops.getD d.mem.scrub u 0 = (Ops.getD s.dev.mem.scrub u 0 + 1) % (if u < 4 then 2 ^ 24 else 2 ^ 27) ∧
        Ops.ctr d (Ctr.memScrubBlock u) = (Ops.ctr s.dev (Ctr.memScrubBlock u) + 1) % 2 ^ 64 ∧
        (s.dev.mem.blk = [] → d.mem.cells = s.dev.mem.cells ∧ d.regs = s.dev.regs)) ∧
      (Ops.scrubs s.dev u = false → d = s.dev)) ∧
  (∀ (s : State) (u : Nat) (col found : Bool) (r : Repair), Awake s → u < 8 → Ops.gateOn s.dev 15 = true → Ops.moving s.dev = true →
    Ops.unitGone s.dev u = false → s.dev.mem.repairs.find? (fun r => r.unit == u && r.col == col) = some r → (col = true → u < 4) →
    Does (.repairCopyDone u ⟨col, found⟩) s fun d =>
      let free := if col then Reg.memRepairFreeCols u else Reg.memRepairFreeRows u
      let done := if col then Ctr.memRepairCol u else Ctr.memRepairRow u
      let spare := (u < 4 ∧ 0 < Ops.rd s.dev free) ∨ (4 ≤ u ∧ found = true)
      d.mem.repairs = s.dev.mem.repairs.erase r ∧
      (spare → s.dev.mem.blk = [] → Ops.ctr d done = (Ops.ctr s.dev done + 1) % 2 ^ 64 ∧
        (u < 4 → Ops.rd d free = Ops.rd s.dev free - 1) ∧ RegsKept s.dev d (if u < 4 then [free.key] else []) ∧
        CtrsKept s.dev d [done] ∧
        { d with regs := s.dev.regs, ctrs := s.dev.ctrs, mem := { d.mem with repairs := s.dev.mem.repairs } } = s.dev) ∧
      (¬spare → Ops.rd d Reg.memErrStatRepairFail = 1 ∧
        Ops.ctr d (Ctr.memRepairFail u) = (Ops.ctr s.dev (Ctr.memRepairFail u) + 1) % 2 ^ 64 ∧ d.mem.cells = s.dev.mem.cells ∧
        Ops.fltState d = Ops.fltState s.dev)) ∧
  (∀ (s : State) (u : Nat) (col found : Bool), Awake s →
    s.dev.mem.repairs.find? (fun r => r.unit == u && r.col == col) = none ∨ Ops.gateOn s.dev 15 = false ∨ Ops.moving s.dev = false ∨
      Ops.unitGone s.dev u = true →
    Does (.repairCopyDone u ⟨col, found⟩) s fun d => d = s.dev) ∧
  (∀ (s : State) (u : Nat), Awake s → u < 8 → Ops.unitGone s.dev u = false → Ops.frozen s.dev = false → Ops.fltState s.dev = 0 →
    Does (.unitLost u) s fun d =>
      let code := if u < 4 then u else 0x10 + u % 4
      Ops.unitGone d u = true ∧ (∀ k, k < 8 → k ≠ u → Ops.unitGone d k = Ops.unitGone s.dev k) ∧
      Ops.rd d Reg.memErrStatUnitLost = 1 ∧
      Ops.fltState d = (if (Ops.layoutFor s.dev code).isSome ∧ Ops.lostBesides s.dev code = false then 1 else if u < 4 then 3 else 2) ∧
      d.mem = s.dev.mem ∧ d.epochs = s.dev.epochs)

/-- The commands that write device memory keep its one canonical form, in which addresses rise strictly and no listed byte is zero (log
entry 1). -/
def Obligations.MemoryKeepsItsForm : Prop :=
  ∀ (c : Instr) (s t : State),
    (∃ off b, c = .bar2Write off b) ∨ (∃ off n, c = .bar2Read off n) ∨ (∃ u, c = .scrubVisit u) ∨ c = .sramInit ∨ (∃ f, c = .hbmInit f) ∨
      (∃ ch src p, c = .copy ch src p) ∨ (∃ ch src p, c = .pack ch src p) ∨ (∃ ch src p, c = .transpose ch src p) ∨
      (∃ ch src aux p, c = .gather ch src aux p) ∨ (∃ ch, c = .descriptorComplete ch) ∨ (∃ rail, c = .sysRstAssert rail) →
    exec c s = .next t → Memory.wf s.dev.mem.cells = true → Memory.wf t.dev.mem.cells = true
/-! ### Sprig cores, labels, refit -/

/-- Tasks (R227 to R229, R235, R236, R239, R240): the PF's post joins its class's queue with the next SEQ, or sets CLASS_BAD or FULL; the
head of a queue goes to an idle eligible core in RUN, one of an ordered class only when none of it is with a core; TASK_POP claims it,
TASK_DONE, the watchdog and a fault end it with their status, and a draining core has then drained.
A core's state and its mailboxes (R234, R238, R239, R263): DRAIN takes RUN to DRAINED, or to DRAINING while it has a task; START
takes DRAINED with an image to RUN at its entry point and is ignored elsewhere; a load that fails changes no core, one that is DONE puts its
image into every DRAINED core that it names. A message waits in a mailbox until it is taken, and a second sets OVF. -/
def Obligations.TasksReachTheirCores : Prop :=
  (
  (∀ (s : State) (w : Word), Awake s → Arrives s.dev 0 0x00C0091C true →
    Does (.pfTaskPost w) s fun d =>
      let k := Ops.rd s.dev (Reg.sprTaskPostWord 0) % 256
      (k < 3 ∨ 6 < k → Ops.rd d Reg.sprTaskPostStatClassBad = 1 ∧ d.spr = s.dev.spr) ∧
      (3 ≤ k → k ≤ 6 → 1024 ≤ (Ops.taskQueue s.dev k).length → Ops.rd d Reg.sprTaskPostStatFull = 1 ∧ d.spr = s.dev.spr ∧
        Ops.ctr d (Ctr.sprQfull k) = (Ops.ctr s.dev (Ctr.sprQfull k) + 1) % 2 ^ 64) ∧
      (3 ≤ k → k ≤ 6 → (Ops.taskQueue s.dev k).length < 1024 →
        ∃ t, Ops.taskQueue d k = Ops.taskQueue s.dev k ++ [t] ∧ t.cls = k ∧ t.src = 5 ∧ t.seq = Ops.lastSeq s.dev k + 1 ∧
          t.arg0 = Ops.rd s.dev (Reg.sprTaskPostWord 2) + 2 ^ 32 * Ops.rd s.dev (Reg.sprTaskPostWord 3) ∧
          d.spr.cores = s.dev.spr.cores ∧ ∀ j, j ≠ k → Ops.taskQueue d j = Ops.taskQueue s.dev j)) ∧
  (∀ (s : State) (k : Nat) (c : CoreNo), Awake s →
    Does (.taskDispatch k c) s fun d =>
      let may := Ops.gateOn s.dev 12 = true ∧ Ops.frozen s.dev = false ∧ (Ops.orderedClass k = true → Ops.classBusy s.dev k = false) ∧
        Ops.eligible s.dev k c = true ∧ Ops.coreState s.dev c = 1 ∧ Ops.coreIdle (Ops.core s.dev c) = true
      (∀ t rest, Ops.taskQueue s.dev k = t :: rest → may → Ops.taskQueue d k = rest ∧
        Ops.core d c = { Ops.core s.dev c with given := some t } ∧ (∀ j, j ≠ c.val → Ops.core d j = Ops.core s.dev j) ∧
        { d with spr := s.dev.spr } = s.dev) ∧
      (Ops.taskQueue s.dev k = [] ∨ ¬may → d = s.dev)) ∧
  (∀ (s : State) (c : CoreNo), Awake s →
    Does (.taskPop c) s fun d =>
      (Ops.coreRuns s.dev c = false → d = s.dev) ∧
      (∀ t since, Ops.coreRuns s.dev c = true → (Ops.core s.dev c).claimed = some (t, since) →
        d = { s.dev with out := .core c 0x100000 (Ops.taskHead t) :: s.dev.out }) ∧
      (∀ t, Ops.coreRuns s.dev c = true → (Ops.core s.dev c).claimed = none → (Ops.core s.dev c).given = some t →
        Ops.core d c = { Ops.core s.dev c with given := none, claimed := some (t, Ops.now s.dev) } ∧
        d.out = .core c 0x100000 (Ops.taskHead t) :: s.dev.out) ∧
      (Ops.coreRuns s.dev c = true → (Ops.core s.dev c).claimed = none → (Ops.core s.dev c).given = none →
        d = { s.dev with out := .core c 0x100000 0 :: s.dev.out })) ∧
  (∀ (s : State) (c : CoreNo) (st score win since : Nat) (t : Task), Awake s → Ops.coreRuns s.dev c = true →
    (Ops.core s.dev c).claimed = some (t, since) → t.cls = 6 → t.src ≠ 6 →
    Does (.taskDone c st score win) s fun d =>
      let code := if st % 4 = 0 then 0 else 1
      (Ops.core d c).claimed = none ∧ Ops.coreState d c = (if Ops.coreState s.dev c = 2 then 3 else 1) ∧
      Ops.ctr d (Ops.statusCtr code 6) = (Ops.ctr s.dev (Ops.statusCtr code 6) + 1) % 2 ^ 64 ∧
      (t.src = 5 → Ops.rd d (Reg.sprTaskDoneSeq 6) = t.seq % 2 ^ 32 ∧ Ops.rd d (Reg.sprTaskResStatus 6) = code) ∧
      d.spr.queues = s.dev.spr.queues ∧ d.mem = s.dev.mem) ∧
  (∀ (s : State) (c : CoreNo) (st score win : Nat), Awake s → Ops.coreRuns s.dev c = false ∨ (Ops.core s.dev c).claimed = none →
    Does (.taskDone c st score win) s fun d => d = s.dev) ∧
  (∀ (s : State) (c : CoreNo) (since : Nat) (t : Task), Awake s → (Ops.core s.dev c).claimed = some (t, since) → t.cls = 6 → t.src ≠ 6 →
    Does (.taskWatchdog c) s fun d =>
      (since + Ops.rd s.dev Reg.sprWdogLimit * 1000 < Ops.now s.dev → (Ops.core d c).claimed = none ∧
        (Ops.core d c).pc = (Ops.core s.dev c).entry ∧ (Ops.core d c).sram = (Ops.core s.dev c).sram ∧
        Ops.ctr d (Ctr.sprTimeout 6) = (Ops.ctr s.dev (Ctr.sprTimeout 6) + 1) % 2 ^ 64) ∧
      (Ops.now s.dev ≤ since + Ops.rd s.dev Reg.sprWdogLimit * 1000 → d = s.dev)) ∧
  (∀ (s : State) (c : CoreNo) (since : Nat) (t : Task), Awake s → Ops.frozen s.dev = false → Ops.coreRuns s.dev c = true →
    (Ops.core s.dev c).claimed = some (t, since) → (Ops.core s.dev c).given = none → t.cls = 6 → t.src ≠ 6 → s.dev.grf.cur = none →
    Does (.coreFault c) s fun d =>
      Ops.coreState d c = 4 ∧ (Ops.core d c).claimed = none ∧ Ops.rd d Reg.fltStatFaultPend = 1 ∧
      Ops.ctr d (Ctr.sprFault 6) = (Ops.ctr s.dev (Ctr.sprFault 6) + 1) % 2 ^ 64) ∧
  (∀ (s : State) (c : CoreNo), Awake s → Ops.coreUp s.dev c = false → Does (.coreFault c) s fun d => d = s.dev)) ∧
  (
  (∀ (s : State) (c : CoreNo), Awake s → Arrives s.dev 0 (0x00C00400 + 4 * c.val) true →
    Does (.coreDrain c) s fun d =>
      Ops.rd d (Reg.sprCoreCtlDrain c) = 1 ∧
      Ops.coreState d c = (if Ops.coreState s.dev c = 1 then (if Ops.coreIdle (Ops.core s.dev c) then 3 else 2) else Ops.coreState s.dev c) ∧
      RegsOnly s.dev d [(Reg.sprCoreCtlDrain c).key, (Reg.sprCoreStatState c).key]) ∧
  (∀ (s : State) (c : CoreNo), Awake s → Arrives s.dev 0 (0x00C00400 + 4 * c.val) true →
    Does (.coreStart c) s fun d =>
      (Ops.coreState s.dev c = 3 → (Ops.core s.dev c).image = true → Ops.coreState d c = 1 ∧
        Ops.core d c = { Ops.core s.dev c with pc := (Ops.core s.dev c).entry, given := none, claimed := none } ∧
        RegsKept s.dev d [(Reg.sprCoreStatState c).key]) ∧
      (Ops.coreState s.dev c ≠ 3 ∨ (Ops.core s.dev c).image = false → d = s.dev)) ∧
  (∀ s : State, Awake s → Arrives s.dev 0 0x00C00810 true →
    Does .fwLoad s fun d =>
      (Ops.rdB s.dev Reg.sprFwStatBusy = false → Ops.rd d Reg.sprFwStatBusy = 1 ∧
        d.spr = { s.dev.spr with load := some (Ops.rd64 s.dev Reg.sprFwAddrLoAddr Reg.sprFwAddrHiAddr,
          Ops.rd64 s.dev Reg.sprFwMaskLoCores Reg.sprFwMaskHiCores) }) ∧
      (Ops.rdB s.dev Reg.sprFwStatBusy = true → d = s.dev)) ∧
  (∀ (s : State) (a mask : Nat), Awake s → s.dev.spr.load = some (a, mask) →
    Does .fwLoadDone s fun d =>
      let h := Ops.memRead s.dev a 64
      let x := Ops.memRead h.1 a (64 + Ops.le h.2.1 16 4 % 2 ^ 21 + 96)
      let code := if x.2.2 then 0x20 else Ops.fwCheck x.1 s.dev.cfg.keys x.2.1
      Ops.rd d Reg.sprFwStatBusy = 0 ∧ Ops.rd d Reg.sprFwStatCode = code % 256 ∧ d.spr.load = none ∧
      (x.2.2 = false → x.2.1.take 4 ≠ [0x53, 0x50, 0x52, 0x46] → code = 0x21 ∧ d.spr = { s.dev.spr with load := none }) ∧
      (∀ c : Nat, c < 64 → (Ops.core d c).image =
        (if code = 0 ∧ Ops.bit mask c = true ∧ Ops.coreState s.dev c = 3 then true else (Ops.core s.dev c).image)) ∧
      (∀ c : Nat, c < 64 → code = 0 → Ops.bit mask c = true → Ops.coreState s.dev c = 3 →
        (Ops.core d c).sram = Ops.slice x.2.1 64 (Ops.le x.2.1 16 4) ∧ (Ops.core d c).entry = Ops.le x.2.1 12 4) ∧
      (∀ c : Nat, c < 64 → Ops.coreState d c = Ops.coreState s.dev c) ∧ d.mem = x.1.mem) ∧
  (∀ s : State, Awake s → s.dev.spr.load = none → Does .fwLoadDone s fun d => d = s.dev) ∧
  (∀ (s : State) (c : CoreNo), Awake s →
    Does (.mboxIn c) s fun d =>
      (Ops.coreRuns s.dev c = true → d.out = .core c 0x100040 ((Ops.core s.dev c).h2c.getD 0) :: s.dev.out ∧
        Ops.core d c = { Ops.core s.dev c with h2c := none }) ∧
      (Ops.coreRuns s.dev c = false → d = s.dev)) ∧
  (∀ (s : State) (c : CoreNo) (msg : Nat), Awake s → Ops.coreRuns s.dev c = true →
    Does (.mboxOut c msg) s fun d =>
      ((Ops.core s.dev c).c2h = none → Ops.core d c = { Ops.core s.dev c with c2h := some (msg % 2 ^ 64) } ∧
        RegsKept s.dev d []) ∧
      ((Ops.core s.dev c).c2h.isSome = true → Ops.rd d (Reg.sprMboxStatOvf c) = 1 ∧
        RegsOnly s.dev d [(Reg.sprMboxStatOvf c).key])) ∧
  (∀ (s : State) (c : CoreNo) (hi : Word), Awake s → Arrives s.dev 0 (0x00C02004 + 16 * c.val) true →
    Does (.h2cDeliver c hi) s fun d =>
      ((Ops.core s.dev c).h2c = none → { d with spr := s.dev.spr } = s.dev ∧
        Ops.core d c = { Ops.core s.dev c with h2c := some (Ops.rd s.dev (Reg.sprMboxH2cLoMsg c) + 2 ^ 32 * hi.toNat) }) ∧
      ((Ops.core s.dev c).h2c.isSome = true → Ops.rd d (Reg.sprMboxStatOvf c) = 1 ∧
        RegsOnly s.dev d [(Reg.sprMboxStatOvf c).key])) ∧
  (∀ (s : State) (c : CoreNo), Awake s → Arrives s.dev 0 (0x00C0200C + 16 * c.val) false →
    Does (.c2hFree c) s fun d =>
      Ops.core d c = { Ops.core s.dev c with c2h := none } ∧
      d.out = .read 0 (0x00C0200C + 16 * c.val) (some ((Ops.core s.dev c).c2h.getD 0 / 2 ^ 32)) :: s.dev.out ∧ d.regs = s.dev.regs) ∧
  (∀ (s : State) (c : CoreNo) (slot : Slot) (n : Nat), Awake s → Ops.coreRuns s.dev c = true →
    Does (.doorbellRefitReady c slot n) s fun d =>
      Ops.rd d (Reg.cfgRefitStatChanged slot) = min n 0xFFFFF ∧ RegsOnly s.dev d [(Reg.cfgRefitStatChanged slot).key]))

/-- Labels and their records (R188, R189, R191, R221, R261, R262, R384): a label with reserved bytes, of a slot that its ring's tenant does not
own, or without LABEL_EN is counted and dropped, any other waits in a queue of 65,536; one that names no live record, a labelled one or
another structure changes no sum, and a record takes one label. Records expire at their horizon, but for one that a label in the queue has
reached in time. A SWAP exchanges the banks of its slot and the new
active one starts from zero; CLEAR zeroes the frozen one; a refused one sets REJ and changes nothing. -/
def Obligations.LabelsReachTheirRecords : Prop :=
  (∀ (s : State) (t : Nat) (raw : Bytes), Awake s →
    Does (.labelIntake (.ring t) raw) s fun d =>
      let ok := raw.length = 32 ∧ Ops.labelZeros raw = true ∧ Ops.ownsSlot s.dev t (Ops.le raw 8 1) = true ∧
        Ops.rdB s.dev (Reg.cfgTenantMdlLabelEn t) = true
      (¬ok → RegsCtrsOnly s.dev d [] [Ctr.cfgLabelRej] ∧ Ops.ctr d Ctr.cfgLabelRej = (Ops.ctr s.dev Ctr.cfgLabelRej + 1) % 2 ^ 64) ∧
      (ok → s.dev.labels.length < 65536 →
        d.labels = s.dev.labels ++ [{ tenant := t, fwd := false, raw, t := Ops.now s.dev }] ∧ d.mem = s.dev.mem) ∧
      (ok → 65536 ≤ s.dev.labels.length → d.labels = s.dev.labels ∧
        Ops.ctr d Ctr.espLabelDrop = (Ops.ctr s.dev Ctr.espLabelDrop + 1) % 2 ^ 64)) ∧
  (∀ (s : State) (raw : Bytes), Awake s → s.dev.labels.length < 65536 →
    Does (.labelForwardReceive raw) s fun d =>
      (Ops.inGroup s.dev = true →
        d = { s.dev with labels := s.dev.labels ++ [{ tenant := 0, fwd := true, raw, t := Ops.now s.dev }] }) ∧
      (Ops.inGroup s.dev = false → d = s.dev)) ∧
  (∀ (s : State) (l : Label) (rest : List Label), Awake s → s.dev.labels = l :: rest → Ops.bit (Ops.le l.raw 9 1) 2 = false →
    l.fwd = false →
    Does .labelApply s fun d =>
      let named := fun (r : LeafRec) => decide (r.evT = Ops.le l.raw 0 8 ∧ r.tag = Ops.le l.raw 12 3 ∧ r.src = Ops.le l.raw 10 1 ∧
        r.slot = Ops.le l.raw 8 1 ∧ r.pass = Ops.le l.raw 9 1 % 4)
      d.labels = rest ∧
      (Ops.firstIdx named s.dev.leafRecs = none → d = { s.dev with labels := rest, ctrs := d.ctrs } ∧
        Ops.ctr d Ctr.espLabelMiss = (Ops.ctr s.dev Ctr.espLabelMiss + 1) % 2 ^ 64) ∧
      (∀ i r, Ops.firstIdx named s.dev.leafRecs = some i → s.dev.leafRecs[i]? = some r →
        (r.evT + Ops.lpsHorizon s.dev ≤ l.t → d.leafRecs = s.dev.leafRecs ∧ d.mem = s.dev.mem ∧
          Ops.ctr d Ctr.espLabelMiss = (Ops.ctr s.dev Ctr.espLabelMiss + 1) % 2 ^ 64) ∧
        (l.t < r.evT + Ops.lpsHorizon s.dev → r.used = true → d.leafRecs = s.dev.leafRecs ∧ d.mem = s.dev.mem ∧
          Ops.ctr d Ctr.espLabelDup = (Ops.ctr s.dev Ctr.espLabelDup + 1) % 2 ^ 64) ∧
        (∀ m e, l.t < r.evT + Ops.lpsHorizon s.dev → r.used = false →
          Ops.find? (Ops.curCfg s.dev).models (Ops.le l.raw 8 1) = some m → m.ens = some e →
          (e.structId ≠ r.structId → d.leafRecs = s.dev.leafRecs ∧ d.mem = s.dev.mem ∧
            Ops.ctr d Ctr.espLabelStale = (Ops.ctr s.dev Ctr.espLabelStale + 1) % 2 ^ 64) ∧
          (e.structId = r.structId → d.leafRecs = s.dev.leafRecs.set i { r with used := true })))) ∧
  (∀ s : State, Awake s → s.dev.labels = [] → Does .labelApply s fun d => d = s.dev) ∧
  (∀ s : State, Awake s →
    Does .leafPathExpire s fun d =>
      let live := fun (t : Nat) => decide (Ops.now s.dev < t + Ops.lpsHorizon s.dev)
      d.leafRecs = s.dev.leafRecs.filter (fun r =>
        live r.evT || (!r.used && Ops.labelWaits s.dev false r.evT r.tag r.src r.slot r.pass)) ∧
      d.headRecs = s.dev.headRecs.filter (fun r =>
        live r.evT || (!r.used && Ops.labelWaits s.dev true r.evT r.tag r.src r.slot r.pass)) ∧
      CtrsKept s.dev d [Ctr.espLpsExpire] ∧
      { d with leafRecs := s.dev.leafRecs, headRecs := s.dev.headRecs, ctrs := s.dev.ctrs } = s.dev) ∧
  (∀ (s : State) (i : Instr) (fn : Fn) (slot : Slot) (part : Nat), Awake s →
    (part = 0 ∧ (i = .espRefitSwap fn slot ∨ i = .espRefitClear fn slot) ∧ Arrives s.dev fn 0x00A00200 true) ∨
      (part = 1 ∧ (i = .hrfSwap fn slot ∨ i = .hrfClear fn slot) ∧ Arrives s.dev fn 0x00B00200 true) →
    Ops.rdB s.dev (Ops.bankReg part (Ops.copyNo fn)).1 = false →
    Does i s fun d =>
      let ok := (Ops.refitPart s.dev slot part).isSome = true ∧ Ops.ownsSlot s.dev fn slot = true ∧ Ops.polOn s.dev slot = false
      (¬ok → Ops.rd d (Ops.bankReg part (Ops.copyNo fn)).2.1 = 1 ∧
        RegsOnly s.dev d [(Ops.bankReg part (Ops.copyNo fn)).2.1.key]) ∧
      (∀ b, ok → Ops.bank? s.dev slot part = some b → Ops.rd d (Ops.bankReg part (Ops.copyNo fn)).1 = 1 ∧
        (i = .espRefitSwap fn slot ∨ i = .hrfSwap fn slot → Ops.bank? d slot part = some { b with active := !b.active } ∧
          (∀ x, Ops.bankAddr b (!b.active) ≤ x → x < Ops.bankAddr b (!b.active) + b.size → Ops.byteGet d.mem.cells x = 0) ∧
          ∀ k, k ≠ 2 * slot.val + part → Ops.find? d.banks k = Ops.find? s.dev.banks k) ∧
        (i = .espRefitClear fn slot ∨ i = .hrfClear fn slot → d.banks = s.dev.banks ∧
          (∀ x, Ops.bankAddr b (!b.active) ≤ x → x < Ops.bankAddr b (!b.active) + b.size → Ops.byteGet d.mem.cells x = 0) ∧
          MemKept s.dev d (Ops.bankAddr b (!b.active)) b.size))) ∧
  (∀ (s : State) (i : Instr) (part : Nat), Awake s → (part = 0 ∧ i = .espRefitDone) ∨ (part = 1 ∧ i = .hrfDone) →
    Does i s fun d =>
      (∀ fn, fn < 65 → Ops.rd d (Ops.bankReg part fn).1 = 0) ∧
      RegsOnly s.dev d ((List.range 65).map fun fn => (Ops.bankReg part fn).1.key))

/-- Refit policies, flow-model runs and slots (R249, R257 to R259, R263): at an interval's end an IDLE policy with labels enough posts its task
and swaps the banks, a READY one whose graft failed queues it again; COMMIT and DISCARD act on a HELD shadow. A queued run takes a context or
is counted; a run that completes leaves the list, its result in the cache of its entry, or stays for the LINK task that it has posted. A slot is
assigned while it is EMPTY and within SLOT_MAX. -/
def Obligations.PoliciesAndRunsAdvance : Prop :=
  (∀ (s : State) (slot : Slot), Awake s →
    Does (.refitInterval slot) s fun d =>
      let due := (Ops.refitOf s.dev slot).since + Ops.rd s.dev (Reg.cfgRefitPolInterval slot) * 1000000
      (Ops.polOn s.dev slot = false ∨ Ops.now s.dev < due → d = s.dev) ∧
      (Ops.polOn s.dev slot = true → due ≤ Ops.now s.dev → (Ops.refitOf d slot).since = due ∧
        (Ops.polState s.dev slot = 0 → Ops.activeBank s.dev slot (Ops.polPart s.dev slot) ≠ none →
          Ops.refitPart s.dev slot (Ops.polPart s.dev slot) ≠ none → Ops.polPart s.dev slot < 2 →
          ((Ops.polLabels s.dev slot).2 < Ops.rd s.dev (Reg.cfgRefitLimMinLabels slot) →
            Ops.polState d slot = 0 ∧ d.banks = s.dev.banks ∧ d.spr = s.dev.spr) ∧
          (Ops.rd s.dev (Reg.cfgRefitLimMinLabels slot) ≤ (Ops.polLabels s.dev slot).2 → Ops.gateOn s.dev 12 = true →
            (Ops.taskQueue s.dev (3 + Ops.polPart s.dev slot)).length < 1024 →
            Ops.polState d slot = 1 ∧ ∃ t, Ops.taskQueue d (3 + Ops.polPart s.dev slot) =
              Ops.taskQueue s.dev (3 + Ops.polPart s.dev slot) ++ [t] ∧ t.src = 6 ∧ t.slot = slot.val)) ∧
        (Ops.polState s.dev slot = 2 → (Ops.refitOf s.dev slot).queued = false →
          d.grf.queue = s.dev.grf.queue ++ [128 + slot.val] ∧ Ops.rd d (Reg.cfgRefitStatLastCode slot) = 1 ∧
          Ops.polState d slot = 2) ∧
        (Ops.polState s.dev slot = 1 ∨ Ops.polState s.dev slot = 3 → Ops.polState d slot = Ops.polState s.dev slot ∧
          d.regs = s.dev.regs ∧ d.spr = s.dev.spr))) ∧
  (∀ (s : State) (fn : Fn) (slot : Slot), Awake s → Arrives s.dev fn 0x00205C00 true →
    Does (.refitCommit fn slot) s fun d =>
      (Ops.ownsSlot s.dev fn slot = true → Ops.polState s.dev slot = 3 → Ops.polState d slot = 2 ∧
        d.grf.queue = s.dev.grf.queue ++ [128 + slot.val] ∧ Ops.rd d (Reg.cfgRefitStatLastCode slot) = 1) ∧
      (Ops.ownsSlot s.dev fn slot = false ∨ Ops.polState s.dev slot ≠ 3 → d = s.dev)) ∧
  (∀ (s : State) (fn : Fn) (slot : Slot), Awake s → Arrives s.dev fn 0x00205C00 true →
    Does (.refitDiscard fn slot) s fun d =>
      (Ops.ownsSlot s.dev fn slot = true → 2 ≤ Ops.polState s.dev slot → Ops.polState d slot = 0 ∧ 128 + slot.val ∉ d.grf.queue ∧
        (Ops.refitOf d slot).shadowEns = none ∧ (Ops.refitOf d slot).shadowHead = none ∧ d.banks = s.dev.banks) ∧
      (Ops.ownsSlot s.dev fn slot = false ∨ Ops.polState s.dev slot < 2 → d = s.dev)) ∧
  (∀ s : State, Awake s →
    Does .flowRunStart s fun d =>
      let may := Ops.moving s.dev = true ∧ Ops.hbmUp s.dev = true ∧ Ops.skeleton s.dev = false ∧ Ops.fltFailed s.dev = false
      (¬may ∨ Ops.firstIdx (·.ready) s.dev.runQueue = none → d = s.dev) ∧
      (∀ i q, may → Ops.firstIdx (·.ready) s.dev.runQueue = some i → s.dev.runQueue[i]? = some q →
        d.runQueue = s.dev.runQueue.eraseIdx i ∧
        (0 < Ops.ctxFree s.dev → d.runs = s.dev.runs ++ [{ q with ctxT := Ops.now s.dev }]) ∧
        (Ops.ctxFree s.dev = 0 → d.runs = s.dev.runs ∧ Ops.ctr d Ctr.cfgTrigNoctx = (Ops.ctr s.dev Ctr.cfgTrigNoctx + 1) % 2 ^ 64))) ∧
  (∀ (s : State) (f : Option PassFault) (i : Nat) (q : FlowRun) (m : Model), Awake s → Ops.moving s.dev = true →
    Ops.hbmUp s.dev = true → Ops.firstIdx (fun q => q.link.isNone) s.dev.runs = some i → s.dev.runs[i]? = some q →
    Ops.modelOf s.dev q.epoch q.slot = some m → (∀ n, f ≠ some (.unit n)) →
    Does (.flowRunComplete f) s fun d =>
      let w := Ops.passStart (Ops.recordFault s.dev m q.pipe f) m q.pipe q.slot (m.slotSec.passes.getD 0 default) q.feats
        ⟨Ops.zeros 64, false⟩ [] false []
      let sprig := m.slotSec.scoreSrc = 0 ∧ ∃ e, m.ens = some e ∧ e.link = 4
      let takes := Ops.gateOn s.dev 12 = true ∧ (Ops.taskQueue s.dev 1).length < 1024
      (w.broken = true → d.runs = s.dev.runs.eraseIdx i ∧ d.flw = s.dev.flw ∧ d.mem = s.dev.mem) ∧
      (w.broken = false → sprig → (takes → ∃ x, d.runs[i]? = some x ∧ x.link = some (Ops.lastSeq s.dev 1 + 1)) ∧
        (¬takes → d.runs = s.dev.runs.eraseIdx i) ∧ d.flw = s.dev.flw ∧ d.mem = s.dev.mem) ∧
      (w.broken = false → ¬sprig → d.runs = s.dev.runs.eraseIdx i ∧
        Ops.ctr d Ctr.cfgRunDone = (Ops.ctr s.dev Ctr.cfgRunDone + 1) % 2 ^ 64 ∧
        (Ops.passRes m w = .none → d.flw = s.dev.flw ∧ d.mem = s.dev.mem) ∧
        (Ops.passRes m w = .nan → d.flw = s.dev.flw ∧ d.mem = s.dev.mem ∧
          Ops.ctr d Ctr.cfgCacheStale = (Ops.ctr s.dev Ctr.cfgCacheStale + 1) % 2 ^ 64) ∧
        ∀ c sc, Ops.passRes m w = .score c sc → NoneDue s.dev →
          (Ops.ent? s.dev q.entry = none ∨ Ops.genOf s.dev q.entry ≠ q.gen → d.flw = s.dev.flw ∧ d.mem = s.dev.mem ∧
            Ops.ctr d Ctr.cfgCacheStale = (Ops.ctr s.dev Ctr.cfgCacheStale + 1) % 2 ^ 64) ∧
          (∀ e, Ops.ent? s.dev q.entry = some e → Ops.genOf s.dev q.entry = q.gen →
            (Ops.standby s.dev = true → d.flw = s.dev.flw ∧ d.mem = s.dev.mem) ∧
            (Ops.standby s.dev = false → EntLands s.dev q.entry →
              let a := match m.flow with | some x => x.cache.getD (c % 16) 0 | none => 0
              d.flw.ents = s.dev.flw.ents ∧ (∀ j, j ≠ q.entry → Ops.sideOf d j = Ops.sideOf s.dev j) ∧
              Ops.sideOf d q.entry = { Ops.sideOf s.dev q.entry with
                cache := 1 + Ops.put q.slot 1 8 + Ops.put (Ops.bits a 0 4) 9 4 + Ops.put (Ops.bits a 4 8) 13 8 +
                  Ops.put (Ops.bits a 12 2) 21 2 + Ops.put (Ops.bits a 14 20) 23 20 + Ops.put sc 43 16 })))) ∧
  (∀ (s : State) (f : Option PassFault) (i : Nat) (q : FlowRun), Awake s → Ops.moving s.dev = true → Ops.hbmUp s.dev = true →
    Ops.firstIdx (fun q => q.link.isNone) s.dev.runs = some i → s.dev.runs[i]? = some q →
    Ops.modelOf s.dev q.epoch q.slot = none ∨ (∃ n, f = some (.unit n)) →
    Does (.flowRunComplete f) s fun d => d.runs = s.dev.runs.eraseIdx i ∧ d.flw = s.dev.flw ∧ d.mem = s.dev.mem) ∧
  (∀ (s : State) (f : Option PassFault), Awake s →
    Ops.moving s.dev = false ∨ Ops.hbmUp s.dev = false ∨ Ops.firstIdx (fun q => q.link.isNone) s.dev.runs = none →
    Does (.flowRunComplete f) s fun d => d = s.dev) ∧
  (∀ (s : State) (slot : Slot) (w : Word), Awake s → Arrives s.dev 0 (0x00204000 + 4 * slot.val) true →
    Does (.slotAssign slot w) s fun d =>
      let owner := Ops.bits w.toNat 0 6
      let others := Ops.slotsOf s.dev owner -
        (if Ops.rdB s.dev (Reg.cfgSlotAssigned slot) = true ∧ Ops.rd s.dev (Reg.cfgSlotOwner slot) = owner then 1 else 0)
      (Ops.slotState s.dev slot = 0 → Ops.bit w.toNat 6 = false ∨ others < Ops.rd s.dev (Reg.cfgTenantMdlSlotMax owner) →
        Ops.rd d (Reg.cfgSlotOwner slot) = owner ∧ Ops.rd d (Reg.cfgSlotAssigned slot) = (if Ops.bit w.toNat 6 then 1 else 0) ∧
        RegsOnly s.dev d [(Reg.cfgSlotOwner slot).key, (Reg.cfgSlotAssigned slot).key]) ∧
      (Ops.slotState s.dev slot ≠ 0 ∨ (Ops.bit w.toNat 6 = true ∧ Ops.rd s.dev (Reg.cfgTenantMdlSlotMax owner) ≤ others) →
        d = s.dev))

/-- The commands of `FLW_CMD` (R99 to R101, R108 to R112, R233, R387), from the PF (`core` = false) or from a core's second port: the bucket
of the key is read under the codes first; each command ends with RESULT, ENTRY and BUSY = 0, changes no other entry, and logs what it changes. A
STANDBY device changes no entry; RESULT is then a free value (log entry 11). ENTRY of a command that names no entry, and a side record freed with
its entry, are the model's choices (log entries 140, 142). -/
def Obligations.FlowCommandsFollowTheirOp : Prop :=
  ∀ (s : State) (core : Bool) (data : Word), Awake s → Arrives s.dev 0 0x00700100 true → NoneDue s.dev →
    let k := Ops.cmdKey s.dev core
    let x := Ops.readBucket s.dev (Ops.bucketOf s.dev k)
    let ends := fun (d : Dev) (res idx : Nat) => Ops.portRd d core Reg.flwCmdStatResult = res ∧
      Ops.portRd d core Reg.flwCmdStatEntry = idx % 2 ^ 26 ∧ Ops.portRd d core Reg.flwCmdStatBusy = 0
    let others := fun (y d : Dev) (i : Nat) => ∀ j, j ≠ i → Ops.ent? d j = Ops.ent? y j ∧ Ops.sideOf d j = Ops.sideOf y j
    (∀ i ∈ [Instr.cmdRead core data, .cmdDelete core data, .cmdClearContest core data, .cmdZeroState core data],
      Ops.lookup x k = none → i = .cmdRead core data ∨ Ops.standby s.dev = false →
      Does i s fun d => ends d (if Ops.bucketOf s.dev k ∈ x.flw.ueHold then 5 else 1) 0 ∧ d.flw = x.flw ∧ d.mem = x.mem) ∧
    (∀ i ∈ [Instr.cmdInsert core data, .cmdDelete core data, .cmdClearContest core data, .cmdZeroState core data,
        .cmdClearBucket core data], Ops.standby s.dev = true →
      Does i s fun d => d.flw = s.dev.flw ∧ d.mem = s.dev.mem ∧ Ops.portRd d core Reg.flwCmdStatBusy = 0 ∧
        Ops.portRd d core Reg.flwCmdStatResult = (Ops.fresh s.dev).1 % 8) ∧
    (∀ i e, Ops.lookup x k = some i → Ops.ent? x i = some e →
      (Does (.cmdRead core data) s fun d => ends d 0 i ∧ d.flw = x.flw ∧ d.mem = x.mem ∧
        ∀ j, j < 32 → Ops.portRd d core (Reg.flwCmdDataWord j) = Ops.le (Ops.entBytes e) (4 * j) 4) ∧
      (Ops.standby s.dev = false →
        (Does (.cmdInsert core data) s fun d => ends d 2 i ∧ d.flw = x.flw ∧ d.mem = x.mem) ∧
        (EntLands x i → Does (.cmdDelete core data) s fun d => ends d 0 i ∧ Ops.ent? d i = none ∧ Ops.sideOf d i = ⟨0, 0, 0⟩ ∧
          Ops.genOf d i = Ops.genOf x i + 1 ∧ others x d i ∧ d.flw.logSeq = x.flw.logSeq + 1 ∧
          let z := Ops.rawClear (Ops.rawClear x (Ops.entAddr x i) 128) (Ops.sideAddr x i) 16
          let w := Ops.rd x Reg.flwLogWrIndex
          let next := (w + 1) % Ops.rd x Reg.flwLogCfgEntries
          let at' := (Ops.region x 5).1 + 64 * w
          (next = Ops.rd x Reg.flwLogRdIndex → d.mem = z.mem ∧ Ops.rd d Reg.flwLogStatOverrun = 1 ∧
            Ops.rd d Reg.flwLogWrIndex = w ∧ Ops.ctr d Ctr.flwLogLost = (Ops.ctr x Ctr.flwLogLost + 1) % 2 ^ 64) ∧
          (next ≠ Ops.rd x Reg.flwLogRdIndex → PlainMem x at' 64 → Ops.rd d Reg.flwLogWrIndex = next % 2 ^ 20 ∧
            Stored z d at' (Ops.leBytes 8 (x.flw.logSeq + 1) ++ Ops.leBytes 8 (Ops.frontier x) ++ Ops.leBytes 4 i ++ Ops.leBytes 1 3 ++
              Ops.leBytes 1 e.tenant ++ Ops.leBytes 1 e.src ++ Ops.leBytes 1 e.src ++ Ops.padTo 40 e.key))) ∧
        (EntLands x i → Does (.cmdClearContest core data) s fun d => ends d 0 i ∧ others x d i ∧ d.mem = x.mem ∧ Ops.sideOf d i = Ops.sideOf x i ∧
          Ops.ent? d i = some (if e.cstate = 0 then e else { e with cstate := 0, moves := 0 })) ∧
        (EntLands x i → Does (.cmdZeroState core data) s fun d => ends d 0 i ∧ others x d i ∧ d.mem = x.mem ∧
          Ops.sideOf d i = Ops.sideOf x i ∧ Ops.ent? d i = some { e with state := Ops.zeros 64, stateOwned := false } ∧
          Ops.getD d.flw.pend i [] = [] ∧ Ops.genOf d i = Ops.genOf x i))) ∧
    (Ops.lookup x k = none → Ops.standby s.dev = false →
      (∀ r, Ops.place x k = .inr r → Does (.cmdInsert core data) s fun d => ends d (r % 8) 0 ∧ d.flw = x.flw ∧ d.mem = x.mem) ∧
      (∀ i, Ops.place x k = .inl i → EntLands x i → Does (.cmdInsert core data) s fun d => ends d 0 i ∧ others x d i ∧
        Ops.sideOf d i = ⟨0, 0, 0⟩ ∧ d.flw.logSeq = x.flw.logSeq + 1 ∧
        Ops.ent? d i = some { Ops.learnt x k (Ops.frontier x) (Ops.bits data.toNat 3 8) (Ops.curNum x) with
          sw := true, noAge := Ops.bit data.toNat 11 })) ∧
    (Ops.standby s.dev = false →
      let b := Ops.portRd s.dev core (Reg.flwCmdKeyWord 0)
      (Ops.buckets s.dev ≤ b → Does (.cmdClearBucket core data) s fun d => ends d 1 0 ∧ d.flw = s.dev.flw ∧ d.mem = s.dev.mem) ∧
      (b < Ops.buckets s.dev → s.dev.mem.blk = [] → (∀ w, w < 4 → EntLands s.dev (4 * b + w)) →
        Does (.cmdClearBucket core data) s fun d => ends d 0 (4 * b) ∧
        (∀ w, w < 4 → Ops.ent? d (4 * b + w) = none) ∧ (∀ j, j / 4 ≠ b → Ops.ent? d j = Ops.ent? s.dev j) ∧
        d.flw.ueHold = s.dev.flw.ueHold.filter (· != b) ∧
        d.flw.logSeq = s.dev.flw.logSeq + ((List.range 4).filter fun w => (Ops.ent? s.dev (4 * b + w)).isSome).length))

/-- The aging scanner deletes an entry whose idle time has run out at the frontier and clears an old RECENT (R103, R105); the walker compares the
digest of a home with the shadow's and logs a difference, and a mismatch changes no entry (R113 to R115); SNAP writes the device's digests. -/
def Obligations.ScansAgeAndCompare : Prop :=
  (∀ s : State, Awake s → Ops.rdB s.dev Reg.flwScanCfgEnable = false ∨ Ops.standby s.dev = true →
    Does .agingScanVisit s fun d => d = s.dev) ∧
  (∀ s : State, Awake s → Ops.rdB s.dev Reg.flwScanCfgEnable = true → Ops.standby s.dev = false → NoneDue s.dev →
    Does .agingScanVisit s fun d =>
      let h := s.dev.flw.scanPos
      let x := if h < Ops.buckets s.dev then Ops.readBucket s.dev h else s.dev
      let f := Ops.frontier x
      let w := 16 * Ops.rd x Reg.flwContestCfgWindow
      let since := fun (t : Nat) => ((f : Int) - t) % (2 ^ 32 : Int)
      d.flw.scanPos = (h + 1) % (Ops.buckets x + 4096) ∧ (∀ j, j / 4 ≠ h → Ops.ent? d j = Ops.ent? x j) ∧
      (x.mem.blk = [] → (∀ w, w < 4 → EntLands x (4 * h + w)) → ∀ i e, i / 4 = h → Ops.ent? x i = some e →
        let tmo := Ops.rd x (Reg.flwAgeTmoTimeout e.tenant)
        let out := e.noAge = false ∧ (1000 * (if tmo ≠ 0 then tmo else Ops.rd x Reg.flwAgeCfgTimeout) : Int) ≤
          ((f : Int) - Ops.origin x - e.lastSeen) % (2 ^ 48 : Int)
        let old := (w : Int) ≤ since e.srcT ∧ (e.cstate = 0 ∨ (w : Int) ≤ since e.contestT)
        (out → Ops.ent? d i = none) ∧
        (¬out → Ops.ent? d i = some { e with recent := e.recent && !decide old }))) ∧
  (∀ (s : State) (host : Option Bytes), Awake s → Ops.rdB s.dev Reg.flwShadowCtlEnable = false →
    Does (.shadowWalkVisit host) s fun d => d = s.dev) ∧
  (∀ (s : State) (host : Option Bytes), Awake s → Ops.rdB s.dev Reg.flwShadowCtlEnable = true →
    Does (.shadowWalkVisit host) s fun d =>
      let h := s.dev.flw.walkPos
      let x := if h < Ops.buckets s.dev then Ops.readBucket s.dev h else s.dev
      (.hostRead (Ops.shadowBase x + 64 + 4 * h) 4 :: .hostRead (Ops.shadowBase x) 8 :: x.out) <:+ d.out ∧
      d.flw.walkPos = (h + 1) % (Ops.buckets x + 4096) ∧ d.flw.ents = x.flw.ents ∧ d.flw.sides = x.flw.sides ∧
      ∀ b, host = some b →
        let behind := (2 ^ 31 : Int) ≤ ((Ops.le b 0 8 % 2 ^ 32 : Nat) - ((Ops.getD x.flw.lastChange h 0 : Nat) : Int)) % (2 ^ 32 : Int)
        let same := Ops.le b 8 4 = Ops.digest x h
        (behind → d.regs = x.regs ∧ d.mem = x.mem ∧ CtrsKept x d [Ctr.flwShadowStale] ∧
          Ops.ctr d Ctr.flwShadowStale = (Ops.ctr x Ctr.flwShadowStale + 1) % 2 ^ 64) ∧
        (¬behind → same → d.regs = x.regs ∧ d.mem = x.mem ∧ d.ctrs = x.ctrs) ∧
        (¬behind → ¬same → Ops.rd d Reg.flwShadowStatMismatch = 1 ∧ Ops.rd d Reg.flwShadowStatLast = h % 2 ^ 24 ∧
          Ops.ctr d Ctr.flwShadowMismatch = (Ops.ctr x Ctr.flwShadowMismatch + 1) % 2 ^ 64 ∧ d.flw.logSeq = x.flw.logSeq + 1)) ∧
  (∀ s : State, Awake s → Arrives s.dev 0 0x00700040 true →
    Does .shadowSnap s fun d =>
      d.out = .hostWrite (Ops.shadowBase s.dev) (Ops.leBytes 8 s.dev.flw.logSeq ++ Ops.zeros 56 ++
        ((List.range (Ops.buckets s.dev + 4096)).flatMap fun h => Ops.leBytes 4 (Ops.digest s.dev h))) :: s.dev.out ∧
      Ops.rd d Reg.flwShadowCtlSnap = 0 ∧ RegsKept s.dev d [Reg.flwShadowCtlSnap.key] ∧
      { d with regs := s.dev.regs, out := s.dev.out } = s.dev)

/-- A frame at the port of an INLINE pipe whose link is up (R41, R42, R44, R302, R309): too short, too long, a control frame or without cells,
it is counted and makes no unit; a PFC frame whose FCS passes sets the pauses of its priorities; any other becomes a unit stamped with the time base, with
its cells. At the port of no INLINE pipe nothing happens. The codewords that the FEC corrects and those that it cannot are counted; one of these makes
the frame fail its FCS. The FCS result is noted once. -/
def Obligations.FramesArriveAtTheirPort : Prop :=
  (∀ (s : State) (n : Port) (fr : Bytes) (fcs : Bool) (corr unc : Nat), Awake s →
    Does (.frameReceive n fr ⟨fcs, corr, unc⟩) s fun d =>
      let ok := fcs && decide (unc = 0)
      let fec := Ops.ctr d (Ctr.prtFecCorr n) = (Ops.ctr s.dev (Ctr.prtFecCorr n) + corr) % 2 ^ 64 ∧
        Ops.ctr d (Ctr.prtFecUncorr n) = (Ops.ctr s.dev (Ctr.prtFecUncorr n) + unc) % 2 ^ 64
      let may := Ops.portPipe s.dev n ≠ none ∧ Ops.moving s.dev = true ∧ Ops.gateOn s.dev 4 = true ∧ Ops.portUp s.dev n = true ∧
        Ops.fltFailed s.dev = false
      let fits := 64 ≤ fr.length + 4 ∧ fr.length + 4 ≤ Ops.rd s.dev (Reg.prtPortCtlMtu n)
      let op := Ops.beNat (Ops.slice fr 14 2)
      let control := Ops.beNat (Ops.slice fr 12 2) = 0x8808 ∧ (op = 1 ∨ op = 0x101)
      let cells := Ops.cdiv fr.length 256
      let counted := fun c => fec ∧ CtrsKept s.dev d [Ctr.prtFecCorr n, Ctr.prtFecUncorr n, c] ∧
        Ops.ctr d c = (Ops.ctr s.dev c + 1) % 2 ^ 64 ∧ { d with ctrs := s.dev.ctrs, sgn := s.dev.sgn } = s.dev
      (¬may → d = s.dev) ∧
      (may → fr.length + 4 < 64 → counted (Ctr.prtRxErr n)) ∧
      (may → 64 ≤ fr.length + 4 → Ops.rd s.dev (Reg.prtPortCtlMtu n) < fr.length + 4 → counted (Ctr.prtRxOversize n)) ∧
      (may → fits → control → ok = false → counted (Ctr.prtRxErr n)) ∧
      (may → fits → control → ok = true → op = 1 → counted (Ctr.prtRxPauseDrop n)) ∧
      (may → fits → control → ok = true → op ≠ 1 → fec ∧ CtrsKept s.dev d [Ctr.prtFecCorr n, Ctr.prtFecUncorr n] ∧
        { d with tmg := s.dev.tmg, sgn := s.dev.sgn, ctrs := s.dev.ctrs } = s.dev ∧ { d.tmg with paused := s.dev.tmg.paused } = s.dev.tmg ∧
        ∀ m k, k < 8 → Ops.find? d.tmg.paused (8 * m + k) =
          if m = n.val ∧ Ops.bit (Ops.byteAt fr 17) k = true then
            (let q := Ops.beNat (Ops.slice fr (18 + 2 * k) 2)
             if q = 0 then none else some (Ops.now s.dev + q * 512 / Ops.portGb s.dev))
          else Ops.find? s.dev.tmg.paused (8 * m + k)) ∧
      (may → fits → ¬control → Ops.cellsFree s.dev < cells → counted Ctr.tmgBufDrop) ∧
      (∀ p, may → fits → ¬control → cells ≤ Ops.cellsFree s.dev → Ops.portPipe s.dev n = some p →
        Ops.unit? d s.dev.nextUnit = some { Ops.newUnit (.inline n) p fr fr.length n n (Ops.now s.dev) with
          cells := cells, fecBad := decide (0 < unc), energy := Ops.coef s.dev 0 * Ops.chunks64 fr.length } ∧ fec ∧
        d.nextUnit = s.dev.nextUnit + 1 ∧ d.tmg.used = s.dev.tmg.used + cells ∧
        (∀ v, v ≠ s.dev.nextUnit → Ops.unit? d v = Ops.unit? s.dev v) ∧
        Ops.ctr d (Ctr.prtRxFrames n) = (Ops.ctr s.dev (Ctr.prtRxFrames n) + 1) % 2 ^ 64)) ∧
  (∀ (s : State) (u : Nat) (ok : Bool), Awake s →
    Does (.fcsCheck u ok) s fun d =>
      { d with units := s.dev.units } = s.dev ∧ (∀ v, v ≠ u → Ops.unit? d v = Ops.unit? s.dev v) ∧
      (∀ r n, Ops.unit? s.dev u = some r → r.kind = .inline n → r.fcs = none →
        Ops.unit? d u = some { r with fcs := some (ok && !r.fecBad) }) ∧
      (∀ r, Ops.unit? s.dev u = some r → (∀ n, r.kind ≠ .inline n) ∨ r.fcs ≠ none → Ops.unit? d u = some r))

/-- The first pass of a unit up to its features, and the start of a later one (R18, R23, R26, R27, R73, R85 to R87, R96 to R102, R117, R126,
R380): stage 2 gives context and epoch and parses, the governing rule names slot and tenant; one lookup at the release time hits, learns or
leaves the unit unlearned; the window point runs the model's program. -/
def Obligations.UnitsWalkTheirPass : Prop :=
  (∀ (s : State) (u n : Nat) (r : UnitRec), Awake s → Ops.unit? s.dev u = some r → r.kind = .inline n → r.stage = .arrived →
    Ops.moving s.dev = true → Ops.gateOn s.dev 6 = true → s.dev.epochs ≠ [] → u ∉ s.dev.stm.fifo → Ops.ctxFree s.dev = 0 →
    Does (.parseStart u) s fun d =>
      Ops.unit? d u = none ∧ d.tmg.used = s.dev.tmg.used - r.cells ∧
      Ops.ctr d (Ctr.prtRxCtxDrop n) = (Ops.ctr s.dev (Ctr.prtRxCtxDrop n) + 1) % 2 ^ 64) ∧
  (∀ (s : State) (u : Nat) (r : UnitRec) (node : Fld) (inl : Bool), Awake s → Ops.unit? s.dev u = some r → r.stage = .arrived →
    Ops.moving s.dev = true → Ops.gateOn s.dev 6 = true → s.dev.epochs ≠ [] → u ∉ s.dev.stm.fifo →
    (inl = true ∧ 0 < Ops.ctxFree s.dev ∧ ∃ n, r.kind = .inline n ∧ node = Reg.prsStartPortNode n) ∨
      (inl = false ∧ ∃ t a k, r.kind = .stem t a k ∧
        node = if k then Reg.prsStartStemPKeyNode r.pipe else Reg.prsStartStemPHeaderNode r.pipe) →
    Does (.parseStart u) s fun d =>
      let x := Ops.curNum s.dev
      let p := Parse.parse ((Ops.curCfg s.dev).graphs.getD r.pipe default) inl r.bytes (Ops.epF s.dev x node)
      let rule := (Parse.govern s.dev.tcam s.dev.em ((Ops.cfgOf s.dev x).miss.getD r.pipe 0)
        ((Ops.cfgOf s.dev x).graphs.getD r.pipe default) x (Ops.metaOf r) p).1
      ∃ q, Ops.unit? d u = some q ∧ q.stage = .parsed ∧ q.epoch = x ∧ q.skel = Ops.skeleton s.dev ∧
        (inl = true → q.hasCtx = true ∧ q.ctxT = Ops.now s.dev) ∧ (inl = false → q.hasCtx = r.hasCtx) ∧
        q.rules = [rule] ∧ q.slot0 = Rule.slot rule ∧ q.slot = Rule.slot rule ∧ q.tenant = Ops.slotTenant s.dev (Rule.slot rule) ∧
        q.parse = { p with cls := if p.trunc = true ∧ p.cls = none ∧ Ops.truncMapped s.dev q.tenant = true then some 15 else p.cls } ∧
        q.flags = (r.flags ||| (if p.trunc then 8 else 0)) ||| (if q.parse.cls.isSome then 4 else 0) ∧
        (∀ c, q.parse.cls = some c → q.malCode = some (Ops.malAct s.dev q.tenant c)) ∧
        q.release = r.evT + Ops.horizon s.dev ∧ q.arrT = Ops.now s.dev ∧ q.orderLate = decide (q.release < q.arrT) ∧
        (∀ v, v ≠ u → Ops.unit? d v = Ops.unit? s.dev v)) ∧
  (∀ (s : State) (u : Nat) (r : UnitRec), Awake s → Ops.unit? s.dev u = some r →
    r.stage ≠ .parsed ∨ r.pass ≠ 0 ∨ Ops.now s.dev < r.release ∨
      (∃ p ∈ s.dev.units, Ops.lookupDue s.dev p.2 = true ∧ Ops.lexLt (Ops.bankKey p.2) (Ops.bankKey r) = true) →
    Does (.flowLookup u) s fun d => Ops.unit? d u = some r ∧ d.flw = s.dev.flw) ∧
  (∀ (s : State) (u : Nat) (r : UnitRec), Awake s → Ops.unit? s.dev u = some r → r.stage = .parsed → r.pass = 0 →
    Ops.moving s.dev = true → Ops.gateOn s.dev 7 = true → r.release ≤ Ops.now s.dev →
    (∀ p ∈ s.dev.units, Ops.lookupDue s.dev p.2 = true → Ops.lexLt (Ops.bankKey p.2) (Ops.bankKey r) = false) →
    Does (.flowLookup u) s fun d =>
      let m := Ops.modelOf s.dev r.epoch r.slot0
      let none' := r.skel = true ∨ r.expired = true ∨ m.all (·.flowProfile == 15) = true
      (none' → ∃ q, Ops.unit? d u = some q ∧ q.stage = .looked ∧ q.flow = none ∧ q.entry = r.entry ∧ q.flags = r.flags ∧
        { d with units := s.dev.units } = s.dev) ∧
      (∀ md, m = some md → ¬none' → Ops.steers s.dev r = false →
        let g := Ops.graphOf s.dev r
        let key := Ops.flowKey g md.flowProfile r.tenant r.parse
        (∀ w, w < 4 → EntLands s.dev (4 * Ops.bucketOf s.dev key + w)) →
        (∀ i e, Ops.lookup s.dev key = some i → Ops.ent? s.dev i = some e → EntLands s.dev i →
          Ops.ctr d Ctr.flwHit = (Ops.ctr s.dev Ctr.flwHit + 1) % 2 ^ 64 ∧
          (∃ q, Ops.unit? d u = some q ∧ q.stage = .looked ∧ q.entry = some (i, Ops.genOf s.dev i) ∧
            q.flow = some (Ops.flowItems s.dev i e r.evT) ∧ q.cache = (Ops.sideOf s.dev i).cache ∧ q.flags = r.flags ∧
            q.cpuState = decide (e.cstate = 3)) ∧
          (Ops.standby s.dev = true → Ops.ent? d i = some e ∧ d.flw.sides = s.dev.flw.sides) ∧
          (Ops.standby s.dev = false → ∃ e', Ops.ent? d i = some e' ∧
            e' = { (Ops.contest s.dev e r.src r.evT).1 with
              lastSeen := Ops.seenAt s.dev r.evT, stateOwned := e'.stateOwned, stateSlot := e'.stateSlot } ∧
            (Ops.sideOf d i).pkts = min ((Ops.sideOf s.dev i).pkts + 1) 0xFFFFFFFF) ∧
          ∀ j, j ≠ i → Ops.ent? d j = Ops.ent? s.dev j) ∧
        (Ops.lookup s.dev key = none → Ops.standby s.dev = false → (g.fprofs.getD md.flowProfile default).learn = true →
          ∀ i, Ops.place s.dev key = .inl i → EntLands s.dev i →
          Ops.ctr d Ctr.flwLearn = (Ops.ctr s.dev Ctr.flwLearn + 1) % 2 ^ 64 ∧
          (∃ q, Ops.unit? d u = some q ∧ q.stage = .looked ∧ q.entry = some (i, Ops.genOf s.dev i) ∧
            q.flow = some Ops.learnItems ∧ q.learned = true) ∧
          (∃ e', Ops.ent? d i = some e' ∧ e' = { Ops.learnt s.dev key r.evT r.src r.epoch with
            stateOwned := e'.stateOwned, stateSlot := e'.stateSlot }) ∧
          Ops.sideOf d i = ⟨0, 0, 0⟩ ∧ d.flw.logSeq = s.dev.flw.logSeq + 1 ∧ ∀ j, j ≠ i → Ops.ent? d j = Ops.ent? s.dev j) ∧
        (Ops.lookup s.dev key = none → Ops.standby s.dev = true ∨ (g.fprofs.getD md.flowProfile default).learn = false ∨
            (∃ e, Ops.place s.dev key = .inr e) →
          (∃ q, Ops.unit? d u = some q ∧ q.stage = .looked ∧ q.entry = r.entry ∧ q.flow = none ∧ q.flags = r.flags ||| 32) ∧
          d.flw.ents = s.dev.flw.ents ∧ d.flw.logSeq = s.dev.flw.logSeq)) ∧
      (∀ md, m = some md → ¬none' → Ops.steers s.dev r = true →
        let e := Ops.getD s.dev.trl.steer (Ops.steerIdx s.dev (Ops.flowKey (Ops.graphOf s.dev r) md.flowProfile r.tenant r.parse)) 0
        Ops.bit e 3 = true → e % 8 ≠ Ops.ownId s.dev →
        (∃ q, Ops.unit? d u = some q ∧ q.stage = .inferred ∧ q.entry = r.entry) ∧ Ops.isAway d u = true ∧
        d.flw.ents = s.dev.flw.ents)) ∧
  (∀ (s : State) (u : Nat) (r : UnitRec), Awake s → Ops.unit? s.dev u = some r → r.stage = .looked → Ops.moving s.dev = true →
    Ops.gateOn s.dev 8 = true →
    (if r.orderLate then r.arrT else r.release) + Ops.rd s.dev Reg.feaWinCfgOffset ≤ Ops.now s.dev → Ops.windowBehind s.dev r = false →
    Does (.windowAccess u) s fun d =>
      let y := match r.learned, r.entry with | true, some (i, _) => Ops.clearCells s.dev r.tenant i | _, _ => s.dev
      ∃ q, Ops.unit? d u = some q ∧ q.stage = .featured ∧
        (Ops.modelOf s.dev r.epoch r.slot0 = none ∨ r.skel = true ∨ r.expired = true → q.feats = [] ∧ d.mem = y.mem) ∧
        (∀ m, Ops.modelOf s.dev r.epoch r.slot0 = some m → r.skel = false → r.expired = false →
          let pre := Fea.run (Ops.feaEnv r []) m.progFirst.pre []
          let w := Ops.winAll y r pre.2 pre.1
          let fs := (Fea.run (Ops.feaEnv r w.2.2) m.progFirst.post w.2.1).1
          q.feats = fs ∧ q.feats0 = fs ∧ q.winRes = w.2.2 ∧ d.mem = w.1.mem ∧ d.flw = s.dev.flw ∧
          ∀ x ∈ d.runQueue, x.unit = u → x.ready = false → False)) ∧
  (∀ (s : State) (u : Nat) (r : UnitRec), Awake s → Ops.unit? s.dev u = some r → r.stage = .waiting → Ops.moving s.dev = true →
    Ops.gateOn s.dev 6 = true →
    Does (.recircEntry u) s fun d =>
      let rule := (Parse.govern s.dev.tcam s.dev.em ((Ops.cfgOf s.dev r.epoch).miss.getD r.pipe 0) (Ops.graphOf s.dev r) r.epoch
        (Ops.metaOf { r with pass := r.pass + 1 }) r.parse).1
      ∃ q, Ops.unit? d u = some q ∧ q.stage = .featured ∧ q.pass = r.pass + 1 ∧ q.rules = r.rules ++ [rule] ∧ q.slot = r.slot ∧
        q.parse = r.parse ∧ q.res = .none ∧ q.state = r.carry ∧ q.entry = r.entry ∧
        (Ops.modelOf s.dev r.epoch r.slot = none ∨ r.skel = true ∨ r.expired = true → q.feats = []) ∧
        (∀ m, Ops.modelOf s.dev r.epoch r.slot = some m → r.skel = false → r.expired = false →
          q.feats = (Fea.run (Ops.feaEnv q r.winRes) (m.progLater.pre ++ m.progLater.post) []).1) ∧
        d.flw = s.dev.flw)

/-- Recurrent turns and the inference of a pass (R21, R106 to R108, R177, R211, R215, R223): a turn starts at its read time from the state that
stands then; what it computes waits for its landing time, and lands unless the entry has gone; a turn that fails or a unit that is lost writes
nothing. A pass computes its result, or has none. -/
def Obligations.TurnsAndInferenceRun : Prop :=
  (∀ (s : State) (u : Nat) (f : Option PassFault) (r : UnitRec), Awake s → Ops.unit? s.dev u = some r → r.stage ≠ .featured →
    Does (.turnStart u f) s fun d => Ops.unit? d u = some r ∧ d.flw = s.dev.flw) ∧
  (∀ (s : State) (u : Nat) (f : Option PassFault) (r : UnitRec) (x : Nat) (granted : Bool) (m : Model) (t : TurnDesc) (old : Bytes),
    Awake s → Ops.unit? s.dev u = some r → r.turn = some (x, granted) → Ops.modelOf s.dev r.epoch r.slot0 = some m →
    m.turn = some t → r.stage = .featured → r.pass = 0 → r.readOf = none → Ops.moving s.dev = true →
    x + Ops.rd s.dev Reg.mxtTurnCfgOffset ≤ Ops.now s.dev → Ops.oldState s.dev r x = some old →
    Does (.turnStart u f) s fun d =>
      let none' := ∀ i g, r.entry = some (i, g) → ∀ w ∈ Ops.getD d.flw.pend i [], w.unit ≠ u
      let stops := (Ops.lost s.dev r m).1 = true ∨ (∃ l, f = some (.lane l)) ∨ ∃ k, f = some (.unit k)
      let y := Ops.modUnit (Ops.recordFault s.dev m r.pipe f) u fun q => { q with carry := old }
      let w := Ops.passStart y m r.pipe r.slot (Ops.passSec m r.pass) r.feats ⟨old, false⟩ r.carried (Ops.partMargins s.dev r m) r.vecs
      let new := (Ops.runTurn w m t r.pipe r.slot r.feats old).2.1
      d.flw.ents = s.dev.flw.ents ∧ ∃ q, Ops.unit? d u = some q ∧ q.stage = .turning ∧
        (stops → q.failed = true ∧ q.carry = old ∧ none') ∧ (¬stops → w.broken = true → q.failed = true ∧ none') ∧
        (¬stops → w.broken = false → q.failed = false ∧ q.state = new ∧
          q.carry = (if granted then new else old) ∧
          (granted = true → ∀ i g, r.entry = some (i, g) → ∀ p ∈ Ops.getD d.flw.pend i [], p.unit = u → p.val = some new))) ∧
  (∀ (s : State) (u : Nat), Awake s →
    Does (.turnWriteLand u) s fun d =>
      let found := s.dev.flw.pend.findSome? fun p => (p.2.find? fun w => w.unit == u).map fun w => (p.1, w)
      let may := Ops.moving s.dev = true ∧ Ops.gateOn s.dev 7 = true
      let delay := Ops.rd s.dev Reg.mxtTurnCfgOffset
      (¬may → d = s.dev) ∧ (NoneDue s.dev → found = none → d = s.dev) ∧
      (∀ i w, NoneDue s.dev → found = some (i, w) → Ops.now s.dev < w.land + delay ∨ w.val = none → d = s.dev) ∧
      (∀ i w v, may → NoneDue s.dev → found = some (i, w) → w.land + delay ≤ Ops.now s.dev → w.val = some v →
        (∀ x ∈ Ops.getD d.flw.pend i [], x.unit ≠ u) ∧ (∀ j, j ≠ i → Ops.ent? d j = Ops.ent? s.dev j) ∧
        (Ops.ent? s.dev i = none ∨ w.gen ≠ Ops.genOf s.dev i ∨ Ops.standby s.dev = true →
          d.flw.ents = s.dev.flw.ents ∧ d.ctrs = s.dev.ctrs) ∧
        (∀ e, Ops.ent? s.dev i = some e → w.gen = Ops.genOf s.dev i → Ops.standby s.dev = false → EntLands s.dev i →
          Ops.ent? d i = some { e with state := v } ∧ Ops.ctr d Ctr.mxtTurnWrite = (Ops.ctr s.dev Ctr.mxtTurnWrite + 1) % 2 ^ 64))) ∧
  (∀ (s : State) (u : Nat) (f : Option PassFault) (r : UnitRec), Awake s → Ops.unit? s.dev u = some r →
    Does (.inferenceStage u f) s fun d =>
      let ready := r.stage = .turning ∨
        (r.stage = .featured ∧ r.readOf = none ∧ (r.turn = none ∨ r.pass ≠ 0 ∨ Ops.infers r = false))
      (¬ready ∨ Ops.moving s.dev = false → Ops.unit? d u = some r) ∧
      (ready → Ops.moving s.dev = true → d.flw.ents = s.dev.flw.ents ∧ ∃ q, Ops.unit? d u = some q ∧ q.stage = .inferred ∧
        (Ops.unitModel s.dev r = none ∨ Ops.infers r = false → q.res = r.res ∧ q.failed = r.failed) ∧
        (∀ m, Ops.unitModel s.dev r = some m → Ops.infers r = true → (Ops.lost s.dev r m).1 = true ∨ (∃ k, f = some (.unit k)) →
          q.failed = true ∧ q.res = .none) ∧
        (∀ m, Ops.unitModel s.dev r = some m → Ops.infers r = true → (Ops.lost s.dev r m).1 = false → (∀ k, f ≠ some (.unit k)) →
          let y := Ops.recordFault s.dev m r.pipe f
          let st : Ops.StateIn := ⟨r.state, r.poisonState⟩
          let a := if r.stage = .turning then Ops.workOf y r m
            else Ops.passStart y m r.pipe r.slot (Ops.passSec m r.pass) r.feats st r.carried (Ops.partMargins s.dev r m) r.vecs
          let w := if a.broken then a else Ops.passRest a m r.pipe r.slot (Ops.passSec m r.pass) r.feats st
          q.res = (if w.broken then .none else Ops.passRes m w) ∧ q.failed = (r.failed || w.broken) ∧ q.vecs = w.e.vecs)))

/-- The end of a pass (R17 to R21, R42, R55, R78, R87, R88, R279, R292 to R295, R303): the next pass of the schedule or of the next slot,
or the record: by expiry, the rule, a malformed code, the default verdict where a result is missing, the map, another member's RESULT. A deepened unit
whose next stage another member runs waits for it. A Stem request keeps its record for its response; an inline packet waits for its FCS result, leaves for its queue at the time that R17 and R18 fix, or is dropped. -/
def Obligations.VerdictsAreFormed : Prop :=
  ∀ (s : State) (u : Nat) (full : Bool) (r : UnitRec), Awake s → Ops.unit? s.dev u = some r →
    Does (.verdictForm u full) s fun d =>
      let code := r.malCode.getD 0
      let inf := Rule.infer (Ops.firstRule r)
      let early := r.pass = 0 ∧ (inf = false ∨ code = 1 ∨ code = 2 ∨ code = 4)
      let runs := r.expired = false ∧ r.verdict = none ∧ ¬early ∧ ¬(r.pass = 0 ∧ code = 3) ∧ Ops.missing s.dev r u = false
      let default' := fun k => (Ops.defaultOf s.dev r k).2
      let again := fun (k : Nat) => ∃ m, runs ∧ Ops.unitModel s.dev r = some m ∧ r.res ≠ .nan ∧
        ((r.pass + 1 < m.passes ∧ k = r.slot) ∨
          (m.passes ≤ r.pass + 1 ∧ r.pass < 2 ∧ Ops.activeIn s.dev r.epoch k r.pipe = true ∧
            ∃ c x, r.res = .score c x ∧ (Ops.mapVerdict s.dev r c x).2 = some k))
      let ended := fun (v : Verdict) (fl : Nat) =>
        (r.expired = true ∧ v = (Ops.expiryVerdict s.dev r).2 ∧ fl = 16) ∨
        (r.expired = false ∧ r.verdict = some v ∧ fl = v.flags) ∨
        (r.expired = false ∧ r.verdict = none ∧
          ((early ∧ v = Ops.ruleVerdict s.dev r code ∧ fl = 0) ∨
           (¬early ∧ r.pass = 0 ∧ code = 3 ∧ v = default' r.slot0 ∧ fl = 0) ∨
           (¬early ∧ ¬(r.pass = 0 ∧ code = 3) ∧ Ops.missing s.dev r u = true ∧ v = default' r.slot ∧ fl = 2))) ∨
        (runs ∧ r.res = .nan ∧ v = default' r.slot ∧ fl = 64) ∨
        (full = true ∧ ∃ k, again k ∧ v = default' k ∧ fl = 2) ∨
        (∃ m, runs ∧ Ops.unitModel s.dev r = some m ∧ m.passes ≤ r.pass + 1 ∧ r.res = .none ∧ v = default' r.slot ∧ fl = 2) ∨
        (∃ m c x, runs ∧ Ops.unitModel s.dev r = some m ∧ m.passes ≤ r.pass + 1 ∧ r.res = .score c x ∧
          ((Ops.mapVerdict s.dev r c x = (v, none) ∧ Ops.bit r.cache 0 = false ∧ fl = 0) ∨
            (∃ k, (Ops.mapVerdict s.dev r c x).2 = some k ∧ (2 ≤ r.pass ∨ Ops.activeIn s.dev r.epoch k r.pipe = false) ∧
              v = default' r.slot ∧ fl = 2)))
      let may := r.stage ≠ .arrived ∧ r.stage ≠ .waiting ∧ r.stage ≠ .done ∧ Ops.moving s.dev = true ∧ Ops.gateOn s.dev 13 = true
      let plain := r.cpuState = false ∧ ∀ x ∈ r.rules, Rule.policerEn x = false ∧ Rule.mirrorEn x = false
      (¬may → Ops.unit? d u = some r) ∧
      (∀ p l h, may → r.kind = .handover p l h false → Ops.unit? d u = none) ∧
      (∀ m n, may → (∀ p l h, r.kind ≠ .handover p l h false) → (∀ x, r.kind ≠ .job x) → Ops.handsOn s.dev u r = some (m, n) →
        Ops.isAway d u = true ∧ ∃ q, Ops.unit? d u = some q ∧ q.hopped = true ∧ q.stage = r.stage ∧ q.flags = r.flags) ∧
      (may → (∀ p l h, r.kind ≠ .handover p l h false) → (∀ x, r.kind ≠ .job x) → Ops.handsOn s.dev u r = none →
        (∀ k, again k → full = false → ∃ q, Ops.unit? d u = some q ∧ q.stage = .waiting ∧ q.slot = k ∧ q.prevSlot = r.slot ∧
          q.flags = r.flags ∧ q.pass = r.pass) ∧
        (∀ v fl t a k, ended v fl → r.kind = .stem t a k → r.late = false → plain ∨ r.expired = true →
          v.compat = false ∨ r.expired = true →
          ∃ q, Ops.unit? d u = some q ∧ q.stage = .done ∧
            q.verdict = some { v with flags := r.flags ||| fl, epoch := r.epoch, tag := t }) ∧
        (∀ v fl n, ended v fl → r.kind = .inline n → r.fcs = none → Ops.unit? d u = some r ∧ d.tmg = s.dev.tmg) ∧
        (∀ v fl n, ended v fl → r.kind = .inline n → r.fcs = some false → Ops.unit? d u = none ∧
          d.tmg.queues = s.dev.tmg.queues ∧ Ops.ctr d (Ctr.prtRxErr n) = (Ops.ctr s.dev (Ctr.prtRxErr n) + 1) % 2 ^ 64) ∧
        (∀ v fl n, ended v fl → r.kind = .inline n → r.fcs = some true → plain → v.compat = false →
          Parse.deferFail r.parse.defer r.len = none ∨ r.parse.cls.isSome = true → v.action = 0 →
          Ops.enqueueFail s.dev v.queue r.len v.colour r.tenant false = none →
          Ops.unit? d u = none ∧ ∃ pk, (Ops.queue d v.queue).pkts = (Ops.queue s.dev v.queue).pkts ++ [pk] ∧ pk.unit = u ∧
            pk.bytes = r.bytes ∧ pk.len = r.len ∧ pk.colour = v.colour ∧
            (full = false →
              pk.due = r.evT + 1600 + 800 * r.pass + ((if Ops.steers s.dev r then 3200 else 0) + 1600 * r.hops))))

/-- Egress and pauses (R41, R43, R45, R302, R305 to R309): a port that can start a frame sends the head packet of an eligible queue whose nodes let it
send, and the queue's shaper is charged; a PFC frame sets, restarts or ends the pauses of its priorities, and a pause runs out; while a condition holds,
every pausing port repeats its XOFF. -/
def Obligations.FramesLeaveAndPause : Prop :=
  (∀ (s : State) (n : Port), Awake s →
    Does (.egressSelect n) s fun d =>
      let may := Ops.moving s.dev = true ∧ Ops.gateOn s.dev 14 = true ∧ Ops.gateOn s.dev 4 = true ∧ Ops.portUp s.dev n = true
      (¬may ∨ Ops.schedule s.dev n = none → d = Ops.pfcCheck s.dev) ∧
      (∀ path par c rest, may → Ops.schedule s.dev n = some path → path.getLast? = some (par, c, rest) →
        Ops.qEligible s.dev c.key n = true ∧
        (∃ a b e, Ops.qChain s.dev c.key = some (a, b, e, n.val) ∧ Ops.nOpen s.dev (Ops.nodeNo 3 a) = true ∧
          Ops.nOpen s.dev (Ops.nodeNo 2 b) = true ∧ Ops.nOpen s.dev (Ops.nodeNo 1 e) = true) ∧
        ∀ h tl, (Ops.queue s.dev c.key).pkts = h :: tl →
          (.frame n h.bytes true :: s.dev.out) <:+ d.out ∧ (Ops.queue d c.key).pkts = tl ∧
          (∀ q, q ≠ c.key → (Ops.queue d q).pkts = (Ops.queue s.dev q).pkts) ∧
          (Ops.queue d c.key).tokens = Ops.qTokens s.dev c.key - (h.len * 8000000 : Nat) ∧
          (Ops.queue d c.key).tokT = Ops.now s.dev)) ∧
  (∀ (s : State) (n : Port) (enable : Nat) (quanta : List Nat) (ok : Bool), Awake s →
    Does (.pfcFrameReceive n enable quanta ok) s fun d =>
      let may := Ops.portUp s.dev n = true ∧ Ops.gateOn s.dev 4 = true
      (¬may → d = s.dev) ∧
      (may → ok = false → RegsCtrsOnly s.dev d [] [Ctr.prtRxErr n] ∧
        Ops.ctr d (Ctr.prtRxErr n) = (Ops.ctr s.dev (Ctr.prtRxErr n) + 1) % 2 ^ 64) ∧
      (may → ok = true → { d with tmg := { d.tmg with paused := s.dev.tmg.paused } } = s.dev ∧
        ∀ m k, k < 8 → Ops.find? d.tmg.paused (8 * m + k) =
          if m = n.val ∧ Ops.bit enable k = true then
            (if quanta.getD k 0 = 0 then none else some (Ops.now s.dev + quanta.getD k 0 * 512 / Ops.portGb s.dev))
          else Ops.find? s.dev.tmg.paused (8 * m + k))) ∧
  (∀ (s : State) (n : Port) (k : Nat), Awake s →
    Does (.pfcPauseExpire n k) s fun d =>
      let e := Ops.find? s.dev.tmg.paused (8 * n.val + k)
      (e = none ∨ (∃ t, e = some t ∧ Ops.now s.dev < t) → d = s.dev) ∧
      (∀ t, e = some t → t ≤ Ops.now s.dev → Ops.find? d.tmg.paused (8 * n.val + k) = none ∧
        (∀ j, j ≠ 8 * n.val + k → Ops.find? d.tmg.paused j = Ops.find? s.dev.tmg.paused j) ∧
        { d with tmg := { d.tmg with paused := s.dev.tmg.paused } } = s.dev)) ∧
  (∀ s : State, Awake s →
    Does .pfcXoffRepeat s fun d =>
      let ctx := Ops.gateOn s.dev 4 && Ops.pauseCond (Ops.ctxFree s.dev) (Ops.rd s.dev Reg.prtPfcCfg0XoffFree)
        (Ops.rd s.dev Reg.prtPfcCfg1XonFree) s.dev.tmg.xoffCtx
      let cell := decide (s.dev.tmg.cells ≠ 0) && Ops.pauseCond (Ops.cellsFree s.dev) (Ops.rd s.dev Reg.tmgBufCfg0XoffFree)
        (Ops.rd s.dev Reg.tmgBufCfg1XonFree) s.dev.tmg.xoffCell
      d.tmg = { s.dev.tmg with xoffCtx := ctx, xoffCell := cell } ∧ d.units = s.dev.units ∧ d.mem = s.dev.mem ∧ d.regs = s.dev.regs ∧
      (s.dev.tmg.xoffCtx = ctx → s.dev.tmg.xoffCell = cell →
        (ctx = false → cell = false → d = s.dev) ∧
        (ctx = true ∨ cell = true → CtrsKept s.dev d ((Ops.pausingPorts s.dev).map Ctr.prtTxPfcXoff) ∧
          ∀ n ∈ Ops.pausingPorts s.dev, .pfc n (Ops.rd s.dev (Reg.prtPortCtlPfcEn n)) 0xFFFF ∈ d.out ∧
            Ops.ctr d (Ctr.prtTxPfcXoff n) = (Ops.ctr s.dev (Ctr.prtTxPfcXoff n) + 1) % 2 ^ 64)))

/-- Hand-overs, samples and snapshots of the traffic manager and the tensor records (R163, R166, R167, R301, R308, R310, R311): at the end of a
shaping interval every shadow becomes active, a policer fills at its first one with bursts and is else clamped, a queue's tokens are brought up to
date; a sample adds each sampled queue's depth; a snapshot shows one record, and CLEAR zeroes it; a hold acts in every pipe. -/
def Obligations.HandoversAndSnapshots : Prop :=
  (∀ s : State, Awake s → Ops.gateOn s.dev 14 = false → Does .shapingIntervalEnd s fun d => d = s.dev) ∧
  (∀ s : State, Awake s → Ops.gateOn s.dev 14 = true →
    Does .shapingIntervalEnd s fun d =>
      let armed := fun (fs : List Fld) x => ∃ f ∈ fs, Ops.find? s.dev.shadow (Ops.objF x f).key ≠ none
      (∀ f ∈ Ops.polFields ++ Ops.queueFields ++ Ops.nodeFields, ∀ x, Ops.find? d.shadow (Ops.objF x f).key = none ∧
        Ops.rd d (Ops.objF x f) = match Ops.find? s.dev.shadow (Ops.objF x f).key with
          | some v => v % 2 ^ f.w
          | none => Ops.rd s.dev (Ops.objF x f)) ∧
      (∀ x, ¬armed Ops.polFields x → Ops.polOf d x = Ops.polOf s.dev x) ∧
      (∀ x, armed Ops.polFields x →
        let cbs := Ops.rd d (Ops.objF x Reg.tmgPolCbsBytes)
        let pbs := Ops.rd d (Ops.objF x Reg.tmgPolPbsBytes)
        let p := Ops.polOf s.dev x
        Ops.polOf d x = if p.filled = false ∧ cbs ≠ 0 ∧ pbs ≠ 0 then
            { tc := cbs * 8000000, tp := pbs * 8000000, last := Ops.now s.dev, filled := true }
          else { p with tc := min p.tc (cbs * 8000000), tp := min p.tp (pbs * 8000000) }) ∧
      (∀ q, (Ops.queue d q).pkts = (Ops.queue s.dev q).pkts) ∧
      (∀ q, armed Ops.queueFields q → (Ops.queue d q).tokT = Ops.now s.dev ∧
        (Ops.queue d q).tokens = min (Ops.qTokens s.dev q) (Ops.qRd d q Reg.tmgQShapeBurstBurst * 8000000 : Nat)) ∧
      d.units = s.dev.units ∧ d.mem = s.dev.mem ∧ d.ctrs = s.dev.ctrs) ∧
  (∀ s : State, Awake s → Ops.gateOn s.dev 14 = false ∨ Ops.rdB s.dev Reg.tmgSampleCfgEnable = false →
    Does .queueDepthSample s fun d => d = s.dev) ∧
  (∀ s : State, Awake s → Ops.gateOn s.dev 14 = true → Ops.rdB s.dev Reg.tmgSampleCfgEnable = true → (Ops.sampledQueues s.dev).Nodup →
    Does .queueDepthSample s fun d =>
      (∀ q ∈ Ops.sampledQueues s.dev, let x := Ops.queue s.dev q
        Ops.queue d q = { x with depthSum := min (x.depthSum + Ops.qDepth x) (2 ^ 64 - 1), depthN := min (x.depthN + 1) (2 ^ 64 - 1) }) ∧
      (∀ q, q ∉ Ops.sampledQueues s.dev → Ops.queue d q = Ops.queue s.dev q) ∧
      { d with tmg := { d.tmg with queues := s.dev.tmg.queues } } = s.dev) ∧
  (∀ (s : State) (fn : Fn) (data : Word) (clear : Bool) (i : Instr), Awake s → Arrives s.dev fn 0x00E00410 true →
    i = (if clear then .queueSnapshotClear fn data else .queueSnapshot fn data) →
    Does i s fun d =>
      let q := data.toNat % 2 ^ 20
      let mine := Ops.tenantOf fn = 0 ∨ Ops.qRd s.dev q Reg.tmgQCfg0Owner = fn
      let x := if mine then Ops.queue s.dev q else default
      let r := fun f => Ops.rd d (Ops.portF (Ops.copyNo fn) f)
      r Reg.tmgQsSelQueue = q ∧ r Reg.tmgQsDepthBytes = min (Ops.qDepth x) 0xFFFFFFFF ∧ r Reg.tmgQsMaxdBytes = min x.maxd 0xFFFFFFFF ∧
      r Reg.tmgQsSojmaxNs = min x.sojMax 0xFFFFFFFF ∧
      (∀ k, k < 7 → r (Reg.tmgQsValWord (2 * k)) + 2 ^ 32 * r (Reg.tmgQsValWord (2 * k + 1)) =
        [x.depthSum, x.depthN, x.sojSum, x.sojN, x.enqPkts, x.enqBytes, x.dropPkts].getD k 0 % 2 ^ 64) ∧
      (clear = false ∨ ¬mine → d.tmg = s.dev.tmg) ∧
      (clear = true → mine → Ops.queue d q = { x with
          maxd := 0, depthSum := 0, depthN := 0, sojMax := 0, sojSum := 0, sojN := 0, enqPkts := 0, enqBytes := 0, dropPkts := 0 } ∧
        ∀ j, j ≠ q → Ops.queue d j = Ops.queue s.dev j) ∧
      { d with tmg := s.dev.tmg, regs := s.dev.regs } = s.dev) ∧
  (∀ (s : State) (fn : Fn) (data : Word), Awake s → Arrives s.dev fn 0x00900080 true →
    Does (.qntHold fn data) s fun d =>
      let slot := Ops.bits data.toNat 0 8
      let t := Ops.bits data.toNat 8 8
      let ok := fun (m : Model) => Ops.find? (Ops.curCfg s.dev).models slot = some m ∧ Ops.ownsSlot s.dev fn slot = true ∧
        t < m.tensors.length
      (∀ m, ok m → { d with qnt := s.dev.qnt } = s.dev ∧
        (∀ p, p < 8 → Ops.find? d.qnt (Ops.recKey m p t) =
          (Ops.find? s.dev.qnt (Ops.recKey m p t)).map fun r => { r with held := Ops.bit data.toNat 16 }) ∧
        ∀ k, (∀ p, p < 8 → k ≠ Ops.recKey m p t) → Ops.find? d.qnt k = Ops.find? s.dev.qnt k) ∧
      ((∀ m, ¬ok m) → Ops.rd d (Ops.portF (Ops.copyNo fn) Reg.qntHoldStatRej) = 1 ∧
        Ops.ctr d Ctr.qntHoldRej = (Ops.ctr s.dev Ctr.qntHoldRej + 1) % 2 ^ 64 ∧
        RegsCtrsOnly s.dev d [(Ops.portF (Ops.copyNo fn) Reg.qntHoldStatRej).key] [Ctr.qntHoldRej])) ∧
  (∀ (s : State) (fn : Fn) (data : Word) (clear : Bool) (i : Instr), Awake s → Arrives s.dev fn 0x00900000 true →
    i = (if clear then .qntSnapshotClear fn data else .qntSnapshot fn data) →
    Does i s fun d =>
      let x := data.toNat
      let r := fun f => Ops.rd d (Ops.portF (Ops.copyNo fn) f)
      let sel := Ops.qntSelect s.dev fn x
      r Reg.qntSelPipe = Ops.bits x 0 3 ∧ r Reg.qntSelSlot = Ops.bits x 3 8 ∧ r Reg.qntSelTensor = Ops.bits x 11 8 ∧
      (sel = none → r Reg.qntTsStatValid = 0 ∧ d.qnt = s.dev.qnt) ∧
      (∀ k t, sel = some (k, t) → r Reg.qntTsStatValid = 1 ∧ r Reg.qntTsStatScale = Ops.uns 6 t.scale % 2 ^ 6 ∧
        r Reg.qntTsStatHeld = (if t.held then 1 else 0) ∧ r Reg.qntTsStatAdapt = (if t.desc.adapt then 1 else 0) ∧
        r Reg.qntTsStatFmt = t.desc.fmt % 16 ∧ r Reg.qntTsStatAmaxZero = (if t.amax = none then 1 else 0) ∧
        (∀ e, t.amax = some e → r Reg.qntTsStatAmaxE = Ops.uns 9 e % 2 ^ 9) ∧
        r Reg.qntTsIntvDone = t.count % 2 ^ 21 ∧ r Reg.qntTsIsatSat = t.isat % 2 ^ 21 ∧
        (∀ j, j < 6 → r (Reg.qntTsValWord (2 * j)) + 2 ^ 32 * r (Reg.qntTsValWord (2 * j + 1)) =
          [t.sat, t.nanZero, t.flush, t.range, t.sse, t.mseCnt].getD j 0 % 2 ^ 64) ∧
        (clear = false → d.qnt = s.dev.qnt) ∧
        (clear = true → Ops.find? d.qnt k = some { t with sat := 0, nanZero := 0, flush := 0, range := 0, sse := 0, mseCnt := 0 } ∧
          ∀ j, j ≠ k → Ops.find? d.qnt j = Ops.find? s.dev.qnt j)) ∧
      d.tmg = s.dev.tmg ∧ d.mem = s.dev.mem ∧ d.ctrs = s.dev.ctrs)

/-- Samples and watchdogs (R483 to R488): a sample record goes whole into the ring, or is counted as lost; a watchdog whose condition holds sets
HANG once, with its snapshot, or marks it skipped; a written snapshot sets SNAP_DONE; with FREEZE_ON_HANG a freeze follows. That the ring keeps one
unit free is the model's choice (log entry 9). -/
def Obligations.LoupeSamplesAndWatches : Prop :=
  (∀ s : State, Awake s → Ops.lpeOn s.dev = false ∨ Ops.rdB s.dev Reg.lpeSampleCfgEn = false →
    Does .counterSample s fun d => d = s.dev) ∧
  (∀ s : State, Awake s → Ops.lpeOn s.dev = true → Ops.rdB s.dev Reg.lpeSampleCfgEn = true →
    Does .counterSample s fun d =>
      let b := Ops.sampleBytes s.dev (Ops.rd s.dev Reg.lpeSampleCfgCount + 1)
      let n := Ops.rd s.dev Reg.lpeSampleSizeSize * 1024
      let w := Ops.rd s.dev Reg.lpeSampleWrWr
      let base := Ops.rd64 s.dev Reg.lpeSampleRingLoAddr Reg.lpeSampleRingHiAddr
      let fits := n ≠ 0 ∧ b.length / 64 ≤ (Ops.rd s.dev Reg.lpeSampleRdRd + n - w - 1) % n
      let may := (Ops.spend s.dev b.length).2 = true
      let k := min b.length (64 * (n - w))
      d.lpe.sampleSeq = (s.dev.lpe.sampleSeq + 1) % 2 ^ 32 ∧ RegsKept s.dev d [Reg.lpeSampleWrWr.key] ∧
      (¬fits ∨ ¬may → d.out = s.dev.out ∧ Ops.rd d Reg.lpeSampleWrWr = w ∧
        Ops.ctr d Ctr.lpeSampleLost = (Ops.ctr s.dev Ctr.lpeSampleLost + 1) % 2 ^ 64) ∧
      (fits → may → d.out = (if k < b.length then [.hostWrite base (b.drop k)] else []) ++
          .hostWrite (base + 64 * w) (b.take k) :: s.dev.out ∧
        Ops.rd d Reg.lpeSampleWrWr = (w + b.length / 64) % n % 2 ^ 26 ∧ d.ctrs = s.dev.ctrs)) ∧
  (∀ (s : State) (k : Nat), Awake s →
    Does (.watchdogFire k) s fun d =>
      let fires := Ops.lpeOn s.dev = true ∧ Ops.bit (Ops.rd s.dev Reg.lpeWdogEnEn) k = true ∧ Ops.watchCond s.dev k = true
      let size := Ops.rd s.dev Reg.lpeSnapSizeSize
      let freezes := size = 0 ∧ Ops.rdB s.dev Reg.lpeCfgFreezeOnHang = true ∧ Ops.rd s.dev Reg.lpeFreezeStatState = 0
      (¬fires → d = s.dev) ∧
      (fires → Ops.rdB s.dev Reg.lpeHangStatHang = true → RegsCtrsOnly s.dev d [] [Ctr.lpeHangLost] ∧
        Ops.ctr d Ctr.lpeHangLost = (Ops.ctr s.dev Ctr.lpeHangLost + 1) % 2 ^ 64) ∧
      (fires → Ops.rdB s.dev Reg.lpeHangStatHang = false → Ops.rd d Reg.lpeHangStatHang = 1 ∧ Ops.rd d Reg.lpeHangStatWdog = k % 16 ∧
        Ops.ctr d Ctr.lpeHang = (Ops.ctr s.dev Ctr.lpeHang + 1) % 2 ^ 64 ∧
        d.lpe.snap = (if size = 0 then s.dev.lpe.snap else some (k, Ops.now64 s.dev)) ∧
        (size = 0 → Ops.rd d Reg.lpeHangStatSnapSkipped = 1) ∧
        Ops.rd d Reg.lpeFreezeStatState = (if freezes then 1 else Ops.rd s.dev Reg.lpeFreezeStatState) ∧
        (freezes → Ops.rd d Reg.lpeFreezeStatCause = 4) ∧
        Signals s.dev { d with lpe := s.dev.lpe } [Reg.lpeHangStatHang.key, Reg.lpeHangStatWdog.key, Reg.lpeHangStatSnapDone.key,
          Reg.lpeHangStatSnapSkipped.key, Reg.lpeFreezeStatState.key, Reg.lpeFreezeStatCause.key] [Ctr.lpeHang])) ∧
  (∀ s : State, Awake s →
    Does .snapshotDone s fun d =>
      (s.dev.lpe.snap = none → d = s.dev) ∧
      ∀ k t, s.dev.lpe.snap = some (k, t) →
        let x := Ops.snapBytes { s.dev with lpe := { s.dev.lpe with snap := none } } k false t
          (some (65536 * Ops.rd s.dev Reg.lpeSnapSizeSize))
        let freezes := Ops.rdB s.dev Reg.lpeCfgFreezeOnHang = true ∧ Ops.lpeOn s.dev = true ∧ Ops.rd s.dev Reg.lpeFreezeStatState = 0
        d.out = .hostWrite (Ops.rd64 s.dev Reg.lpeSnapAddrLoAddr Reg.lpeSnapAddrHiAddr) x.2.1 :: s.dev.out ∧ d.lpe.snap = none ∧
        Ops.rd d Reg.lpeHangStatSnapDone = 1 ∧
        (x.2.2 = true → Ops.rd d Reg.lpeHangStatSnapTrunc = 1 ∧
          Ops.ctr d Ctr.lpeSnapTrunc = (Ops.ctr s.dev Ctr.lpeSnapTrunc + 1) % 2 ^ 64) ∧
        (x.2.2 = false → d.ctrs = s.dev.ctrs) ∧
        Ops.rd d Reg.lpeFreezeStatState = (if freezes then 1 else Ops.rd s.dev Reg.lpeFreezeStatState) ∧
        (freezes → Ops.rd d Reg.lpeFreezeStatCause = 4) ∧ d.mem = s.dev.mem ∧ d.units = s.dev.units)

/-- The freeze state machine and its dump (R489, R490, R493, R495 to R497): a trigger is taken only while LPE's gate is ON and the state is RUNNING,
the cut comes at the boundary, MEM_OPEN and RESUME act in their states, RESUME only with `FREEZE_N` high; the dump is read word by word. -/
def Obligations.FreezeFollowsItsMachine : Prop :=
  let trig := [Reg.lpeFreezeStatState.key, Reg.lpeFreezeStatCause.key]
  (∀ (s : State) (i : Instr) (cause : Nat), Awake s →
    (i = .freezePin ∧ cause = 1) ∨ (i = .freeze ∧ cause = 2 ∧ Arrives s.dev 0 0x01600020 true) →
    Does i s fun d =>
      let e := if cause = 1 then { s.dev with pins := { s.dev.pins with freezeN := false } } else s.dev
      let taken := Ops.lpeOn s.dev = true ∧ Ops.rd s.dev Reg.lpeFreezeStatState = 0
      (taken → Ops.rd d Reg.lpeFreezeStatState = 1 ∧ Ops.rd d Reg.lpeFreezeStatCause = cause ∧ RegsOnly e d trig) ∧ (¬taken → d = e)) ∧
  (∀ s : State, Awake s →
    Does .freezeCut s fun d =>
      (Ops.rd s.dev Reg.lpeFreezeStatState ≠ 1 → d = s.dev) ∧
      (Ops.rd s.dev Reg.lpeFreezeStatState = 1 → Ops.rd d Reg.lpeFreezeStatState = 2 ∧
        Ops.ctr d Ctr.lpeFreeze = (Ops.ctr s.dev Ctr.lpeFreeze + 1) % 2 ^ 64 ∧ d.lpe.dumpPtr = 0 ∧
        d.lpe.dump.take 4 = [0x4C, 0x50, 0x46, 0x44] ∧ Ops.le d.lpe.dump 6 1 = Ops.rd s.dev Reg.lpeFreezeStatCause % 256 ∧
        Ops.le d.lpe.dump 20 8 = Ops.now64 s.dev ∧ Ops.le d.lpe.dump 28 8 = s.dev.clk.boundary % 2 ^ 64 ∧
        Signals s.dev { d with lpe := s.dev.lpe, free := s.dev.free } [Reg.lpeFreezeStatState.key] [Ctr.lpeFreeze])) ∧
  (∀ s : State, Awake s →
    Does .dumpReady s fun d =>
      let may := Ops.frozen s.dev = true ∧ Ops.rdB s.dev Reg.lpeFreezeStatDumpReady = false
      (¬may → d = s.dev) ∧
      (may → Ops.rd d Reg.lpeFreezeStatDumpReady = 1 ∧ Ops.rd d Reg.lpeDumpLenLen = s.dev.lpe.dump.length % 2 ^ 32 ∧
        Signals s.dev d [Reg.lpeFreezeStatDumpReady.key, Reg.lpeDumpLenLen.key] [])) ∧
  (∀ s : State, Awake s → Arrives s.dev 0 0x01600020 true →
    Does .memOpen s fun d =>
      (Ops.rd s.dev Reg.lpeFreezeStatState = 2 → Ops.rd d Reg.lpeFreezeStatState = 3 ∧ RegsOnly s.dev d trig) ∧
      (Ops.rd s.dev Reg.lpeFreezeStatState ≠ 2 → d = s.dev)) ∧
  (∀ (s : State) (high : Bool), Awake s → Arrives s.dev 0 0x01600020 true →
    Does (.resume high) s fun d =>
      let e := { s.dev with pins := { s.dev.pins with freezeN := high } }
      let open' := Ops.rd s.dev Reg.lpeFreezeStatState = 2 ∨ Ops.rd s.dev Reg.lpeFreezeStatState = 3
      (open' → high = true → Ops.rd d Reg.lpeFreezeStatState = 4 ∧ RegsOnly e d trig) ∧
      (open' → high = false → Ops.rd d Reg.lpeFreezeStatRej = 1 ∧ RegsOnly e d [Reg.lpeFreezeStatRej.key]) ∧ (¬open' → d = e)) ∧
  (∀ s : State, Awake s → Ops.rd s.dev Reg.lpeFreezeStatState ≠ 4 → Does .resumeBoundary s fun d => d = s.dev) ∧
  (∀ s : State, Awake s → Ops.rd s.dev Reg.lpeFreezeStatState = 4 →
    Does .resumeBoundary s fun d =>
      Ops.rd d Reg.lpeFreezeStatState = 0 ∧ Ops.rd d Reg.lpeFreezeStatDumpReady = 0 ∧ Ops.rd d Reg.lpeDumpLenLen = 0 ∧
      d.lpe.dump = [] ∧ (∀ q, (Ops.queue d q).pkts = []) ∧ d.runs = []) ∧
  (∀ (s : State) (fn : Fn), Awake s → Ops.tenantOf fn ≠ 0 → Does (.dumpRead fn) s fun d => d = s.dev) ∧
  (∀ (s : State) (fn : Fn), Awake s → Ops.tenantOf fn = 0 → Arrives s.dev fn 0x01600038 false →
    Does (.dumpRead fn) s fun d =>
      (Ops.frozen s.dev = true →
        d.out = .read fn 0x01600038 (some (Ops.le s.dev.lpe.dump s.dev.lpe.dumpPtr 4)) :: s.dev.out ∧
        d.lpe = { s.dev.lpe with dumpPtr := s.dev.lpe.dumpPtr + 4 }) ∧
      (Ops.frozen s.dev = false → d.out = .read fn 0x01600038 (some 0) :: s.dev.out ∧ d.lpe = s.dev.lpe) ∧
      { d with out := s.dev.out, lpe := s.dev.lpe } = s.dev) ∧
  (∀ s : State, Awake s → Arrives s.dev 0 0x01600030 true →
    Does .dumpStart s fun d => d = { s.dev with lpe := { s.dev.lpe with dumpPtr := 0 } })

/-- The management bridge (R497 to R501): what each instruction of the TAP shifts out and does, BYPASS while JTAG_LOCK is set; LPE_REG and the
SMBus target act on the register bus as function 64, and report a bus error as status 2. That an access ends at once and that BYPASS captures 0 are
the model's choices (log entries 61, 62). -/
def Obligations.TheBridgeReachesTheBus : Prop :=
  let only := fun (s : State) (d : Dev) (ir : Nat) (outs : List Out) =>
    d = { s.dev with out := outs ++ s.dev.out, bridge := { s.dev.bridge with ir := ir } }
  let up := fun (s : State) => s.dev.pins.railLost = false
  let open' := fun (s : State) => up s ∧ Ops.jtagLock s.dev = false
  (∀ s : State, up s → Does .idcode s fun d => only s d 1 [.jtag (Ops.readReg s.dev 0 0) 32]) ∧
  (∀ (s : State) (pins dr : Nat), up s →
    Does (.samplePreload pins dr) s fun d =>
      ∃ c, d = { s.dev with out := .jtag c 42 :: s.dev.out, bridge := { s.dev.bridge with ir := 2, boundary := dr % 2 ^ 42 } } ∧
        ∀ i, i < 42 → Ops.bit c i = (if i = 3 then !Ops.hangN s.dev else if i = 4 then !Ops.faultN s.dev
          else if i = 5 then !Ops.clkFaultN s.dev else Ops.bit pins i)) ∧
  (∀ (s : State) (pins : Nat), up s →
    Does (.extest pins) s fun d =>
      (s.dev.pins.sysRstN = false → only s d 3 [.jtag (pins % 2 ^ 42) 42, .balls s.dev.bridge.boundary]) ∧
      (s.dev.pins.sysRstN = true → only s d 3 [.jtag 0 1])) ∧
  (∀ (s : State) (ir : Nat), up s → Does (.bypass ir) s fun d => only s d (ir % 256) [.jtag 0 1]) ∧
  (∀ (s : State) (b dr : Nat), up s → Ops.jtagLock s.dev = true →
    (Does .lpeStat s fun d => only s d 0x10 [.jtag 0 1]) ∧ (Does (.lpeFreeze b) s fun d => only s d 0x11 [.jtag 0 1]) ∧
    (Does (.lpeReg dr) s fun d => only s d 0x12 [.jtag 0 1]) ∧ (Does .lpeDump s fun d => only s d 0x13 [.jtag 0 1])) ∧
  (∀ s : State, open' s → Does .lpeStat s fun d => only s d 0x10 [.jtag (Ops.readReg s.dev 0x01600024 0) 32]) ∧
  (∀ (s : State) (b : Nat), open' s → s.dev.pins.sysRstN = false → Does (.lpeFreeze b) s fun d => only s d 0x11 [.jtag 0 3]) ∧
  (∀ (s : State) (b : Nat), open' s → s.dev.pins.sysRstN = true → Arrives s.dev 64 0x01600020 true →
    Does (.lpeFreeze b) s fun d =>
      let st := Ops.rd s.dev Reg.lpeFreezeStatState
      (b % 8 = 1 → st = 0 → Ops.lpeOn s.dev = true → Ops.rd d Reg.lpeFreezeStatState = 1 ∧ Ops.rd d Reg.lpeFreezeStatCause = 3) ∧
      (b % 8 = 2 → st = 2 → Ops.rd d Reg.lpeFreezeStatState = 3) ∧
      (b % 8 = 4 → st = 2 ∨ st = 3 → s.dev.pins.freezeN = true → Ops.rd d Reg.lpeFreezeStatState = 4) ∧
      only s { d with regs := s.dev.regs } 0x11 [.jtag 0 3]) ∧
  (∀ s : State, open' s →
    Does .lpeDump s fun d =>
      (Ops.frozen s.dev = true → d.lpe.dumpPtr = s.dev.lpe.dumpPtr + 4 ∧
        only s { d with lpe := s.dev.lpe } 0x13 [.jtag (Ops.le s.dev.lpe.dump s.dev.lpe.dumpPtr 4) 32]) ∧
      (Ops.frozen s.dev = false → only s d 0x13 [.jtag 0 32])) ∧
  (∀ (s : State) (dr : Nat), open' s →
    Does (.lpeReg dr) s fun d =>
      let res := .jtag (s.dev.bridge.jtagData % 2 ^ 32 * 2 ^ 24 + s.dev.bridge.jtagStat % 4 * 2 ^ 56) 58
      let off := 4 * Ops.bits dr 1 23
      let y := { s.dev with out := res :: s.dev.out, bridge := { s.dev.bridge with ir := 0x12 } }
      (s.dev.pins.sysRstN = false → d = y) ∧
      (∀ a copy, s.dev.pins.sysRstN = true → Ops.locate s.dev 64 off = .reg a copy →
        (∀ c, Ops.blockCause s.dev (a / 0x100000) = some c → d.bridge.jtagStat = 2 ∧ .busError 64 a ∈ d.out) ∧
        (Ops.bit dr 0 = true → Arrives s.dev 64 a true → ownEffect a = false →
          d.bridge = { y.bridge with jtagStat := 0 } ∧ { d with bridge := y.bridge } = Ops.writeFlds y a copy (Ops.bits dr 24 32)) ∧
        (Ops.bit dr 0 = false → Arrives s.dev 64 a false → Ops.latched a = false → Ops.latched (a - 4) = false →
          ¬(0xC02000 ≤ a ∧ a < 0xC02400 ∧ a % 16 = 12) → a ≠ 0x1600038 →
          d.bridge = { y.bridge with jtagStat := 0, jtagData := Ops.readReg s.dev a copy } ∧
          d.out = .read 64 off (some (Ops.readReg s.dev a copy)) :: y.out))) ∧
  (∀ (s : State) (w : Word), Awake s → Ops.jtagLock s.dev = true →
    (∀ i ∈ [Instr.blockWriteAddr w, .blockWriteData w], Does i s fun d => d = s.dev) ∧
    (Does .blockReadData s fun d => d = { s.dev with out := .smbus [0, 0, 0, 0] :: s.dev.out }) ∧
    (Does .readByteStatus s fun d => d = { s.dev with out := .smbus [0] :: s.dev.out })) ∧
  (∀ (s : State) (w : Word), Awake s → Ops.jtagLock s.dev = false →
    let off := s.dev.bridge.smbAddr
    (Does (.blockWriteAddr w) s fun d => d = { s.dev with bridge := { s.dev.bridge with smbAddr := w.toNat } }) ∧
    (Does .readByteStatus s fun d => d = { s.dev with out := .smbus (Ops.leBytes 1 s.dev.bridge.smbStat) :: s.dev.out }) ∧
    (∀ a copy c, Ops.locate s.dev 64 off = .reg a copy → Ops.blockCause s.dev (a / 0x100000) = some c →
      (Does (.blockWriteData w) s fun d => d.bridge.smbStat = 2) ∧ (Does .blockReadData s fun d => d.bridge.smbStat = 2)) ∧
    (∀ a copy, Ops.locate s.dev 64 off = .reg a copy → Arrives s.dev 64 a true → ownEffect a = false →
      Does (.blockWriteData w) s fun d =>
        d.bridge = { s.dev.bridge with smbStat := 0 } ∧ { d with bridge := s.dev.bridge } = Ops.writeFlds s.dev a copy w.toNat) ∧
    (∀ a copy, Ops.locate s.dev 64 off = .reg a copy → Arrives s.dev 64 a false → Ops.latched a = false → Ops.latched (a - 4) = false →
      ¬(0xC02000 ≤ a ∧ a < 0xC02400 ∧ a % 16 = 12) → a ≠ 0x1600038 →
      Does .blockReadData s fun d =>
        d.bridge = { s.dev.bridge with smbStat := 0 } ∧
        d.out = .smbus (Ops.leBytes 4 (Ops.readReg s.dev a copy)) :: .read 64 off (some (Ops.readReg s.dev a copy)) :: s.dev.out))
end

