-- ==== Sys2Proof/Laws/Maps.lean ====
section
/-!
SUPPORT. Laws/Maps.lean: reading and writing the sparse maps of the state, and the canonical form of memory.
-/
namespace Sys2Proof.Machine.Ops

@[simp] theorem find?_nil (k : Nat) : find? ([] : Map α) k = none := rfl

@[simp] theorem find?_set_same (m : Map α) (k : Nat) (v : α) : find? (set m k v) k = some v := by
  induction m with
  | nil => simp [set, find?]
  | cons p r ih =>
    obtain ⟨i, w⟩ := p
    by_cases h : i = k
    · simp [set, find?, h]
    · by_cases h2 : k < i <;> simp [set, find?, h, h2, ih]

theorem find?_set_ne (m : Map α) {k j : Nat} (v : α) (h : j ≠ k) : find? (set m k v) j = find? m j := by
  induction m with
  | nil => simp [set, find?, Ne.symm h]
  | cons p r ih =>
    obtain ⟨i, w⟩ := p
    by_cases h1 : i = k
    · subst h1; simp [set, find?, Ne.symm h]
    · by_cases h2 : k < i
      · simp [set, find?, h1, h2, Ne.symm h]
      · simp [set, find?, h1, h2, ih]

@[simp] theorem find?_del_same (m : Map α) (k : Nat) : find? (del m k) k = none := by
  induction m with
  | nil => rfl
  | cons p r ih =>
    obtain ⟨i, w⟩ := p
    by_cases h : i = k
    · simpa [del, h] using ih
    · have : del ((i, w) :: r) k = (i, w) :: del r k := by simp [del, h]
      simp [this, find?, h, ih]

theorem find?_del_ne (m : Map α) {k j : Nat} (h : j ≠ k) : find? (del m k) j = find? m j := by
  induction m with
  | nil => rfl
  | cons p r ih =>
    obtain ⟨i, w⟩ := p
    by_cases h1 : i = k
    · have : del ((i, w) :: r) k = del r k := by simp [del, h1]
      subst h1; simp [this, find?, Ne.symm h, ih]
    · have : del ((i, w) :: r) k = (i, w) :: del r k := by simp [del, h1]
      simp [this, find?, ih]

@[simp] theorem getD_set_same (m : Map α) (k : Nat) (v e : α) : getD (set m k v) k e = v := by simp [getD]

theorem getD_set_ne (m : Map α) {k j : Nat} (v e : α) (h : j ≠ k) : getD (set m k v) j e = getD m j e := by
  simp [getD, find?_set_ne m v h]

@[simp] theorem getD_setDef_same [DecidableEq α] (m : Map α) (k : Nat) (v e : α) : getD (setDef m k e v) k e = v := by
  unfold setDef; split <;> simp_all [getD]

theorem getD_setDef_ne [DecidableEq α] (m : Map α) {k j : Nat} (v e e' : α) (h : j ≠ k) :
    getD (setDef m k e v) j e' = getD m j e' := by
  unfold setDef; split
  · simp [getD, find?_del_ne m h]
  · simp [getD, find?_set_ne m v h]

/-! ### The canonical form (MEMORY) -/

theorem sorted_cons {i : Nat} {w : α} {r : Map α} :
    sorted ((i, w) :: r) = true ↔ (∀ p ∈ r, i < p.1) ∧ sorted r = true := by
  induction r generalizing i w with
  | nil => simp [sorted]
  | cons q r ih =>
    obtain ⟨j, v⟩ := q
    constructor
    · intro h
      have h' : i < j ∧ sorted ((j, v) :: r) = true := by simpa [sorted] using h
      refine ⟨?_, h'.2⟩
      intro p hp
      rcases List.mem_cons.1 hp with rfl | hp
      · exact h'.1
      · exact Nat.lt_trans h'.1 ((ih.1 h'.2).1 p hp)
    · rintro ⟨h1, h2⟩
      have := h1 (j, v) (by simp)
      simp only [sorted] at h2 ⊢
      simpa [this] using h2

theorem sorted_del {m : Map α} (k : Nat) (h : sorted m = true) : sorted (del m k) = true := by
  induction m with
  | nil => rfl
  | cons p r ih =>
    obtain ⟨i, w⟩ := p
    obtain ⟨h1, h2⟩ := sorted_cons.1 h
    by_cases hk : i = k
    · have : del ((i, w) :: r) k = del r k := by simp [del, hk]
      rw [this]; exact ih h2
    · have : del ((i, w) :: r) k = (i, w) :: del r k := by simp [del, hk]
      rw [this]
      refine sorted_cons.2 ⟨fun p hp => h1 p ?_, ih h2⟩
      exact (List.mem_filter.1 hp).1

theorem mem_set {m : Map α} {k : Nat} {v : α} {p : Nat × α} (h : p ∈ set m k v) : p = (k, v) ∨ p ∈ m := by
  induction m with
  | nil => simpa [set] using h
  | cons q r ih =>
    obtain ⟨i, w⟩ := q
    by_cases h1 : i = k
    · simp [set, h1] at h; rcases h with h | h <;> simp [h]
    · by_cases h2 : k < i
      · simp [set, h1, h2] at h; rcases h with h | h | h <;> simp [h]
      · simp [set, h1, h2] at h
        rcases h with h | h
        · simp [h]
        · rcases ih h with h | h <;> simp [h]

theorem sorted_set {m : Map α} (k : Nat) (v : α) (h : sorted m = true) : sorted (set m k v) = true := by
  induction m with
  | nil => rfl
  | cons p r ih =>
    obtain ⟨i, w⟩ := p
    obtain ⟨h1, h2⟩ := sorted_cons.1 h
    by_cases hk : i = k
    · subst hk
      have : set ((i, w) :: r) i v = (i, v) :: r := by simp [set]
      rw [this]; exact sorted_cons.2 ⟨h1, h2⟩
    · by_cases hlt : k < i
      · have : set ((i, w) :: r) k v = (k, v) :: (i, w) :: r := by simp [set, hk, hlt]
        rw [this]
        refine sorted_cons.2 ⟨fun p hp => ?_, h⟩
        rcases List.mem_cons.1 hp with rfl | hp
        · exact hlt
        · exact Nat.lt_trans hlt (h1 p hp)
      · have : set ((i, w) :: r) k v = (i, w) :: set r k v := by simp [set, hk, hlt]
        rw [this]
        refine sorted_cons.2 ⟨fun p hp => ?_, ih h2⟩
        rcases mem_set hp with rfl | hp
        · show i < k; omega
        · exact h1 p hp

/-- Writing one byte keeps memory canonical. -/
theorem wf_bytePut (m : List Host.Cell) (a : Nat) (b : Byte) (h : Memory.wf m = true) :
    Memory.wf (bytePut m a b) = true := by
  simp only [Memory.wf, Bool.and_eq_true, List.all_eq_true] at h ⊢
  unfold bytePut setDef
  split
  · exact ⟨sorted_del a h.1, fun c hc => h.2 c ((List.mem_filter.1 hc).1)⟩
  · refine ⟨sorted_set a b h.1, fun c hc => ?_⟩
    rcases mem_set hc with rfl | hc
    · simpa using ‹_›
    · exact h.2 c hc

/-- Writing bytes keeps memory canonical. -/
theorem wf_bytesPut (bs : Bytes) (m : List Host.Cell) (a : Nat) (h : Memory.wf m = true) :
    Memory.wf (bytesPut m a bs) = true := by
  induction bs generalizing m a with
  | nil => exact h
  | cons b bs ih => exact ih _ _ (wf_bytePut m a b h)

theorem sorted_filter {m : Map α} (f : Nat × α → Bool) (h : sorted m = true) : sorted (m.filter f) = true := by
  induction m with
  | nil => rfl
  | cons p r ih =>
    obtain ⟨i, w⟩ := p
    obtain ⟨h1, h2⟩ := sorted_cons.1 h
    by_cases hf : f (i, w) = true
    · rw [List.filter_cons_of_pos hf]
      exact sorted_cons.2 ⟨fun p hp => h1 p ((List.mem_filter.1 hp).1), ih h2⟩
    · rw [List.filter_cons_of_neg (by simpa using hf)]; exact ih h2

/-- Clearing a range keeps memory canonical. -/
theorem wf_bytesClear (m : List Host.Cell) (a n : Nat) (h : Memory.wf m = true) :
    Memory.wf (bytesClear m a n) = true := by
  simp only [Memory.wf, Bool.and_eq_true, List.all_eq_true] at h ⊢
  exact ⟨sorted_filter _ h.1, fun c hc => h.2 c ((List.mem_filter.1 hc).1)⟩

theorem byteGet_bytePut_same (m : List Host.Cell) (a : Nat) (b : Byte) : byteGet (bytePut m a b) a = b := by
  simp [byteGet, bytePut]

theorem byteGet_bytePut_ne (m : List Host.Cell) {a x : Nat} (b : Byte) (h : x ≠ a) :
    byteGet (bytePut m a b) x = byteGet m x := by
  simp only [byteGet, bytePut]
  exact getD_setDef_ne m b Memory.unlisted Memory.unlisted h

/-- Bytes outside the range written read as before. -/
theorem byteGet_bytesPut_ne (bs : Bytes) (m : List Host.Cell) (a x : Nat) (h : x < a ∨ a + bs.length ≤ x) :
    byteGet (bytesPut m a bs) x = byteGet m x := by
  induction bs generalizing m a with
  | nil => rfl
  | cons b bs ih =>
    rw [List.length_cons] at h
    show byteGet (bytesPut (bytePut m a b) (a + 1) bs) x = _
    rw [ih _ _ (by omega), byteGet_bytePut_ne m b (by omega)]

/-- A byte of the range written reads as written. -/
theorem byteGet_bytesPut_mem (bs : Bytes) (m : List Host.Cell) (a i : Nat) (h : i < bs.length) :
    byteGet (bytesPut m a bs) (a + i) = bs[i] := by
  induction bs generalizing m a i with
  | nil => simp at h
  | cons b bs ih =>
    show byteGet (bytesPut (bytePut m a b) (a + 1) bs) (a + i) = _
    cases i with
    | zero =>
      rw [byteGet_bytesPut_ne _ _ _ _ (by omega)]
      simpa using byteGet_bytePut_same m a b
    | succ i =>
      have := ih (bytePut m a b) (a + 1) i (by simpa using h)
      rw [show a + (i + 1) = a + 1 + i by omega, this]; simp

end Sys2Proof.Machine.Ops
end

