-- ==== Sys2Proof/Laws/State.lean ====
section
/-!
SUPPORT. Laws/State.lean: what each update of the device leaves, one lemma per field and update, so that no proof unfolds a record
update; reading a register field or a counter after a write.
-/
namespace Sys2Proof.Machine.Ops

/-! ### `wr` -/

@[simp] theorem wr_shadow (d : Dev) (f : Fld) (v : Nat) : (wr d f v).shadow = d.shadow := rfl
@[simp] theorem wr_ctrs (d : Dev) (f : Fld) (v : Nat) : (wr d f v).ctrs = d.ctrs := rfl
@[simp] theorem wr_latch (d : Dev) (f : Fld) (v : Nat) : (wr d f v).latch = d.latch := rfl
@[simp] theorem wr_tb (d : Dev) (f : Fld) (v : Nat) : (wr d f v).tb = d.tb := rfl
@[simp] theorem wr_clk (d : Dev) (f : Fld) (v : Nat) : (wr d f v).clk = d.clk := rfl
@[simp] theorem wr_pins (d : Dev) (f : Fld) (v : Nat) : (wr d f v).pins = d.pins := rfl
@[simp] theorem wr_straps (d : Dev) (f : Fld) (v : Nat) : (wr d f v).straps = d.straps := rfl
@[simp] theorem wr_units (d : Dev) (f : Fld) (v : Nat) : (wr d f v).units = d.units := rfl
@[simp] theorem wr_nextUnit (d : Dev) (f : Fld) (v : Nat) : (wr d f v).nextUnit = d.nextUnit := rfl
@[simp] theorem wr_tcam (d : Dev) (f : Fld) (v : Nat) : (wr d f v).tcam = d.tcam := rfl
@[simp] theorem wr_em (d : Dev) (f : Fld) (v : Nat) : (wr d f v).em = d.em := rfl
@[simp] theorem wr_flw (d : Dev) (f : Fld) (v : Nat) : (wr d f v).flw = d.flw := rfl
@[simp] theorem wr_qnt (d : Dev) (f : Fld) (v : Nat) : (wr d f v).qnt = d.qnt := rfl
@[simp] theorem wr_leafRecs (d : Dev) (f : Fld) (v : Nat) : (wr d f v).leafRecs = d.leafRecs := rfl
@[simp] theorem wr_headRecs (d : Dev) (f : Fld) (v : Nat) : (wr d f v).headRecs = d.headRecs := rfl
@[simp] theorem wr_labels (d : Dev) (f : Fld) (v : Nat) : (wr d f v).labels = d.labels := rfl
@[simp] theorem wr_banks (d : Dev) (f : Fld) (v : Nat) : (wr d f v).banks = d.banks := rfl
@[simp] theorem wr_refit (d : Dev) (f : Fld) (v : Nat) : (wr d f v).refit = d.refit := rfl
@[simp] theorem wr_runQueue (d : Dev) (f : Fld) (v : Nat) : (wr d f v).runQueue = d.runQueue := rfl
@[simp] theorem wr_runs (d : Dev) (f : Fld) (v : Nat) : (wr d f v).runs = d.runs := rfl
@[simp] theorem wr_epochs (d : Dev) (f : Fld) (v : Nat) : (wr d f v).epochs = d.epochs := rfl
@[simp] theorem wr_grf (d : Dev) (f : Fld) (v : Nat) : (wr d f v).grf = d.grf := rfl
@[simp] theorem wr_tmg (d : Dev) (f : Fld) (v : Nat) : (wr d f v).tmg = d.tmg := rfl
@[simp] theorem wr_stm (d : Dev) (f : Fld) (v : Nat) : (wr d f v).stm = d.stm := rfl
@[simp] theorem wr_prt (d : Dev) (f : Fld) (v : Nat) : (wr d f v).prt = d.prt := rfl
@[simp] theorem wr_spr (d : Dev) (f : Fld) (v : Nat) : (wr d f v).spr = d.spr := rfl
@[simp] theorem wr_mem (d : Dev) (f : Fld) (v : Nat) : (wr d f v).mem = d.mem := rfl
@[simp] theorem wr_chans (d : Dev) (f : Fld) (v : Nat) : (wr d f v).chans = d.chans := rfl
@[simp] theorem wr_hif (d : Dev) (f : Fld) (v : Nat) : (wr d f v).hif = d.hif := rfl
@[simp] theorem wr_trl (d : Dev) (f : Fld) (v : Nat) : (wr d f v).trl = d.trl := rfl
@[simp] theorem wr_clp (d : Dev) (f : Fld) (v : Nat) : (wr d f v).clp = d.clp := rfl
@[simp] theorem wr_flt (d : Dev) (f : Fld) (v : Nat) : (wr d f v).flt = d.flt := rfl
@[simp] theorem wr_sgn (d : Dev) (f : Fld) (v : Nat) : (wr d f v).sgn = d.sgn := rfl
@[simp] theorem wr_sec (d : Dev) (f : Fld) (v : Nat) : (wr d f v).sec = d.sec := rfl
@[simp] theorem wr_cfg (d : Dev) (f : Fld) (v : Nat) : (wr d f v).cfg = d.cfg := rfl
@[simp] theorem wr_lpe (d : Dev) (f : Fld) (v : Nat) : (wr d f v).lpe = d.lpe := rfl
@[simp] theorem wr_bridge (d : Dev) (f : Fld) (v : Nat) : (wr d f v).bridge = d.bridge := rfl
@[simp] theorem wr_free (d : Dev) (f : Fld) (v : Nat) : (wr d f v).free = d.free := rfl
@[simp] theorem wr_out (d : Dev) (f : Fld) (v : Nat) : (wr d f v).out = d.out := rfl

/-! ### `wrShd` -/

@[simp] theorem wrShd_regs (d : Dev) (f : Fld) (v : Nat) : (wrShd d f v).regs = d.regs := rfl
@[simp] theorem wrShd_ctrs (d : Dev) (f : Fld) (v : Nat) : (wrShd d f v).ctrs = d.ctrs := rfl
@[simp] theorem wrShd_latch (d : Dev) (f : Fld) (v : Nat) : (wrShd d f v).latch = d.latch := rfl
@[simp] theorem wrShd_tb (d : Dev) (f : Fld) (v : Nat) : (wrShd d f v).tb = d.tb := rfl
@[simp] theorem wrShd_clk (d : Dev) (f : Fld) (v : Nat) : (wrShd d f v).clk = d.clk := rfl
@[simp] theorem wrShd_pins (d : Dev) (f : Fld) (v : Nat) : (wrShd d f v).pins = d.pins := rfl
@[simp] theorem wrShd_straps (d : Dev) (f : Fld) (v : Nat) : (wrShd d f v).straps = d.straps := rfl
@[simp] theorem wrShd_units (d : Dev) (f : Fld) (v : Nat) : (wrShd d f v).units = d.units := rfl
@[simp] theorem wrShd_nextUnit (d : Dev) (f : Fld) (v : Nat) : (wrShd d f v).nextUnit = d.nextUnit := rfl
@[simp] theorem wrShd_tcam (d : Dev) (f : Fld) (v : Nat) : (wrShd d f v).tcam = d.tcam := rfl
@[simp] theorem wrShd_em (d : Dev) (f : Fld) (v : Nat) : (wrShd d f v).em = d.em := rfl
@[simp] theorem wrShd_flw (d : Dev) (f : Fld) (v : Nat) : (wrShd d f v).flw = d.flw := rfl
@[simp] theorem wrShd_qnt (d : Dev) (f : Fld) (v : Nat) : (wrShd d f v).qnt = d.qnt := rfl
@[simp] theorem wrShd_leafRecs (d : Dev) (f : Fld) (v : Nat) : (wrShd d f v).leafRecs = d.leafRecs := rfl
@[simp] theorem wrShd_headRecs (d : Dev) (f : Fld) (v : Nat) : (wrShd d f v).headRecs = d.headRecs := rfl
@[simp] theorem wrShd_labels (d : Dev) (f : Fld) (v : Nat) : (wrShd d f v).labels = d.labels := rfl
@[simp] theorem wrShd_banks (d : Dev) (f : Fld) (v : Nat) : (wrShd d f v).banks = d.banks := rfl
@[simp] theorem wrShd_refit (d : Dev) (f : Fld) (v : Nat) : (wrShd d f v).refit = d.refit := rfl
@[simp] theorem wrShd_runQueue (d : Dev) (f : Fld) (v : Nat) : (wrShd d f v).runQueue = d.runQueue := rfl
@[simp] theorem wrShd_runs (d : Dev) (f : Fld) (v : Nat) : (wrShd d f v).runs = d.runs := rfl
@[simp] theorem wrShd_epochs (d : Dev) (f : Fld) (v : Nat) : (wrShd d f v).epochs = d.epochs := rfl
@[simp] theorem wrShd_grf (d : Dev) (f : Fld) (v : Nat) : (wrShd d f v).grf = d.grf := rfl
@[simp] theorem wrShd_tmg (d : Dev) (f : Fld) (v : Nat) : (wrShd d f v).tmg = d.tmg := rfl
@[simp] theorem wrShd_stm (d : Dev) (f : Fld) (v : Nat) : (wrShd d f v).stm = d.stm := rfl
@[simp] theorem wrShd_prt (d : Dev) (f : Fld) (v : Nat) : (wrShd d f v).prt = d.prt := rfl
@[simp] theorem wrShd_spr (d : Dev) (f : Fld) (v : Nat) : (wrShd d f v).spr = d.spr := rfl
@[simp] theorem wrShd_mem (d : Dev) (f : Fld) (v : Nat) : (wrShd d f v).mem = d.mem := rfl
@[simp] theorem wrShd_chans (d : Dev) (f : Fld) (v : Nat) : (wrShd d f v).chans = d.chans := rfl
@[simp] theorem wrShd_hif (d : Dev) (f : Fld) (v : Nat) : (wrShd d f v).hif = d.hif := rfl
@[simp] theorem wrShd_trl (d : Dev) (f : Fld) (v : Nat) : (wrShd d f v).trl = d.trl := rfl
@[simp] theorem wrShd_clp (d : Dev) (f : Fld) (v : Nat) : (wrShd d f v).clp = d.clp := rfl
@[simp] theorem wrShd_flt (d : Dev) (f : Fld) (v : Nat) : (wrShd d f v).flt = d.flt := rfl
@[simp] theorem wrShd_sgn (d : Dev) (f : Fld) (v : Nat) : (wrShd d f v).sgn = d.sgn := rfl
@[simp] theorem wrShd_sec (d : Dev) (f : Fld) (v : Nat) : (wrShd d f v).sec = d.sec := rfl
@[simp] theorem wrShd_cfg (d : Dev) (f : Fld) (v : Nat) : (wrShd d f v).cfg = d.cfg := rfl
@[simp] theorem wrShd_lpe (d : Dev) (f : Fld) (v : Nat) : (wrShd d f v).lpe = d.lpe := rfl
@[simp] theorem wrShd_bridge (d : Dev) (f : Fld) (v : Nat) : (wrShd d f v).bridge = d.bridge := rfl
@[simp] theorem wrShd_free (d : Dev) (f : Fld) (v : Nat) : (wrShd d f v).free = d.free := rfl
@[simp] theorem wrShd_out (d : Dev) (f : Fld) (v : Nat) : (wrShd d f v).out = d.out := rfl

/-! ### `setCtr` -/

@[simp] theorem setCtr_regs (d : Dev) (a v : Nat) : (setCtr d a v).regs = d.regs := rfl
@[simp] theorem setCtr_shadow (d : Dev) (a v : Nat) : (setCtr d a v).shadow = d.shadow := rfl
@[simp] theorem setCtr_latch (d : Dev) (a v : Nat) : (setCtr d a v).latch = d.latch := rfl
@[simp] theorem setCtr_tb (d : Dev) (a v : Nat) : (setCtr d a v).tb = d.tb := rfl
@[simp] theorem setCtr_clk (d : Dev) (a v : Nat) : (setCtr d a v).clk = d.clk := rfl
@[simp] theorem setCtr_pins (d : Dev) (a v : Nat) : (setCtr d a v).pins = d.pins := rfl
@[simp] theorem setCtr_straps (d : Dev) (a v : Nat) : (setCtr d a v).straps = d.straps := rfl
@[simp] theorem setCtr_units (d : Dev) (a v : Nat) : (setCtr d a v).units = d.units := rfl
@[simp] theorem setCtr_nextUnit (d : Dev) (a v : Nat) : (setCtr d a v).nextUnit = d.nextUnit := rfl
@[simp] theorem setCtr_tcam (d : Dev) (a v : Nat) : (setCtr d a v).tcam = d.tcam := rfl
@[simp] theorem setCtr_em (d : Dev) (a v : Nat) : (setCtr d a v).em = d.em := rfl
@[simp] theorem setCtr_flw (d : Dev) (a v : Nat) : (setCtr d a v).flw = d.flw := rfl
@[simp] theorem setCtr_qnt (d : Dev) (a v : Nat) : (setCtr d a v).qnt = d.qnt := rfl
@[simp] theorem setCtr_leafRecs (d : Dev) (a v : Nat) : (setCtr d a v).leafRecs = d.leafRecs := rfl
@[simp] theorem setCtr_headRecs (d : Dev) (a v : Nat) : (setCtr d a v).headRecs = d.headRecs := rfl
@[simp] theorem setCtr_labels (d : Dev) (a v : Nat) : (setCtr d a v).labels = d.labels := rfl
@[simp] theorem setCtr_banks (d : Dev) (a v : Nat) : (setCtr d a v).banks = d.banks := rfl
@[simp] theorem setCtr_refit (d : Dev) (a v : Nat) : (setCtr d a v).refit = d.refit := rfl
@[simp] theorem setCtr_runQueue (d : Dev) (a v : Nat) : (setCtr d a v).runQueue = d.runQueue := rfl
@[simp] theorem setCtr_runs (d : Dev) (a v : Nat) : (setCtr d a v).runs = d.runs := rfl
@[simp] theorem setCtr_epochs (d : Dev) (a v : Nat) : (setCtr d a v).epochs = d.epochs := rfl
@[simp] theorem setCtr_grf (d : Dev) (a v : Nat) : (setCtr d a v).grf = d.grf := rfl
@[simp] theorem setCtr_tmg (d : Dev) (a v : Nat) : (setCtr d a v).tmg = d.tmg := rfl
@[simp] theorem setCtr_stm (d : Dev) (a v : Nat) : (setCtr d a v).stm = d.stm := rfl
@[simp] theorem setCtr_prt (d : Dev) (a v : Nat) : (setCtr d a v).prt = d.prt := rfl
@[simp] theorem setCtr_spr (d : Dev) (a v : Nat) : (setCtr d a v).spr = d.spr := rfl
@[simp] theorem setCtr_mem (d : Dev) (a v : Nat) : (setCtr d a v).mem = d.mem := rfl
@[simp] theorem setCtr_chans (d : Dev) (a v : Nat) : (setCtr d a v).chans = d.chans := rfl
@[simp] theorem setCtr_hif (d : Dev) (a v : Nat) : (setCtr d a v).hif = d.hif := rfl
@[simp] theorem setCtr_trl (d : Dev) (a v : Nat) : (setCtr d a v).trl = d.trl := rfl
@[simp] theorem setCtr_clp (d : Dev) (a v : Nat) : (setCtr d a v).clp = d.clp := rfl
@[simp] theorem setCtr_flt (d : Dev) (a v : Nat) : (setCtr d a v).flt = d.flt := rfl
@[simp] theorem setCtr_sgn (d : Dev) (a v : Nat) : (setCtr d a v).sgn = d.sgn := rfl
@[simp] theorem setCtr_sec (d : Dev) (a v : Nat) : (setCtr d a v).sec = d.sec := rfl
@[simp] theorem setCtr_cfg (d : Dev) (a v : Nat) : (setCtr d a v).cfg = d.cfg := rfl
@[simp] theorem setCtr_lpe (d : Dev) (a v : Nat) : (setCtr d a v).lpe = d.lpe := rfl
@[simp] theorem setCtr_bridge (d : Dev) (a v : Nat) : (setCtr d a v).bridge = d.bridge := rfl
@[simp] theorem setCtr_free (d : Dev) (a v : Nat) : (setCtr d a v).free = d.free := rfl
@[simp] theorem setCtr_out (d : Dev) (a v : Nat) : (setCtr d a v).out = d.out := rfl

/-! ### `count` -/

@[simp] theorem count_regs (d : Dev) (a n : Nat) : (count d a n).regs = d.regs := rfl
@[simp] theorem count_shadow (d : Dev) (a n : Nat) : (count d a n).shadow = d.shadow := rfl
@[simp] theorem count_latch (d : Dev) (a n : Nat) : (count d a n).latch = d.latch := rfl
@[simp] theorem count_tb (d : Dev) (a n : Nat) : (count d a n).tb = d.tb := rfl
@[simp] theorem count_clk (d : Dev) (a n : Nat) : (count d a n).clk = d.clk := rfl
@[simp] theorem count_pins (d : Dev) (a n : Nat) : (count d a n).pins = d.pins := rfl
@[simp] theorem count_straps (d : Dev) (a n : Nat) : (count d a n).straps = d.straps := rfl
@[simp] theorem count_units (d : Dev) (a n : Nat) : (count d a n).units = d.units := rfl
@[simp] theorem count_nextUnit (d : Dev) (a n : Nat) : (count d a n).nextUnit = d.nextUnit := rfl
@[simp] theorem count_tcam (d : Dev) (a n : Nat) : (count d a n).tcam = d.tcam := rfl
@[simp] theorem count_em (d : Dev) (a n : Nat) : (count d a n).em = d.em := rfl
@[simp] theorem count_flw (d : Dev) (a n : Nat) : (count d a n).flw = d.flw := rfl
@[simp] theorem count_qnt (d : Dev) (a n : Nat) : (count d a n).qnt = d.qnt := rfl
@[simp] theorem count_leafRecs (d : Dev) (a n : Nat) : (count d a n).leafRecs = d.leafRecs := rfl
@[simp] theorem count_headRecs (d : Dev) (a n : Nat) : (count d a n).headRecs = d.headRecs := rfl
@[simp] theorem count_labels (d : Dev) (a n : Nat) : (count d a n).labels = d.labels := rfl
@[simp] theorem count_banks (d : Dev) (a n : Nat) : (count d a n).banks = d.banks := rfl
@[simp] theorem count_refit (d : Dev) (a n : Nat) : (count d a n).refit = d.refit := rfl
@[simp] theorem count_runQueue (d : Dev) (a n : Nat) : (count d a n).runQueue = d.runQueue := rfl
@[simp] theorem count_runs (d : Dev) (a n : Nat) : (count d a n).runs = d.runs := rfl
@[simp] theorem count_epochs (d : Dev) (a n : Nat) : (count d a n).epochs = d.epochs := rfl
@[simp] theorem count_grf (d : Dev) (a n : Nat) : (count d a n).grf = d.grf := rfl
@[simp] theorem count_tmg (d : Dev) (a n : Nat) : (count d a n).tmg = d.tmg := rfl
@[simp] theorem count_stm (d : Dev) (a n : Nat) : (count d a n).stm = d.stm := rfl
@[simp] theorem count_prt (d : Dev) (a n : Nat) : (count d a n).prt = d.prt := rfl
@[simp] theorem count_spr (d : Dev) (a n : Nat) : (count d a n).spr = d.spr := rfl
@[simp] theorem count_mem (d : Dev) (a n : Nat) : (count d a n).mem = d.mem := rfl
@[simp] theorem count_chans (d : Dev) (a n : Nat) : (count d a n).chans = d.chans := rfl
@[simp] theorem count_hif (d : Dev) (a n : Nat) : (count d a n).hif = d.hif := rfl
@[simp] theorem count_trl (d : Dev) (a n : Nat) : (count d a n).trl = d.trl := rfl
@[simp] theorem count_clp (d : Dev) (a n : Nat) : (count d a n).clp = d.clp := rfl
@[simp] theorem count_flt (d : Dev) (a n : Nat) : (count d a n).flt = d.flt := rfl
@[simp] theorem count_sgn (d : Dev) (a n : Nat) : (count d a n).sgn = d.sgn := rfl
@[simp] theorem count_sec (d : Dev) (a n : Nat) : (count d a n).sec = d.sec := rfl
@[simp] theorem count_cfg (d : Dev) (a n : Nat) : (count d a n).cfg = d.cfg := rfl
@[simp] theorem count_lpe (d : Dev) (a n : Nat) : (count d a n).lpe = d.lpe := rfl
@[simp] theorem count_bridge (d : Dev) (a n : Nat) : (count d a n).bridge = d.bridge := rfl
@[simp] theorem count_free (d : Dev) (a n : Nat) : (count d a n).free = d.free := rfl
@[simp] theorem count_out (d : Dev) (a n : Nat) : (count d a n).out = d.out := rfl

/-! ### `tick` -/

@[simp] theorem tick_regs (d : Dev) (a : Nat) : (tick d a).regs = d.regs := rfl
@[simp] theorem tick_shadow (d : Dev) (a : Nat) : (tick d a).shadow = d.shadow := rfl
@[simp] theorem tick_latch (d : Dev) (a : Nat) : (tick d a).latch = d.latch := rfl
@[simp] theorem tick_tb (d : Dev) (a : Nat) : (tick d a).tb = d.tb := rfl
@[simp] theorem tick_clk (d : Dev) (a : Nat) : (tick d a).clk = d.clk := rfl
@[simp] theorem tick_pins (d : Dev) (a : Nat) : (tick d a).pins = d.pins := rfl
@[simp] theorem tick_straps (d : Dev) (a : Nat) : (tick d a).straps = d.straps := rfl
@[simp] theorem tick_units (d : Dev) (a : Nat) : (tick d a).units = d.units := rfl
@[simp] theorem tick_nextUnit (d : Dev) (a : Nat) : (tick d a).nextUnit = d.nextUnit := rfl
@[simp] theorem tick_tcam (d : Dev) (a : Nat) : (tick d a).tcam = d.tcam := rfl
@[simp] theorem tick_em (d : Dev) (a : Nat) : (tick d a).em = d.em := rfl
@[simp] theorem tick_flw (d : Dev) (a : Nat) : (tick d a).flw = d.flw := rfl
@[simp] theorem tick_qnt (d : Dev) (a : Nat) : (tick d a).qnt = d.qnt := rfl
@[simp] theorem tick_leafRecs (d : Dev) (a : Nat) : (tick d a).leafRecs = d.leafRecs := rfl
@[simp] theorem tick_headRecs (d : Dev) (a : Nat) : (tick d a).headRecs = d.headRecs := rfl
@[simp] theorem tick_labels (d : Dev) (a : Nat) : (tick d a).labels = d.labels := rfl
@[simp] theorem tick_banks (d : Dev) (a : Nat) : (tick d a).banks = d.banks := rfl
@[simp] theorem tick_refit (d : Dev) (a : Nat) : (tick d a).refit = d.refit := rfl
@[simp] theorem tick_runQueue (d : Dev) (a : Nat) : (tick d a).runQueue = d.runQueue := rfl
@[simp] theorem tick_runs (d : Dev) (a : Nat) : (tick d a).runs = d.runs := rfl
@[simp] theorem tick_epochs (d : Dev) (a : Nat) : (tick d a).epochs = d.epochs := rfl
@[simp] theorem tick_grf (d : Dev) (a : Nat) : (tick d a).grf = d.grf := rfl
@[simp] theorem tick_tmg (d : Dev) (a : Nat) : (tick d a).tmg = d.tmg := rfl
@[simp] theorem tick_stm (d : Dev) (a : Nat) : (tick d a).stm = d.stm := rfl
@[simp] theorem tick_prt (d : Dev) (a : Nat) : (tick d a).prt = d.prt := rfl
@[simp] theorem tick_spr (d : Dev) (a : Nat) : (tick d a).spr = d.spr := rfl
@[simp] theorem tick_mem (d : Dev) (a : Nat) : (tick d a).mem = d.mem := rfl
@[simp] theorem tick_chans (d : Dev) (a : Nat) : (tick d a).chans = d.chans := rfl
@[simp] theorem tick_hif (d : Dev) (a : Nat) : (tick d a).hif = d.hif := rfl
@[simp] theorem tick_trl (d : Dev) (a : Nat) : (tick d a).trl = d.trl := rfl
@[simp] theorem tick_clp (d : Dev) (a : Nat) : (tick d a).clp = d.clp := rfl
@[simp] theorem tick_flt (d : Dev) (a : Nat) : (tick d a).flt = d.flt := rfl
@[simp] theorem tick_sgn (d : Dev) (a : Nat) : (tick d a).sgn = d.sgn := rfl
@[simp] theorem tick_sec (d : Dev) (a : Nat) : (tick d a).sec = d.sec := rfl
@[simp] theorem tick_cfg (d : Dev) (a : Nat) : (tick d a).cfg = d.cfg := rfl
@[simp] theorem tick_lpe (d : Dev) (a : Nat) : (tick d a).lpe = d.lpe := rfl
@[simp] theorem tick_bridge (d : Dev) (a : Nat) : (tick d a).bridge = d.bridge := rfl
@[simp] theorem tick_free (d : Dev) (a : Nat) : (tick d a).free = d.free := rfl
@[simp] theorem tick_out (d : Dev) (a : Nat) : (tick d a).out = d.out := rfl

/-! ### `tickIf` -/

@[simp] theorem tickIf_regs (b : Bool) (d : Dev) (a : Nat) : (tickIf b d a).regs = d.regs := by cases b <;> rfl
@[simp] theorem tickIf_shadow (b : Bool) (d : Dev) (a : Nat) : (tickIf b d a).shadow = d.shadow := by cases b <;> rfl
@[simp] theorem tickIf_latch (b : Bool) (d : Dev) (a : Nat) : (tickIf b d a).latch = d.latch := by cases b <;> rfl
@[simp] theorem tickIf_tb (b : Bool) (d : Dev) (a : Nat) : (tickIf b d a).tb = d.tb := by cases b <;> rfl
@[simp] theorem tickIf_clk (b : Bool) (d : Dev) (a : Nat) : (tickIf b d a).clk = d.clk := by cases b <;> rfl
@[simp] theorem tickIf_pins (b : Bool) (d : Dev) (a : Nat) : (tickIf b d a).pins = d.pins := by cases b <;> rfl
@[simp] theorem tickIf_straps (b : Bool) (d : Dev) (a : Nat) : (tickIf b d a).straps = d.straps := by cases b <;> rfl
@[simp] theorem tickIf_units (b : Bool) (d : Dev) (a : Nat) : (tickIf b d a).units = d.units := by cases b <;> rfl
@[simp] theorem tickIf_nextUnit (b : Bool) (d : Dev) (a : Nat) : (tickIf b d a).nextUnit = d.nextUnit := by cases b <;> rfl
@[simp] theorem tickIf_tcam (b : Bool) (d : Dev) (a : Nat) : (tickIf b d a).tcam = d.tcam := by cases b <;> rfl
@[simp] theorem tickIf_em (b : Bool) (d : Dev) (a : Nat) : (tickIf b d a).em = d.em := by cases b <;> rfl
@[simp] theorem tickIf_flw (b : Bool) (d : Dev) (a : Nat) : (tickIf b d a).flw = d.flw := by cases b <;> rfl
@[simp] theorem tickIf_qnt (b : Bool) (d : Dev) (a : Nat) : (tickIf b d a).qnt = d.qnt := by cases b <;> rfl
@[simp] theorem tickIf_leafRecs (b : Bool) (d : Dev) (a : Nat) : (tickIf b d a).leafRecs = d.leafRecs := by cases b <;> rfl
@[simp] theorem tickIf_headRecs (b : Bool) (d : Dev) (a : Nat) : (tickIf b d a).headRecs = d.headRecs := by cases b <;> rfl
@[simp] theorem tickIf_labels (b : Bool) (d : Dev) (a : Nat) : (tickIf b d a).labels = d.labels := by cases b <;> rfl
@[simp] theorem tickIf_banks (b : Bool) (d : Dev) (a : Nat) : (tickIf b d a).banks = d.banks := by cases b <;> rfl
@[simp] theorem tickIf_refit (b : Bool) (d : Dev) (a : Nat) : (tickIf b d a).refit = d.refit := by cases b <;> rfl
@[simp] theorem tickIf_runQueue (b : Bool) (d : Dev) (a : Nat) : (tickIf b d a).runQueue = d.runQueue := by cases b <;> rfl
@[simp] theorem tickIf_runs (b : Bool) (d : Dev) (a : Nat) : (tickIf b d a).runs = d.runs := by cases b <;> rfl
@[simp] theorem tickIf_epochs (b : Bool) (d : Dev) (a : Nat) : (tickIf b d a).epochs = d.epochs := by cases b <;> rfl
@[simp] theorem tickIf_grf (b : Bool) (d : Dev) (a : Nat) : (tickIf b d a).grf = d.grf := by cases b <;> rfl
@[simp] theorem tickIf_tmg (b : Bool) (d : Dev) (a : Nat) : (tickIf b d a).tmg = d.tmg := by cases b <;> rfl
@[simp] theorem tickIf_stm (b : Bool) (d : Dev) (a : Nat) : (tickIf b d a).stm = d.stm := by cases b <;> rfl
@[simp] theorem tickIf_prt (b : Bool) (d : Dev) (a : Nat) : (tickIf b d a).prt = d.prt := by cases b <;> rfl
@[simp] theorem tickIf_spr (b : Bool) (d : Dev) (a : Nat) : (tickIf b d a).spr = d.spr := by cases b <;> rfl
@[simp] theorem tickIf_mem (b : Bool) (d : Dev) (a : Nat) : (tickIf b d a).mem = d.mem := by cases b <;> rfl
@[simp] theorem tickIf_chans (b : Bool) (d : Dev) (a : Nat) : (tickIf b d a).chans = d.chans := by cases b <;> rfl
@[simp] theorem tickIf_hif (b : Bool) (d : Dev) (a : Nat) : (tickIf b d a).hif = d.hif := by cases b <;> rfl
@[simp] theorem tickIf_trl (b : Bool) (d : Dev) (a : Nat) : (tickIf b d a).trl = d.trl := by cases b <;> rfl
@[simp] theorem tickIf_clp (b : Bool) (d : Dev) (a : Nat) : (tickIf b d a).clp = d.clp := by cases b <;> rfl
@[simp] theorem tickIf_flt (b : Bool) (d : Dev) (a : Nat) : (tickIf b d a).flt = d.flt := by cases b <;> rfl
@[simp] theorem tickIf_sgn (b : Bool) (d : Dev) (a : Nat) : (tickIf b d a).sgn = d.sgn := by cases b <;> rfl
@[simp] theorem tickIf_sec (b : Bool) (d : Dev) (a : Nat) : (tickIf b d a).sec = d.sec := by cases b <;> rfl
@[simp] theorem tickIf_cfg (b : Bool) (d : Dev) (a : Nat) : (tickIf b d a).cfg = d.cfg := by cases b <;> rfl
@[simp] theorem tickIf_lpe (b : Bool) (d : Dev) (a : Nat) : (tickIf b d a).lpe = d.lpe := by cases b <;> rfl
@[simp] theorem tickIf_bridge (b : Bool) (d : Dev) (a : Nat) : (tickIf b d a).bridge = d.bridge := by cases b <;> rfl
@[simp] theorem tickIf_free (b : Bool) (d : Dev) (a : Nat) : (tickIf b d a).free = d.free := by cases b <;> rfl
@[simp] theorem tickIf_out (b : Bool) (d : Dev) (a : Nat) : (tickIf b d a).out = d.out := by cases b <;> rfl

/-! ### `emit` -/

@[simp] theorem emit_regs (d : Dev) (o : Out) : (emit d o).regs = d.regs := rfl
@[simp] theorem emit_shadow (d : Dev) (o : Out) : (emit d o).shadow = d.shadow := rfl
@[simp] theorem emit_ctrs (d : Dev) (o : Out) : (emit d o).ctrs = d.ctrs := rfl
@[simp] theorem emit_latch (d : Dev) (o : Out) : (emit d o).latch = d.latch := rfl
@[simp] theorem emit_tb (d : Dev) (o : Out) : (emit d o).tb = d.tb := rfl
@[simp] theorem emit_clk (d : Dev) (o : Out) : (emit d o).clk = d.clk := rfl
@[simp] theorem emit_pins (d : Dev) (o : Out) : (emit d o).pins = d.pins := rfl
@[simp] theorem emit_straps (d : Dev) (o : Out) : (emit d o).straps = d.straps := rfl
@[simp] theorem emit_units (d : Dev) (o : Out) : (emit d o).units = d.units := rfl
@[simp] theorem emit_nextUnit (d : Dev) (o : Out) : (emit d o).nextUnit = d.nextUnit := rfl
@[simp] theorem emit_tcam (d : Dev) (o : Out) : (emit d o).tcam = d.tcam := rfl
@[simp] theorem emit_em (d : Dev) (o : Out) : (emit d o).em = d.em := rfl
@[simp] theorem emit_flw (d : Dev) (o : Out) : (emit d o).flw = d.flw := rfl
@[simp] theorem emit_qnt (d : Dev) (o : Out) : (emit d o).qnt = d.qnt := rfl
@[simp] theorem emit_leafRecs (d : Dev) (o : Out) : (emit d o).leafRecs = d.leafRecs := rfl
@[simp] theorem emit_headRecs (d : Dev) (o : Out) : (emit d o).headRecs = d.headRecs := rfl
@[simp] theorem emit_labels (d : Dev) (o : Out) : (emit d o).labels = d.labels := rfl
@[simp] theorem emit_banks (d : Dev) (o : Out) : (emit d o).banks = d.banks := rfl
@[simp] theorem emit_refit (d : Dev) (o : Out) : (emit d o).refit = d.refit := rfl
@[simp] theorem emit_runQueue (d : Dev) (o : Out) : (emit d o).runQueue = d.runQueue := rfl
@[simp] theorem emit_runs (d : Dev) (o : Out) : (emit d o).runs = d.runs := rfl
@[simp] theorem emit_epochs (d : Dev) (o : Out) : (emit d o).epochs = d.epochs := rfl
@[simp] theorem emit_grf (d : Dev) (o : Out) : (emit d o).grf = d.grf := rfl
@[simp] theorem emit_tmg (d : Dev) (o : Out) : (emit d o).tmg = d.tmg := rfl
@[simp] theorem emit_stm (d : Dev) (o : Out) : (emit d o).stm = d.stm := rfl
@[simp] theorem emit_prt (d : Dev) (o : Out) : (emit d o).prt = d.prt := rfl
@[simp] theorem emit_spr (d : Dev) (o : Out) : (emit d o).spr = d.spr := rfl
@[simp] theorem emit_mem (d : Dev) (o : Out) : (emit d o).mem = d.mem := rfl
@[simp] theorem emit_chans (d : Dev) (o : Out) : (emit d o).chans = d.chans := rfl
@[simp] theorem emit_hif (d : Dev) (o : Out) : (emit d o).hif = d.hif := rfl
@[simp] theorem emit_trl (d : Dev) (o : Out) : (emit d o).trl = d.trl := rfl
@[simp] theorem emit_clp (d : Dev) (o : Out) : (emit d o).clp = d.clp := rfl
@[simp] theorem emit_flt (d : Dev) (o : Out) : (emit d o).flt = d.flt := rfl
@[simp] theorem emit_sgn (d : Dev) (o : Out) : (emit d o).sgn = d.sgn := rfl
@[simp] theorem emit_sec (d : Dev) (o : Out) : (emit d o).sec = d.sec := rfl
@[simp] theorem emit_cfg (d : Dev) (o : Out) : (emit d o).cfg = d.cfg := rfl
@[simp] theorem emit_lpe (d : Dev) (o : Out) : (emit d o).lpe = d.lpe := rfl
@[simp] theorem emit_bridge (d : Dev) (o : Out) : (emit d o).bridge = d.bridge := rfl
@[simp] theorem emit_free (d : Dev) (o : Out) : (emit d o).free = d.free := rfl

/-! ### `setUnit` -/

@[simp] theorem setUnit_regs (d : Dev) (u : Nat) (r : UnitRec) : (setUnit d u r).regs = d.regs := rfl
@[simp] theorem setUnit_shadow (d : Dev) (u : Nat) (r : UnitRec) : (setUnit d u r).shadow = d.shadow := rfl
@[simp] theorem setUnit_ctrs (d : Dev) (u : Nat) (r : UnitRec) : (setUnit d u r).ctrs = d.ctrs := rfl
@[simp] theorem setUnit_latch (d : Dev) (u : Nat) (r : UnitRec) : (setUnit d u r).latch = d.latch := rfl
@[simp] theorem setUnit_tb (d : Dev) (u : Nat) (r : UnitRec) : (setUnit d u r).tb = d.tb := rfl
@[simp] theorem setUnit_clk (d : Dev) (u : Nat) (r : UnitRec) : (setUnit d u r).clk = d.clk := rfl
@[simp] theorem setUnit_pins (d : Dev) (u : Nat) (r : UnitRec) : (setUnit d u r).pins = d.pins := rfl
@[simp] theorem setUnit_straps (d : Dev) (u : Nat) (r : UnitRec) : (setUnit d u r).straps = d.straps := rfl
@[simp] theorem setUnit_nextUnit (d : Dev) (u : Nat) (r : UnitRec) : (setUnit d u r).nextUnit = d.nextUnit := rfl
@[simp] theorem setUnit_tcam (d : Dev) (u : Nat) (r : UnitRec) : (setUnit d u r).tcam = d.tcam := rfl
@[simp] theorem setUnit_em (d : Dev) (u : Nat) (r : UnitRec) : (setUnit d u r).em = d.em := rfl
@[simp] theorem setUnit_flw (d : Dev) (u : Nat) (r : UnitRec) : (setUnit d u r).flw = d.flw := rfl
@[simp] theorem setUnit_qnt (d : Dev) (u : Nat) (r : UnitRec) : (setUnit d u r).qnt = d.qnt := rfl
@[simp] theorem setUnit_leafRecs (d : Dev) (u : Nat) (r : UnitRec) : (setUnit d u r).leafRecs = d.leafRecs := rfl
@[simp] theorem setUnit_headRecs (d : Dev) (u : Nat) (r : UnitRec) : (setUnit d u r).headRecs = d.headRecs := rfl
@[simp] theorem setUnit_labels (d : Dev) (u : Nat) (r : UnitRec) : (setUnit d u r).labels = d.labels := rfl
@[simp] theorem setUnit_banks (d : Dev) (u : Nat) (r : UnitRec) : (setUnit d u r).banks = d.banks := rfl
@[simp] theorem setUnit_refit (d : Dev) (u : Nat) (r : UnitRec) : (setUnit d u r).refit = d.refit := rfl
@[simp] theorem setUnit_runQueue (d : Dev) (u : Nat) (r : UnitRec) : (setUnit d u r).runQueue = d.runQueue := rfl
@[simp] theorem setUnit_runs (d : Dev) (u : Nat) (r : UnitRec) : (setUnit d u r).runs = d.runs := rfl
@[simp] theorem setUnit_epochs (d : Dev) (u : Nat) (r : UnitRec) : (setUnit d u r).epochs = d.epochs := rfl
@[simp] theorem setUnit_grf (d : Dev) (u : Nat) (r : UnitRec) : (setUnit d u r).grf = d.grf := rfl
@[simp] theorem setUnit_tmg (d : Dev) (u : Nat) (r : UnitRec) : (setUnit d u r).tmg = d.tmg := rfl
@[simp] theorem setUnit_stm (d : Dev) (u : Nat) (r : UnitRec) : (setUnit d u r).stm = d.stm := rfl
@[simp] theorem setUnit_prt (d : Dev) (u : Nat) (r : UnitRec) : (setUnit d u r).prt = d.prt := rfl
@[simp] theorem setUnit_spr (d : Dev) (u : Nat) (r : UnitRec) : (setUnit d u r).spr = d.spr := rfl
@[simp] theorem setUnit_mem (d : Dev) (u : Nat) (r : UnitRec) : (setUnit d u r).mem = d.mem := rfl
@[simp] theorem setUnit_chans (d : Dev) (u : Nat) (r : UnitRec) : (setUnit d u r).chans = d.chans := rfl
@[simp] theorem setUnit_hif (d : Dev) (u : Nat) (r : UnitRec) : (setUnit d u r).hif = d.hif := rfl
@[simp] theorem setUnit_trl (d : Dev) (u : Nat) (r : UnitRec) : (setUnit d u r).trl = d.trl := rfl
@[simp] theorem setUnit_clp (d : Dev) (u : Nat) (r : UnitRec) : (setUnit d u r).clp = d.clp := rfl
@[simp] theorem setUnit_flt (d : Dev) (u : Nat) (r : UnitRec) : (setUnit d u r).flt = d.flt := rfl
@[simp] theorem setUnit_sgn (d : Dev) (u : Nat) (r : UnitRec) : (setUnit d u r).sgn = d.sgn := rfl
@[simp] theorem setUnit_sec (d : Dev) (u : Nat) (r : UnitRec) : (setUnit d u r).sec = d.sec := rfl
@[simp] theorem setUnit_cfg (d : Dev) (u : Nat) (r : UnitRec) : (setUnit d u r).cfg = d.cfg := rfl
@[simp] theorem setUnit_lpe (d : Dev) (u : Nat) (r : UnitRec) : (setUnit d u r).lpe = d.lpe := rfl
@[simp] theorem setUnit_bridge (d : Dev) (u : Nat) (r : UnitRec) : (setUnit d u r).bridge = d.bridge := rfl
@[simp] theorem setUnit_free (d : Dev) (u : Nat) (r : UnitRec) : (setUnit d u r).free = d.free := rfl
@[simp] theorem setUnit_out (d : Dev) (u : Nat) (r : UnitRec) : (setUnit d u r).out = d.out := rfl

/-! ### `delUnit` -/

@[simp] theorem delUnit_regs (d : Dev) (u : Nat) : (delUnit d u).regs = d.regs := rfl
@[simp] theorem delUnit_shadow (d : Dev) (u : Nat) : (delUnit d u).shadow = d.shadow := rfl
@[simp] theorem delUnit_ctrs (d : Dev) (u : Nat) : (delUnit d u).ctrs = d.ctrs := rfl
@[simp] theorem delUnit_latch (d : Dev) (u : Nat) : (delUnit d u).latch = d.latch := rfl
@[simp] theorem delUnit_tb (d : Dev) (u : Nat) : (delUnit d u).tb = d.tb := rfl
@[simp] theorem delUnit_clk (d : Dev) (u : Nat) : (delUnit d u).clk = d.clk := rfl
@[simp] theorem delUnit_pins (d : Dev) (u : Nat) : (delUnit d u).pins = d.pins := rfl
@[simp] theorem delUnit_straps (d : Dev) (u : Nat) : (delUnit d u).straps = d.straps := rfl
@[simp] theorem delUnit_nextUnit (d : Dev) (u : Nat) : (delUnit d u).nextUnit = d.nextUnit := rfl
@[simp] theorem delUnit_tcam (d : Dev) (u : Nat) : (delUnit d u).tcam = d.tcam := rfl
@[simp] theorem delUnit_em (d : Dev) (u : Nat) : (delUnit d u).em = d.em := rfl
@[simp] theorem delUnit_flw (d : Dev) (u : Nat) : (delUnit d u).flw = d.flw := rfl
@[simp] theorem delUnit_qnt (d : Dev) (u : Nat) : (delUnit d u).qnt = d.qnt := rfl
@[simp] theorem delUnit_leafRecs (d : Dev) (u : Nat) : (delUnit d u).leafRecs = d.leafRecs := rfl
@[simp] theorem delUnit_headRecs (d : Dev) (u : Nat) : (delUnit d u).headRecs = d.headRecs := rfl
@[simp] theorem delUnit_labels (d : Dev) (u : Nat) : (delUnit d u).labels = d.labels := rfl
@[simp] theorem delUnit_banks (d : Dev) (u : Nat) : (delUnit d u).banks = d.banks := rfl
@[simp] theorem delUnit_refit (d : Dev) (u : Nat) : (delUnit d u).refit = d.refit := rfl
@[simp] theorem delUnit_runQueue (d : Dev) (u : Nat) : (delUnit d u).runQueue = d.runQueue := rfl
@[simp] theorem delUnit_runs (d : Dev) (u : Nat) : (delUnit d u).runs = d.runs := rfl
@[simp] theorem delUnit_epochs (d : Dev) (u : Nat) : (delUnit d u).epochs = d.epochs := rfl
@[simp] theorem delUnit_grf (d : Dev) (u : Nat) : (delUnit d u).grf = d.grf := rfl
@[simp] theorem delUnit_tmg (d : Dev) (u : Nat) : (delUnit d u).tmg = d.tmg := rfl
@[simp] theorem delUnit_stm (d : Dev) (u : Nat) : (delUnit d u).stm = d.stm := rfl
@[simp] theorem delUnit_prt (d : Dev) (u : Nat) : (delUnit d u).prt = d.prt := rfl
@[simp] theorem delUnit_spr (d : Dev) (u : Nat) : (delUnit d u).spr = d.spr := rfl
@[simp] theorem delUnit_mem (d : Dev) (u : Nat) : (delUnit d u).mem = d.mem := rfl
@[simp] theorem delUnit_chans (d : Dev) (u : Nat) : (delUnit d u).chans = d.chans := rfl
@[simp] theorem delUnit_hif (d : Dev) (u : Nat) : (delUnit d u).hif = d.hif := rfl
@[simp] theorem delUnit_trl (d : Dev) (u : Nat) : (delUnit d u).trl = d.trl := rfl
@[simp] theorem delUnit_clp (d : Dev) (u : Nat) : (delUnit d u).clp = d.clp := rfl
@[simp] theorem delUnit_flt (d : Dev) (u : Nat) : (delUnit d u).flt = d.flt := rfl
@[simp] theorem delUnit_sgn (d : Dev) (u : Nat) : (delUnit d u).sgn = d.sgn := rfl
@[simp] theorem delUnit_sec (d : Dev) (u : Nat) : (delUnit d u).sec = d.sec := rfl
@[simp] theorem delUnit_cfg (d : Dev) (u : Nat) : (delUnit d u).cfg = d.cfg := rfl
@[simp] theorem delUnit_lpe (d : Dev) (u : Nat) : (delUnit d u).lpe = d.lpe := rfl
@[simp] theorem delUnit_bridge (d : Dev) (u : Nat) : (delUnit d u).bridge = d.bridge := rfl
@[simp] theorem delUnit_free (d : Dev) (u : Nat) : (delUnit d u).free = d.free := rfl
@[simp] theorem delUnit_out (d : Dev) (u : Nat) : (delUnit d u).out = d.out := rfl

/-! ### `modUnit` -/

@[simp] theorem modUnit_regs (d : Dev) (u : Nat) (g : UnitRec → UnitRec) : (modUnit d u g).regs = d.regs := rfl
@[simp] theorem modUnit_shadow (d : Dev) (u : Nat) (g : UnitRec → UnitRec) : (modUnit d u g).shadow = d.shadow := rfl
@[simp] theorem modUnit_ctrs (d : Dev) (u : Nat) (g : UnitRec → UnitRec) : (modUnit d u g).ctrs = d.ctrs := rfl
@[simp] theorem modUnit_latch (d : Dev) (u : Nat) (g : UnitRec → UnitRec) : (modUnit d u g).latch = d.latch := rfl
@[simp] theorem modUnit_tb (d : Dev) (u : Nat) (g : UnitRec → UnitRec) : (modUnit d u g).tb = d.tb := rfl
@[simp] theorem modUnit_clk (d : Dev) (u : Nat) (g : UnitRec → UnitRec) : (modUnit d u g).clk = d.clk := rfl
@[simp] theorem modUnit_pins (d : Dev) (u : Nat) (g : UnitRec → UnitRec) : (modUnit d u g).pins = d.pins := rfl
@[simp] theorem modUnit_straps (d : Dev) (u : Nat) (g : UnitRec → UnitRec) : (modUnit d u g).straps = d.straps := rfl
@[simp] theorem modUnit_nextUnit (d : Dev) (u : Nat) (g : UnitRec → UnitRec) : (modUnit d u g).nextUnit = d.nextUnit := rfl
@[simp] theorem modUnit_tcam (d : Dev) (u : Nat) (g : UnitRec → UnitRec) : (modUnit d u g).tcam = d.tcam := rfl
@[simp] theorem modUnit_em (d : Dev) (u : Nat) (g : UnitRec → UnitRec) : (modUnit d u g).em = d.em := rfl
@[simp] theorem modUnit_flw (d : Dev) (u : Nat) (g : UnitRec → UnitRec) : (modUnit d u g).flw = d.flw := rfl
@[simp] theorem modUnit_qnt (d : Dev) (u : Nat) (g : UnitRec → UnitRec) : (modUnit d u g).qnt = d.qnt := rfl
@[simp] theorem modUnit_leafRecs (d : Dev) (u : Nat) (g : UnitRec → UnitRec) : (modUnit d u g).leafRecs = d.leafRecs := rfl
@[simp] theorem modUnit_headRecs (d : Dev) (u : Nat) (g : UnitRec → UnitRec) : (modUnit d u g).headRecs = d.headRecs := rfl
@[simp] theorem modUnit_labels (d : Dev) (u : Nat) (g : UnitRec → UnitRec) : (modUnit d u g).labels = d.labels := rfl
@[simp] theorem modUnit_banks (d : Dev) (u : Nat) (g : UnitRec → UnitRec) : (modUnit d u g).banks = d.banks := rfl
@[simp] theorem modUnit_refit (d : Dev) (u : Nat) (g : UnitRec → UnitRec) : (modUnit d u g).refit = d.refit := rfl
@[simp] theorem modUnit_runQueue (d : Dev) (u : Nat) (g : UnitRec → UnitRec) : (modUnit d u g).runQueue = d.runQueue := rfl
@[simp] theorem modUnit_runs (d : Dev) (u : Nat) (g : UnitRec → UnitRec) : (modUnit d u g).runs = d.runs := rfl
@[simp] theorem modUnit_epochs (d : Dev) (u : Nat) (g : UnitRec → UnitRec) : (modUnit d u g).epochs = d.epochs := rfl
@[simp] theorem modUnit_grf (d : Dev) (u : Nat) (g : UnitRec → UnitRec) : (modUnit d u g).grf = d.grf := rfl
@[simp] theorem modUnit_tmg (d : Dev) (u : Nat) (g : UnitRec → UnitRec) : (modUnit d u g).tmg = d.tmg := rfl
@[simp] theorem modUnit_stm (d : Dev) (u : Nat) (g : UnitRec → UnitRec) : (modUnit d u g).stm = d.stm := rfl
@[simp] theorem modUnit_prt (d : Dev) (u : Nat) (g : UnitRec → UnitRec) : (modUnit d u g).prt = d.prt := rfl
@[simp] theorem modUnit_spr (d : Dev) (u : Nat) (g : UnitRec → UnitRec) : (modUnit d u g).spr = d.spr := rfl
@[simp] theorem modUnit_mem (d : Dev) (u : Nat) (g : UnitRec → UnitRec) : (modUnit d u g).mem = d.mem := rfl
@[simp] theorem modUnit_chans (d : Dev) (u : Nat) (g : UnitRec → UnitRec) : (modUnit d u g).chans = d.chans := rfl
@[simp] theorem modUnit_hif (d : Dev) (u : Nat) (g : UnitRec → UnitRec) : (modUnit d u g).hif = d.hif := rfl
@[simp] theorem modUnit_trl (d : Dev) (u : Nat) (g : UnitRec → UnitRec) : (modUnit d u g).trl = d.trl := rfl
@[simp] theorem modUnit_clp (d : Dev) (u : Nat) (g : UnitRec → UnitRec) : (modUnit d u g).clp = d.clp := rfl
@[simp] theorem modUnit_flt (d : Dev) (u : Nat) (g : UnitRec → UnitRec) : (modUnit d u g).flt = d.flt := rfl
@[simp] theorem modUnit_sgn (d : Dev) (u : Nat) (g : UnitRec → UnitRec) : (modUnit d u g).sgn = d.sgn := rfl
@[simp] theorem modUnit_sec (d : Dev) (u : Nat) (g : UnitRec → UnitRec) : (modUnit d u g).sec = d.sec := rfl
@[simp] theorem modUnit_cfg (d : Dev) (u : Nat) (g : UnitRec → UnitRec) : (modUnit d u g).cfg = d.cfg := rfl
@[simp] theorem modUnit_lpe (d : Dev) (u : Nat) (g : UnitRec → UnitRec) : (modUnit d u g).lpe = d.lpe := rfl
@[simp] theorem modUnit_bridge (d : Dev) (u : Nat) (g : UnitRec → UnitRec) : (modUnit d u g).bridge = d.bridge := rfl
@[simp] theorem modUnit_free (d : Dev) (u : Nat) (g : UnitRec → UnitRec) : (modUnit d u g).free = d.free := rfl
@[simp] theorem modUnit_out (d : Dev) (u : Nat) (g : UnitRec → UnitRec) : (modUnit d u g).out = d.out := rfl

/-! ### `fresh` -/

@[simp] theorem fresh_regs (d : Dev) : ((fresh d).2).regs = d.regs := rfl
@[simp] theorem fresh_shadow (d : Dev) : ((fresh d).2).shadow = d.shadow := rfl
@[simp] theorem fresh_ctrs (d : Dev) : ((fresh d).2).ctrs = d.ctrs := rfl
@[simp] theorem fresh_latch (d : Dev) : ((fresh d).2).latch = d.latch := rfl
@[simp] theorem fresh_tb (d : Dev) : ((fresh d).2).tb = d.tb := rfl
@[simp] theorem fresh_clk (d : Dev) : ((fresh d).2).clk = d.clk := rfl
@[simp] theorem fresh_pins (d : Dev) : ((fresh d).2).pins = d.pins := rfl
@[simp] theorem fresh_straps (d : Dev) : ((fresh d).2).straps = d.straps := rfl
@[simp] theorem fresh_units (d : Dev) : ((fresh d).2).units = d.units := rfl
@[simp] theorem fresh_nextUnit (d : Dev) : ((fresh d).2).nextUnit = d.nextUnit := rfl
@[simp] theorem fresh_tcam (d : Dev) : ((fresh d).2).tcam = d.tcam := rfl
@[simp] theorem fresh_em (d : Dev) : ((fresh d).2).em = d.em := rfl
@[simp] theorem fresh_flw (d : Dev) : ((fresh d).2).flw = d.flw := rfl
@[simp] theorem fresh_qnt (d : Dev) : ((fresh d).2).qnt = d.qnt := rfl
@[simp] theorem fresh_leafRecs (d : Dev) : ((fresh d).2).leafRecs = d.leafRecs := rfl
@[simp] theorem fresh_headRecs (d : Dev) : ((fresh d).2).headRecs = d.headRecs := rfl
@[simp] theorem fresh_labels (d : Dev) : ((fresh d).2).labels = d.labels := rfl
@[simp] theorem fresh_banks (d : Dev) : ((fresh d).2).banks = d.banks := rfl
@[simp] theorem fresh_refit (d : Dev) : ((fresh d).2).refit = d.refit := rfl
@[simp] theorem fresh_runQueue (d : Dev) : ((fresh d).2).runQueue = d.runQueue := rfl
@[simp] theorem fresh_runs (d : Dev) : ((fresh d).2).runs = d.runs := rfl
@[simp] theorem fresh_epochs (d : Dev) : ((fresh d).2).epochs = d.epochs := rfl
@[simp] theorem fresh_grf (d : Dev) : ((fresh d).2).grf = d.grf := rfl
@[simp] theorem fresh_tmg (d : Dev) : ((fresh d).2).tmg = d.tmg := rfl
@[simp] theorem fresh_stm (d : Dev) : ((fresh d).2).stm = d.stm := rfl
@[simp] theorem fresh_prt (d : Dev) : ((fresh d).2).prt = d.prt := rfl
@[simp] theorem fresh_spr (d : Dev) : ((fresh d).2).spr = d.spr := rfl
@[simp] theorem fresh_mem (d : Dev) : ((fresh d).2).mem = d.mem := rfl
@[simp] theorem fresh_chans (d : Dev) : ((fresh d).2).chans = d.chans := rfl
@[simp] theorem fresh_hif (d : Dev) : ((fresh d).2).hif = d.hif := rfl
@[simp] theorem fresh_trl (d : Dev) : ((fresh d).2).trl = d.trl := rfl
@[simp] theorem fresh_clp (d : Dev) : ((fresh d).2).clp = d.clp := rfl
@[simp] theorem fresh_flt (d : Dev) : ((fresh d).2).flt = d.flt := rfl
@[simp] theorem fresh_sgn (d : Dev) : ((fresh d).2).sgn = d.sgn := rfl
@[simp] theorem fresh_sec (d : Dev) : ((fresh d).2).sec = d.sec := rfl
@[simp] theorem fresh_cfg (d : Dev) : ((fresh d).2).cfg = d.cfg := rfl
@[simp] theorem fresh_lpe (d : Dev) : ((fresh d).2).lpe = d.lpe := rfl
@[simp] theorem fresh_bridge (d : Dev) : ((fresh d).2).bridge = d.bridge := rfl
@[simp] theorem fresh_out (d : Dev) : ((fresh d).2).out = d.out := rfl

/-! ### `memPut` -/

@[simp] theorem memPut_regs (d : Dev) (a : Nat) (bs : Bytes) : (memPut d a bs).regs = d.regs := rfl
@[simp] theorem memPut_shadow (d : Dev) (a : Nat) (bs : Bytes) : (memPut d a bs).shadow = d.shadow := rfl
@[simp] theorem memPut_ctrs (d : Dev) (a : Nat) (bs : Bytes) : (memPut d a bs).ctrs = d.ctrs := rfl
@[simp] theorem memPut_latch (d : Dev) (a : Nat) (bs : Bytes) : (memPut d a bs).latch = d.latch := rfl
@[simp] theorem memPut_tb (d : Dev) (a : Nat) (bs : Bytes) : (memPut d a bs).tb = d.tb := rfl
@[simp] theorem memPut_clk (d : Dev) (a : Nat) (bs : Bytes) : (memPut d a bs).clk = d.clk := rfl
@[simp] theorem memPut_pins (d : Dev) (a : Nat) (bs : Bytes) : (memPut d a bs).pins = d.pins := rfl
@[simp] theorem memPut_straps (d : Dev) (a : Nat) (bs : Bytes) : (memPut d a bs).straps = d.straps := rfl
@[simp] theorem memPut_units (d : Dev) (a : Nat) (bs : Bytes) : (memPut d a bs).units = d.units := rfl
@[simp] theorem memPut_nextUnit (d : Dev) (a : Nat) (bs : Bytes) : (memPut d a bs).nextUnit = d.nextUnit := rfl
@[simp] theorem memPut_tcam (d : Dev) (a : Nat) (bs : Bytes) : (memPut d a bs).tcam = d.tcam := rfl
@[simp] theorem memPut_em (d : Dev) (a : Nat) (bs : Bytes) : (memPut d a bs).em = d.em := rfl
@[simp] theorem memPut_flw (d : Dev) (a : Nat) (bs : Bytes) : (memPut d a bs).flw = d.flw := rfl
@[simp] theorem memPut_qnt (d : Dev) (a : Nat) (bs : Bytes) : (memPut d a bs).qnt = d.qnt := rfl
@[simp] theorem memPut_leafRecs (d : Dev) (a : Nat) (bs : Bytes) : (memPut d a bs).leafRecs = d.leafRecs := rfl
@[simp] theorem memPut_headRecs (d : Dev) (a : Nat) (bs : Bytes) : (memPut d a bs).headRecs = d.headRecs := rfl
@[simp] theorem memPut_labels (d : Dev) (a : Nat) (bs : Bytes) : (memPut d a bs).labels = d.labels := rfl
@[simp] theorem memPut_banks (d : Dev) (a : Nat) (bs : Bytes) : (memPut d a bs).banks = d.banks := rfl
@[simp] theorem memPut_refit (d : Dev) (a : Nat) (bs : Bytes) : (memPut d a bs).refit = d.refit := rfl
@[simp] theorem memPut_runQueue (d : Dev) (a : Nat) (bs : Bytes) : (memPut d a bs).runQueue = d.runQueue := rfl
@[simp] theorem memPut_runs (d : Dev) (a : Nat) (bs : Bytes) : (memPut d a bs).runs = d.runs := rfl
@[simp] theorem memPut_epochs (d : Dev) (a : Nat) (bs : Bytes) : (memPut d a bs).epochs = d.epochs := rfl
@[simp] theorem memPut_grf (d : Dev) (a : Nat) (bs : Bytes) : (memPut d a bs).grf = d.grf := rfl
@[simp] theorem memPut_tmg (d : Dev) (a : Nat) (bs : Bytes) : (memPut d a bs).tmg = d.tmg := rfl
@[simp] theorem memPut_stm (d : Dev) (a : Nat) (bs : Bytes) : (memPut d a bs).stm = d.stm := rfl
@[simp] theorem memPut_prt (d : Dev) (a : Nat) (bs : Bytes) : (memPut d a bs).prt = d.prt := rfl
@[simp] theorem memPut_spr (d : Dev) (a : Nat) (bs : Bytes) : (memPut d a bs).spr = d.spr := rfl
@[simp] theorem memPut_chans (d : Dev) (a : Nat) (bs : Bytes) : (memPut d a bs).chans = d.chans := rfl
@[simp] theorem memPut_hif (d : Dev) (a : Nat) (bs : Bytes) : (memPut d a bs).hif = d.hif := rfl
@[simp] theorem memPut_trl (d : Dev) (a : Nat) (bs : Bytes) : (memPut d a bs).trl = d.trl := rfl
@[simp] theorem memPut_clp (d : Dev) (a : Nat) (bs : Bytes) : (memPut d a bs).clp = d.clp := rfl
@[simp] theorem memPut_flt (d : Dev) (a : Nat) (bs : Bytes) : (memPut d a bs).flt = d.flt := rfl
@[simp] theorem memPut_sgn (d : Dev) (a : Nat) (bs : Bytes) : (memPut d a bs).sgn = d.sgn := rfl
@[simp] theorem memPut_sec (d : Dev) (a : Nat) (bs : Bytes) : (memPut d a bs).sec = d.sec := rfl
@[simp] theorem memPut_cfg (d : Dev) (a : Nat) (bs : Bytes) : (memPut d a bs).cfg = d.cfg := rfl
@[simp] theorem memPut_lpe (d : Dev) (a : Nat) (bs : Bytes) : (memPut d a bs).lpe = d.lpe := rfl
@[simp] theorem memPut_bridge (d : Dev) (a : Nat) (bs : Bytes) : (memPut d a bs).bridge = d.bridge := rfl
@[simp] theorem memPut_free (d : Dev) (a : Nat) (bs : Bytes) : (memPut d a bs).free = d.free := rfl
@[simp] theorem memPut_out (d : Dev) (a : Nat) (bs : Bytes) : (memPut d a bs).out = d.out := rfl

/-! ### `rawClear` -/

@[simp] theorem rawClear_regs (d : Dev) (a n : Nat) : (rawClear d a n).regs = d.regs := rfl
@[simp] theorem rawClear_shadow (d : Dev) (a n : Nat) : (rawClear d a n).shadow = d.shadow := rfl
@[simp] theorem rawClear_ctrs (d : Dev) (a n : Nat) : (rawClear d a n).ctrs = d.ctrs := rfl
@[simp] theorem rawClear_latch (d : Dev) (a n : Nat) : (rawClear d a n).latch = d.latch := rfl
@[simp] theorem rawClear_tb (d : Dev) (a n : Nat) : (rawClear d a n).tb = d.tb := rfl
@[simp] theorem rawClear_clk (d : Dev) (a n : Nat) : (rawClear d a n).clk = d.clk := rfl
@[simp] theorem rawClear_pins (d : Dev) (a n : Nat) : (rawClear d a n).pins = d.pins := rfl
@[simp] theorem rawClear_straps (d : Dev) (a n : Nat) : (rawClear d a n).straps = d.straps := rfl
@[simp] theorem rawClear_units (d : Dev) (a n : Nat) : (rawClear d a n).units = d.units := rfl
@[simp] theorem rawClear_nextUnit (d : Dev) (a n : Nat) : (rawClear d a n).nextUnit = d.nextUnit := rfl
@[simp] theorem rawClear_tcam (d : Dev) (a n : Nat) : (rawClear d a n).tcam = d.tcam := rfl
@[simp] theorem rawClear_em (d : Dev) (a n : Nat) : (rawClear d a n).em = d.em := rfl
@[simp] theorem rawClear_flw (d : Dev) (a n : Nat) : (rawClear d a n).flw = d.flw := rfl
@[simp] theorem rawClear_qnt (d : Dev) (a n : Nat) : (rawClear d a n).qnt = d.qnt := rfl
@[simp] theorem rawClear_leafRecs (d : Dev) (a n : Nat) : (rawClear d a n).leafRecs = d.leafRecs := rfl
@[simp] theorem rawClear_headRecs (d : Dev) (a n : Nat) : (rawClear d a n).headRecs = d.headRecs := rfl
@[simp] theorem rawClear_labels (d : Dev) (a n : Nat) : (rawClear d a n).labels = d.labels := rfl
@[simp] theorem rawClear_banks (d : Dev) (a n : Nat) : (rawClear d a n).banks = d.banks := rfl
@[simp] theorem rawClear_refit (d : Dev) (a n : Nat) : (rawClear d a n).refit = d.refit := rfl
@[simp] theorem rawClear_runQueue (d : Dev) (a n : Nat) : (rawClear d a n).runQueue = d.runQueue := rfl
@[simp] theorem rawClear_runs (d : Dev) (a n : Nat) : (rawClear d a n).runs = d.runs := rfl
@[simp] theorem rawClear_epochs (d : Dev) (a n : Nat) : (rawClear d a n).epochs = d.epochs := rfl
@[simp] theorem rawClear_grf (d : Dev) (a n : Nat) : (rawClear d a n).grf = d.grf := rfl
@[simp] theorem rawClear_tmg (d : Dev) (a n : Nat) : (rawClear d a n).tmg = d.tmg := rfl
@[simp] theorem rawClear_stm (d : Dev) (a n : Nat) : (rawClear d a n).stm = d.stm := rfl
@[simp] theorem rawClear_prt (d : Dev) (a n : Nat) : (rawClear d a n).prt = d.prt := rfl
@[simp] theorem rawClear_spr (d : Dev) (a n : Nat) : (rawClear d a n).spr = d.spr := rfl
@[simp] theorem rawClear_chans (d : Dev) (a n : Nat) : (rawClear d a n).chans = d.chans := rfl
@[simp] theorem rawClear_hif (d : Dev) (a n : Nat) : (rawClear d a n).hif = d.hif := rfl
@[simp] theorem rawClear_trl (d : Dev) (a n : Nat) : (rawClear d a n).trl = d.trl := rfl
@[simp] theorem rawClear_clp (d : Dev) (a n : Nat) : (rawClear d a n).clp = d.clp := rfl
@[simp] theorem rawClear_flt (d : Dev) (a n : Nat) : (rawClear d a n).flt = d.flt := rfl
@[simp] theorem rawClear_sgn (d : Dev) (a n : Nat) : (rawClear d a n).sgn = d.sgn := rfl
@[simp] theorem rawClear_sec (d : Dev) (a n : Nat) : (rawClear d a n).sec = d.sec := rfl
@[simp] theorem rawClear_cfg (d : Dev) (a n : Nat) : (rawClear d a n).cfg = d.cfg := rfl
@[simp] theorem rawClear_lpe (d : Dev) (a n : Nat) : (rawClear d a n).lpe = d.lpe := rfl
@[simp] theorem rawClear_bridge (d : Dev) (a n : Nat) : (rawClear d a n).bridge = d.bridge := rfl
@[simp] theorem rawClear_free (d : Dev) (a n : Nat) : (rawClear d a n).free = d.free := rfl
@[simp] theorem rawClear_out (d : Dev) (a n : Nat) : (rawClear d a n).out = d.out := rfl

/-! ### `injectInto` -/

@[simp] theorem injectInto_shadow (d : Dev) (b : Nat) : (injectInto d b).shadow = d.shadow := by unfold injectInto; split <;> rfl
@[simp] theorem injectInto_ctrs (d : Dev) (b : Nat) : (injectInto d b).ctrs = d.ctrs := by unfold injectInto; split <;> rfl
@[simp] theorem injectInto_latch (d : Dev) (b : Nat) : (injectInto d b).latch = d.latch := by unfold injectInto; split <;> rfl
@[simp] theorem injectInto_tb (d : Dev) (b : Nat) : (injectInto d b).tb = d.tb := by unfold injectInto; split <;> rfl
@[simp] theorem injectInto_clk (d : Dev) (b : Nat) : (injectInto d b).clk = d.clk := by unfold injectInto; split <;> rfl
@[simp] theorem injectInto_pins (d : Dev) (b : Nat) : (injectInto d b).pins = d.pins := by unfold injectInto; split <;> rfl
@[simp] theorem injectInto_straps (d : Dev) (b : Nat) : (injectInto d b).straps = d.straps := by unfold injectInto; split <;> rfl
@[simp] theorem injectInto_units (d : Dev) (b : Nat) : (injectInto d b).units = d.units := by unfold injectInto; split <;> rfl
@[simp] theorem injectInto_nextUnit (d : Dev) (b : Nat) : (injectInto d b).nextUnit = d.nextUnit := by unfold injectInto; split <;> rfl
@[simp] theorem injectInto_tcam (d : Dev) (b : Nat) : (injectInto d b).tcam = d.tcam := by unfold injectInto; split <;> rfl
@[simp] theorem injectInto_em (d : Dev) (b : Nat) : (injectInto d b).em = d.em := by unfold injectInto; split <;> rfl
@[simp] theorem injectInto_flw (d : Dev) (b : Nat) : (injectInto d b).flw = d.flw := by unfold injectInto; split <;> rfl
@[simp] theorem injectInto_qnt (d : Dev) (b : Nat) : (injectInto d b).qnt = d.qnt := by unfold injectInto; split <;> rfl
@[simp] theorem injectInto_leafRecs (d : Dev) (b : Nat) : (injectInto d b).leafRecs = d.leafRecs := by unfold injectInto; split <;> rfl
@[simp] theorem injectInto_headRecs (d : Dev) (b : Nat) : (injectInto d b).headRecs = d.headRecs := by unfold injectInto; split <;> rfl
@[simp] theorem injectInto_labels (d : Dev) (b : Nat) : (injectInto d b).labels = d.labels := by unfold injectInto; split <;> rfl
@[simp] theorem injectInto_banks (d : Dev) (b : Nat) : (injectInto d b).banks = d.banks := by unfold injectInto; split <;> rfl
@[simp] theorem injectInto_refit (d : Dev) (b : Nat) : (injectInto d b).refit = d.refit := by unfold injectInto; split <;> rfl
@[simp] theorem injectInto_runQueue (d : Dev) (b : Nat) : (injectInto d b).runQueue = d.runQueue := by unfold injectInto; split <;> rfl
@[simp] theorem injectInto_runs (d : Dev) (b : Nat) : (injectInto d b).runs = d.runs := by unfold injectInto; split <;> rfl
@[simp] theorem injectInto_epochs (d : Dev) (b : Nat) : (injectInto d b).epochs = d.epochs := by unfold injectInto; split <;> rfl
@[simp] theorem injectInto_grf (d : Dev) (b : Nat) : (injectInto d b).grf = d.grf := by unfold injectInto; split <;> rfl
@[simp] theorem injectInto_tmg (d : Dev) (b : Nat) : (injectInto d b).tmg = d.tmg := by unfold injectInto; split <;> rfl
@[simp] theorem injectInto_stm (d : Dev) (b : Nat) : (injectInto d b).stm = d.stm := by unfold injectInto; split <;> rfl
@[simp] theorem injectInto_prt (d : Dev) (b : Nat) : (injectInto d b).prt = d.prt := by unfold injectInto; split <;> rfl
@[simp] theorem injectInto_spr (d : Dev) (b : Nat) : (injectInto d b).spr = d.spr := by unfold injectInto; split <;> rfl
@[simp] theorem injectInto_chans (d : Dev) (b : Nat) : (injectInto d b).chans = d.chans := by unfold injectInto; split <;> rfl
@[simp] theorem injectInto_hif (d : Dev) (b : Nat) : (injectInto d b).hif = d.hif := by unfold injectInto; split <;> rfl
@[simp] theorem injectInto_trl (d : Dev) (b : Nat) : (injectInto d b).trl = d.trl := by unfold injectInto; split <;> rfl
@[simp] theorem injectInto_clp (d : Dev) (b : Nat) : (injectInto d b).clp = d.clp := by unfold injectInto; split <;> rfl
@[simp] theorem injectInto_flt (d : Dev) (b : Nat) : (injectInto d b).flt = d.flt := by unfold injectInto; split <;> rfl
@[simp] theorem injectInto_sgn (d : Dev) (b : Nat) : (injectInto d b).sgn = d.sgn := by unfold injectInto; split <;> rfl
@[simp] theorem injectInto_sec (d : Dev) (b : Nat) : (injectInto d b).sec = d.sec := by unfold injectInto; split <;> rfl
@[simp] theorem injectInto_cfg (d : Dev) (b : Nat) : (injectInto d b).cfg = d.cfg := by unfold injectInto; split <;> rfl
@[simp] theorem injectInto_lpe (d : Dev) (b : Nat) : (injectInto d b).lpe = d.lpe := by unfold injectInto; split <;> rfl
@[simp] theorem injectInto_bridge (d : Dev) (b : Nat) : (injectInto d b).bridge = d.bridge := by unfold injectInto; split <;> rfl
@[simp] theorem injectInto_free (d : Dev) (b : Nat) : (injectInto d b).free = d.free := by unfold injectInto; split <;> rfl
@[simp] theorem injectInto_out (d : Dev) (b : Nat) : (injectInto d b).out = d.out := by unfold injectInto; split <;> rfl

/-! ### `memClear` -/

@[simp] theorem memClear_shadow (d : Dev) (a n : Nat) : (memClear d a n).shadow = d.shadow := by simp only [memClear]; split <;> simp
@[simp] theorem memClear_ctrs (d : Dev) (a n : Nat) : (memClear d a n).ctrs = d.ctrs := by simp only [memClear]; split <;> simp
@[simp] theorem memClear_latch (d : Dev) (a n : Nat) : (memClear d a n).latch = d.latch := by simp only [memClear]; split <;> simp
@[simp] theorem memClear_tb (d : Dev) (a n : Nat) : (memClear d a n).tb = d.tb := by simp only [memClear]; split <;> simp
@[simp] theorem memClear_clk (d : Dev) (a n : Nat) : (memClear d a n).clk = d.clk := by simp only [memClear]; split <;> simp
@[simp] theorem memClear_pins (d : Dev) (a n : Nat) : (memClear d a n).pins = d.pins := by simp only [memClear]; split <;> simp
@[simp] theorem memClear_straps (d : Dev) (a n : Nat) : (memClear d a n).straps = d.straps := by simp only [memClear]; split <;> simp
@[simp] theorem memClear_units (d : Dev) (a n : Nat) : (memClear d a n).units = d.units := by simp only [memClear]; split <;> simp
@[simp] theorem memClear_nextUnit (d : Dev) (a n : Nat) : (memClear d a n).nextUnit = d.nextUnit := by simp only [memClear]; split <;> simp
@[simp] theorem memClear_tcam (d : Dev) (a n : Nat) : (memClear d a n).tcam = d.tcam := by simp only [memClear]; split <;> simp
@[simp] theorem memClear_em (d : Dev) (a n : Nat) : (memClear d a n).em = d.em := by simp only [memClear]; split <;> simp
@[simp] theorem memClear_flw (d : Dev) (a n : Nat) : (memClear d a n).flw = d.flw := by simp only [memClear]; split <;> simp
@[simp] theorem memClear_qnt (d : Dev) (a n : Nat) : (memClear d a n).qnt = d.qnt := by simp only [memClear]; split <;> simp
@[simp] theorem memClear_leafRecs (d : Dev) (a n : Nat) : (memClear d a n).leafRecs = d.leafRecs := by simp only [memClear]; split <;> simp
@[simp] theorem memClear_headRecs (d : Dev) (a n : Nat) : (memClear d a n).headRecs = d.headRecs := by simp only [memClear]; split <;> simp
@[simp] theorem memClear_labels (d : Dev) (a n : Nat) : (memClear d a n).labels = d.labels := by simp only [memClear]; split <;> simp
@[simp] theorem memClear_banks (d : Dev) (a n : Nat) : (memClear d a n).banks = d.banks := by simp only [memClear]; split <;> simp
@[simp] theorem memClear_refit (d : Dev) (a n : Nat) : (memClear d a n).refit = d.refit := by simp only [memClear]; split <;> simp
@[simp] theorem memClear_runQueue (d : Dev) (a n : Nat) : (memClear d a n).runQueue = d.runQueue := by simp only [memClear]; split <;> simp
@[simp] theorem memClear_runs (d : Dev) (a n : Nat) : (memClear d a n).runs = d.runs := by simp only [memClear]; split <;> simp
@[simp] theorem memClear_epochs (d : Dev) (a n : Nat) : (memClear d a n).epochs = d.epochs := by simp only [memClear]; split <;> simp
@[simp] theorem memClear_grf (d : Dev) (a n : Nat) : (memClear d a n).grf = d.grf := by simp only [memClear]; split <;> simp
@[simp] theorem memClear_tmg (d : Dev) (a n : Nat) : (memClear d a n).tmg = d.tmg := by simp only [memClear]; split <;> simp
@[simp] theorem memClear_stm (d : Dev) (a n : Nat) : (memClear d a n).stm = d.stm := by simp only [memClear]; split <;> simp
@[simp] theorem memClear_prt (d : Dev) (a n : Nat) : (memClear d a n).prt = d.prt := by simp only [memClear]; split <;> simp
@[simp] theorem memClear_spr (d : Dev) (a n : Nat) : (memClear d a n).spr = d.spr := by simp only [memClear]; split <;> simp
@[simp] theorem memClear_chans (d : Dev) (a n : Nat) : (memClear d a n).chans = d.chans := by simp only [memClear]; split <;> simp
@[simp] theorem memClear_hif (d : Dev) (a n : Nat) : (memClear d a n).hif = d.hif := by simp only [memClear]; split <;> simp
@[simp] theorem memClear_trl (d : Dev) (a n : Nat) : (memClear d a n).trl = d.trl := by simp only [memClear]; split <;> simp
@[simp] theorem memClear_clp (d : Dev) (a n : Nat) : (memClear d a n).clp = d.clp := by simp only [memClear]; split <;> simp
@[simp] theorem memClear_flt (d : Dev) (a n : Nat) : (memClear d a n).flt = d.flt := by simp only [memClear]; split <;> simp
@[simp] theorem memClear_sgn (d : Dev) (a n : Nat) : (memClear d a n).sgn = d.sgn := by simp only [memClear]; split <;> simp
@[simp] theorem memClear_sec (d : Dev) (a n : Nat) : (memClear d a n).sec = d.sec := by simp only [memClear]; split <;> simp
@[simp] theorem memClear_cfg (d : Dev) (a n : Nat) : (memClear d a n).cfg = d.cfg := by simp only [memClear]; split <;> simp
@[simp] theorem memClear_lpe (d : Dev) (a n : Nat) : (memClear d a n).lpe = d.lpe := by simp only [memClear]; split <;> simp
@[simp] theorem memClear_bridge (d : Dev) (a n : Nat) : (memClear d a n).bridge = d.bridge := by simp only [memClear]; split <;> simp
@[simp] theorem memClear_free (d : Dev) (a n : Nat) : (memClear d a n).free = d.free := by simp only [memClear]; split <;> simp
@[simp] theorem memClear_out (d : Dev) (a n : Nat) : (memClear d a n).out = d.out := by simp only [memClear]; split <;> simp

/-! ### `msix` -/

@[simp] theorem msix_regs (d : Dev) (fn vec : Nat) : (msix d fn vec).regs = d.regs := by unfold msix; (repeat' split) <;> rfl
@[simp] theorem msix_shadow (d : Dev) (fn vec : Nat) : (msix d fn vec).shadow = d.shadow := by unfold msix; (repeat' split) <;> rfl
@[simp] theorem msix_latch (d : Dev) (fn vec : Nat) : (msix d fn vec).latch = d.latch := by unfold msix; (repeat' split) <;> rfl
@[simp] theorem msix_tb (d : Dev) (fn vec : Nat) : (msix d fn vec).tb = d.tb := by unfold msix; (repeat' split) <;> rfl
@[simp] theorem msix_clk (d : Dev) (fn vec : Nat) : (msix d fn vec).clk = d.clk := by unfold msix; (repeat' split) <;> rfl
@[simp] theorem msix_pins (d : Dev) (fn vec : Nat) : (msix d fn vec).pins = d.pins := by unfold msix; (repeat' split) <;> rfl
@[simp] theorem msix_straps (d : Dev) (fn vec : Nat) : (msix d fn vec).straps = d.straps := by unfold msix; (repeat' split) <;> rfl
@[simp] theorem msix_units (d : Dev) (fn vec : Nat) : (msix d fn vec).units = d.units := by unfold msix; (repeat' split) <;> rfl
@[simp] theorem msix_nextUnit (d : Dev) (fn vec : Nat) : (msix d fn vec).nextUnit = d.nextUnit := by unfold msix; (repeat' split) <;> rfl
@[simp] theorem msix_tcam (d : Dev) (fn vec : Nat) : (msix d fn vec).tcam = d.tcam := by unfold msix; (repeat' split) <;> rfl
@[simp] theorem msix_em (d : Dev) (fn vec : Nat) : (msix d fn vec).em = d.em := by unfold msix; (repeat' split) <;> rfl
@[simp] theorem msix_flw (d : Dev) (fn vec : Nat) : (msix d fn vec).flw = d.flw := by unfold msix; (repeat' split) <;> rfl
@[simp] theorem msix_qnt (d : Dev) (fn vec : Nat) : (msix d fn vec).qnt = d.qnt := by unfold msix; (repeat' split) <;> rfl
@[simp] theorem msix_leafRecs (d : Dev) (fn vec : Nat) : (msix d fn vec).leafRecs = d.leafRecs := by unfold msix; (repeat' split) <;> rfl
@[simp] theorem msix_headRecs (d : Dev) (fn vec : Nat) : (msix d fn vec).headRecs = d.headRecs := by unfold msix; (repeat' split) <;> rfl
@[simp] theorem msix_labels (d : Dev) (fn vec : Nat) : (msix d fn vec).labels = d.labels := by unfold msix; (repeat' split) <;> rfl
@[simp] theorem msix_banks (d : Dev) (fn vec : Nat) : (msix d fn vec).banks = d.banks := by unfold msix; (repeat' split) <;> rfl
@[simp] theorem msix_refit (d : Dev) (fn vec : Nat) : (msix d fn vec).refit = d.refit := by unfold msix; (repeat' split) <;> rfl
@[simp] theorem msix_runQueue (d : Dev) (fn vec : Nat) : (msix d fn vec).runQueue = d.runQueue := by unfold msix; (repeat' split) <;> rfl
@[simp] theorem msix_runs (d : Dev) (fn vec : Nat) : (msix d fn vec).runs = d.runs := by unfold msix; (repeat' split) <;> rfl
@[simp] theorem msix_epochs (d : Dev) (fn vec : Nat) : (msix d fn vec).epochs = d.epochs := by unfold msix; (repeat' split) <;> rfl
@[simp] theorem msix_grf (d : Dev) (fn vec : Nat) : (msix d fn vec).grf = d.grf := by unfold msix; (repeat' split) <;> rfl
@[simp] theorem msix_tmg (d : Dev) (fn vec : Nat) : (msix d fn vec).tmg = d.tmg := by unfold msix; (repeat' split) <;> rfl
@[simp] theorem msix_stm (d : Dev) (fn vec : Nat) : (msix d fn vec).stm = d.stm := by unfold msix; (repeat' split) <;> rfl
@[simp] theorem msix_prt (d : Dev) (fn vec : Nat) : (msix d fn vec).prt = d.prt := by unfold msix; (repeat' split) <;> rfl
@[simp] theorem msix_spr (d : Dev) (fn vec : Nat) : (msix d fn vec).spr = d.spr := by unfold msix; (repeat' split) <;> rfl
@[simp] theorem msix_mem (d : Dev) (fn vec : Nat) : (msix d fn vec).mem = d.mem := by unfold msix; (repeat' split) <;> rfl
@[simp] theorem msix_chans (d : Dev) (fn vec : Nat) : (msix d fn vec).chans = d.chans := by unfold msix; (repeat' split) <;> rfl
@[simp] theorem msix_trl (d : Dev) (fn vec : Nat) : (msix d fn vec).trl = d.trl := by unfold msix; (repeat' split) <;> rfl
@[simp] theorem msix_clp (d : Dev) (fn vec : Nat) : (msix d fn vec).clp = d.clp := by unfold msix; (repeat' split) <;> rfl
@[simp] theorem msix_flt (d : Dev) (fn vec : Nat) : (msix d fn vec).flt = d.flt := by unfold msix; (repeat' split) <;> rfl
@[simp] theorem msix_sgn (d : Dev) (fn vec : Nat) : (msix d fn vec).sgn = d.sgn := by unfold msix; (repeat' split) <;> rfl
@[simp] theorem msix_sec (d : Dev) (fn vec : Nat) : (msix d fn vec).sec = d.sec := by unfold msix; (repeat' split) <;> rfl
@[simp] theorem msix_cfg (d : Dev) (fn vec : Nat) : (msix d fn vec).cfg = d.cfg := by unfold msix; (repeat' split) <;> rfl
@[simp] theorem msix_lpe (d : Dev) (fn vec : Nat) : (msix d fn vec).lpe = d.lpe := by unfold msix; (repeat' split) <;> rfl
@[simp] theorem msix_bridge (d : Dev) (fn vec : Nat) : (msix d fn vec).bridge = d.bridge := by unfold msix; (repeat' split) <;> rfl
@[simp] theorem msix_free (d : Dev) (fn vec : Nat) : (msix d fn vec).free = d.free := by unfold msix; (repeat' split) <;> rfl

/-! ### `irq` -/

@[simp] theorem irq_regs (d : Dev) (en vec : Fld) : (irq d en vec).regs = d.regs := by unfold irq; split <;> simp
@[simp] theorem irq_shadow (d : Dev) (en vec : Fld) : (irq d en vec).shadow = d.shadow := by unfold irq; split <;> simp
@[simp] theorem irq_latch (d : Dev) (en vec : Fld) : (irq d en vec).latch = d.latch := by unfold irq; split <;> simp
@[simp] theorem irq_tb (d : Dev) (en vec : Fld) : (irq d en vec).tb = d.tb := by unfold irq; split <;> simp
@[simp] theorem irq_clk (d : Dev) (en vec : Fld) : (irq d en vec).clk = d.clk := by unfold irq; split <;> simp
@[simp] theorem irq_pins (d : Dev) (en vec : Fld) : (irq d en vec).pins = d.pins := by unfold irq; split <;> simp
@[simp] theorem irq_straps (d : Dev) (en vec : Fld) : (irq d en vec).straps = d.straps := by unfold irq; split <;> simp
@[simp] theorem irq_units (d : Dev) (en vec : Fld) : (irq d en vec).units = d.units := by unfold irq; split <;> simp
@[simp] theorem irq_nextUnit (d : Dev) (en vec : Fld) : (irq d en vec).nextUnit = d.nextUnit := by unfold irq; split <;> simp
@[simp] theorem irq_tcam (d : Dev) (en vec : Fld) : (irq d en vec).tcam = d.tcam := by unfold irq; split <;> simp
@[simp] theorem irq_em (d : Dev) (en vec : Fld) : (irq d en vec).em = d.em := by unfold irq; split <;> simp
@[simp] theorem irq_flw (d : Dev) (en vec : Fld) : (irq d en vec).flw = d.flw := by unfold irq; split <;> simp
@[simp] theorem irq_qnt (d : Dev) (en vec : Fld) : (irq d en vec).qnt = d.qnt := by unfold irq; split <;> simp
@[simp] theorem irq_leafRecs (d : Dev) (en vec : Fld) : (irq d en vec).leafRecs = d.leafRecs := by unfold irq; split <;> simp
@[simp] theorem irq_headRecs (d : Dev) (en vec : Fld) : (irq d en vec).headRecs = d.headRecs := by unfold irq; split <;> simp
@[simp] theorem irq_labels (d : Dev) (en vec : Fld) : (irq d en vec).labels = d.labels := by unfold irq; split <;> simp
@[simp] theorem irq_banks (d : Dev) (en vec : Fld) : (irq d en vec).banks = d.banks := by unfold irq; split <;> simp
@[simp] theorem irq_refit (d : Dev) (en vec : Fld) : (irq d en vec).refit = d.refit := by unfold irq; split <;> simp
@[simp] theorem irq_runQueue (d : Dev) (en vec : Fld) : (irq d en vec).runQueue = d.runQueue := by unfold irq; split <;> simp
@[simp] theorem irq_runs (d : Dev) (en vec : Fld) : (irq d en vec).runs = d.runs := by unfold irq; split <;> simp
@[simp] theorem irq_epochs (d : Dev) (en vec : Fld) : (irq d en vec).epochs = d.epochs := by unfold irq; split <;> simp
@[simp] theorem irq_grf (d : Dev) (en vec : Fld) : (irq d en vec).grf = d.grf := by unfold irq; split <;> simp
@[simp] theorem irq_tmg (d : Dev) (en vec : Fld) : (irq d en vec).tmg = d.tmg := by unfold irq; split <;> simp
@[simp] theorem irq_stm (d : Dev) (en vec : Fld) : (irq d en vec).stm = d.stm := by unfold irq; split <;> simp
@[simp] theorem irq_prt (d : Dev) (en vec : Fld) : (irq d en vec).prt = d.prt := by unfold irq; split <;> simp
@[simp] theorem irq_spr (d : Dev) (en vec : Fld) : (irq d en vec).spr = d.spr := by unfold irq; split <;> simp
@[simp] theorem irq_mem (d : Dev) (en vec : Fld) : (irq d en vec).mem = d.mem := by unfold irq; split <;> simp
@[simp] theorem irq_chans (d : Dev) (en vec : Fld) : (irq d en vec).chans = d.chans := by unfold irq; split <;> simp
@[simp] theorem irq_trl (d : Dev) (en vec : Fld) : (irq d en vec).trl = d.trl := by unfold irq; split <;> simp
@[simp] theorem irq_clp (d : Dev) (en vec : Fld) : (irq d en vec).clp = d.clp := by unfold irq; split <;> simp
@[simp] theorem irq_flt (d : Dev) (en vec : Fld) : (irq d en vec).flt = d.flt := by unfold irq; split <;> simp
@[simp] theorem irq_sgn (d : Dev) (en vec : Fld) : (irq d en vec).sgn = d.sgn := by unfold irq; split <;> simp
@[simp] theorem irq_sec (d : Dev) (en vec : Fld) : (irq d en vec).sec = d.sec := by unfold irq; split <;> simp
@[simp] theorem irq_cfg (d : Dev) (en vec : Fld) : (irq d en vec).cfg = d.cfg := by unfold irq; split <;> simp
@[simp] theorem irq_lpe (d : Dev) (en vec : Fld) : (irq d en vec).lpe = d.lpe := by unfold irq; split <;> simp
@[simp] theorem irq_bridge (d : Dev) (en vec : Fld) : (irq d en vec).bridge = d.bridge := by unfold irq; split <;> simp
@[simp] theorem irq_free (d : Dev) (en vec : Fld) : (irq d en vec).free = d.free := by unfold irq; split <;> simp

/-! ### `sealed` -/

@[simp] theorem sealed_regs (d t : Dev) : (sealed d t).regs = t.regs := rfl
@[simp] theorem sealed_shadow (d t : Dev) : (sealed d t).shadow = t.shadow := rfl
@[simp] theorem sealed_ctrs (d t : Dev) : (sealed d t).ctrs = t.ctrs := rfl
@[simp] theorem sealed_latch (d t : Dev) : (sealed d t).latch = t.latch := rfl
@[simp] theorem sealed_tb (d t : Dev) : (sealed d t).tb = t.tb := rfl
@[simp] theorem sealed_clk (d t : Dev) : (sealed d t).clk = t.clk := rfl
@[simp] theorem sealed_units (d t : Dev) : (sealed d t).units = t.units := rfl
@[simp] theorem sealed_nextUnit (d t : Dev) : (sealed d t).nextUnit = t.nextUnit := rfl
@[simp] theorem sealed_tcam (d t : Dev) : (sealed d t).tcam = t.tcam := rfl
@[simp] theorem sealed_em (d t : Dev) : (sealed d t).em = t.em := rfl
@[simp] theorem sealed_flw (d t : Dev) : (sealed d t).flw = t.flw := rfl
@[simp] theorem sealed_qnt (d t : Dev) : (sealed d t).qnt = t.qnt := rfl
@[simp] theorem sealed_leafRecs (d t : Dev) : (sealed d t).leafRecs = t.leafRecs := rfl
@[simp] theorem sealed_headRecs (d t : Dev) : (sealed d t).headRecs = t.headRecs := rfl
@[simp] theorem sealed_labels (d t : Dev) : (sealed d t).labels = t.labels := rfl
@[simp] theorem sealed_banks (d t : Dev) : (sealed d t).banks = t.banks := rfl
@[simp] theorem sealed_refit (d t : Dev) : (sealed d t).refit = t.refit := rfl
@[simp] theorem sealed_runQueue (d t : Dev) : (sealed d t).runQueue = t.runQueue := rfl
@[simp] theorem sealed_runs (d t : Dev) : (sealed d t).runs = t.runs := rfl
@[simp] theorem sealed_epochs (d t : Dev) : (sealed d t).epochs = t.epochs := rfl
@[simp] theorem sealed_grf (d t : Dev) : (sealed d t).grf = t.grf := rfl
@[simp] theorem sealed_tmg (d t : Dev) : (sealed d t).tmg = t.tmg := rfl
@[simp] theorem sealed_stm (d t : Dev) : (sealed d t).stm = t.stm := rfl
@[simp] theorem sealed_prt (d t : Dev) : (sealed d t).prt = t.prt := rfl
@[simp] theorem sealed_spr (d t : Dev) : (sealed d t).spr = t.spr := rfl
@[simp] theorem sealed_mem (d t : Dev) : (sealed d t).mem = t.mem := rfl
@[simp] theorem sealed_chans (d t : Dev) : (sealed d t).chans = t.chans := rfl
@[simp] theorem sealed_hif (d t : Dev) : (sealed d t).hif = t.hif := rfl
@[simp] theorem sealed_trl (d t : Dev) : (sealed d t).trl = t.trl := rfl
@[simp] theorem sealed_clp (d t : Dev) : (sealed d t).clp = t.clp := rfl
@[simp] theorem sealed_flt (d t : Dev) : (sealed d t).flt = t.flt := rfl
@[simp] theorem sealed_sgn (d t : Dev) : (sealed d t).sgn = t.sgn := rfl
@[simp] theorem sealed_sec (d t : Dev) : (sealed d t).sec = t.sec := rfl
@[simp] theorem sealed_cfg (d t : Dev) : (sealed d t).cfg = t.cfg := rfl
@[simp] theorem sealed_lpe (d t : Dev) : (sealed d t).lpe = t.lpe := rfl
@[simp] theorem sealed_bridge (d t : Dev) : (sealed d t).bridge = t.bridge := rfl
@[simp] theorem sealed_free (d t : Dev) : (sealed d t).free = t.free := rfl
@[simp] theorem sealed_out (d t : Dev) : (sealed d t).out = t.out := rfl

/-! ### Reading after writing -/

@[simp] theorem rd_wr_same (d : Dev) (f : Fld) (v : Nat) : rd (wr d f v) f = v % 2 ^ f.w := by simp [rd, wr]
theorem rd_wr_ne (d : Dev) (f g : Fld) (v : Nat) (h : g.key ≠ f.key) : rd (wr d f v) g = rd d g := by
  simp only [rd, wr]; exact getD_setDef_ne d.regs _ _ _ h
@[simp] theorem ctr_setCtr_same (d : Dev) (a v : Nat) : ctr (setCtr d a v) a = v % 2 ^ 64 := by simp [ctr, setCtr]
theorem ctr_setCtr_ne (d : Dev) (a b v : Nat) (h : b ≠ a) : ctr (setCtr d a v) b = ctr d b := by
  simp only [ctr, setCtr]; exact getD_setDef_ne d.ctrs _ _ _ h
@[simp] theorem ctr_count_same (d : Dev) (a n : Nat) : ctr (count d a n) a = (ctr d a + n) % 2 ^ 64 := by simp [count]
theorem ctr_count_ne (d : Dev) (a b n : Nat) (h : b ≠ a) : ctr (count d a n) b = ctr d b := ctr_setCtr_ne d a b _ h
@[simp] theorem ctr_tick_same (d : Dev) (a : Nat) : ctr (tick d a) a = (ctr d a + 1) % 2 ^ 64 := by simp [tick]
theorem ctr_tick_ne (d : Dev) (a b : Nat) (h : b ≠ a) : ctr (tick d a) b = ctr d b := ctr_setCtr_ne d a b _ h

@[simp] theorem ctr_wr (d : Dev) (f : Fld) (v : Nat) (c : Nat) : ctr (wr d f v) c = ctr d c := by simp [ctr]
@[simp] theorem unit?_wr (d : Dev) (f : Fld) (v : Nat) (x : Nat) : unit? (wr d f v) x = unit? d x := by simp [unit?]
@[simp] theorem rd_wrShd (d : Dev) (f : Fld) (v : Nat) (g : Fld) : rd (wrShd d f v) g = rd d g := by simp [rd]
@[simp] theorem ctr_wrShd (d : Dev) (f : Fld) (v : Nat) (c : Nat) : ctr (wrShd d f v) c = ctr d c := by simp [ctr]
@[simp] theorem unit?_wrShd (d : Dev) (f : Fld) (v : Nat) (x : Nat) : unit? (wrShd d f v) x = unit? d x := by simp [unit?]
@[simp] theorem rd_setCtr (d : Dev) (a v : Nat) (g : Fld) : rd (setCtr d a v) g = rd d g := by simp [rd]
@[simp] theorem unit?_setCtr (d : Dev) (a v : Nat) (x : Nat) : unit? (setCtr d a v) x = unit? d x := by simp [unit?]
@[simp] theorem rd_count (d : Dev) (a n : Nat) (g : Fld) : rd (count d a n) g = rd d g := by simp [rd]
@[simp] theorem unit?_count (d : Dev) (a n : Nat) (x : Nat) : unit? (count d a n) x = unit? d x := by simp [unit?]
@[simp] theorem rd_tick (d : Dev) (a : Nat) (g : Fld) : rd (tick d a) g = rd d g := by simp [rd]
@[simp] theorem unit?_tick (d : Dev) (a : Nat) (x : Nat) : unit? (tick d a) x = unit? d x := by simp [unit?]
@[simp] theorem rd_tickIf (b : Bool) (d : Dev) (a : Nat) (g : Fld) : rd (tickIf b d a) g = rd d g := by simp [rd]
@[simp] theorem unit?_tickIf (b : Bool) (d : Dev) (a : Nat) (x : Nat) : unit? (tickIf b d a) x = unit? d x := by simp [unit?]
@[simp] theorem rd_emit (d : Dev) (o : Out) (g : Fld) : rd (emit d o) g = rd d g := by simp [rd]
@[simp] theorem ctr_emit (d : Dev) (o : Out) (c : Nat) : ctr (emit d o) c = ctr d c := by simp [ctr]
@[simp] theorem unit?_emit (d : Dev) (o : Out) (x : Nat) : unit? (emit d o) x = unit? d x := by simp [unit?]
@[simp] theorem rd_setUnit (d : Dev) (u : Nat) (r : UnitRec) (g : Fld) : rd (setUnit d u r) g = rd d g := by simp [rd]
@[simp] theorem ctr_setUnit (d : Dev) (u : Nat) (r : UnitRec) (c : Nat) : ctr (setUnit d u r) c = ctr d c := by simp [ctr]
@[simp] theorem rd_delUnit (d : Dev) (u : Nat) (g : Fld) : rd (delUnit d u) g = rd d g := by simp [rd]
@[simp] theorem ctr_delUnit (d : Dev) (u : Nat) (c : Nat) : ctr (delUnit d u) c = ctr d c := by simp [ctr]
@[simp] theorem rd_modUnit (d : Dev) (u : Nat) (k : UnitRec → UnitRec) (g : Fld) : rd (modUnit d u k) g = rd d g := rfl
@[simp] theorem ctr_modUnit (d : Dev) (u : Nat) (g : UnitRec → UnitRec) (c : Nat) : ctr (modUnit d u g) c = ctr d c := by simp [ctr]
@[simp] theorem rd_fresh (d : Dev) (g : Fld) : rd ((fresh d).2) g = rd d g := by simp [rd]
@[simp] theorem ctr_fresh (d : Dev) (c : Nat) : ctr ((fresh d).2) c = ctr d c := by simp [ctr]
@[simp] theorem unit?_fresh (d : Dev) (x : Nat) : unit? ((fresh d).2) x = unit? d x := by simp [unit?]
@[simp] theorem rd_memPut (d : Dev) (a : Nat) (bs : Bytes) (g : Fld) : rd (memPut d a bs) g = rd d g := by simp [rd]
@[simp] theorem ctr_memPut (d : Dev) (a : Nat) (bs : Bytes) (c : Nat) : ctr (memPut d a bs) c = ctr d c := by simp [ctr]
@[simp] theorem unit?_memPut (d : Dev) (a : Nat) (bs : Bytes) (x : Nat) : unit? (memPut d a bs) x = unit? d x := by simp [unit?]
@[simp] theorem rd_rawClear (d : Dev) (a n : Nat) (g : Fld) : rd (rawClear d a n) g = rd d g := by simp [rd]
@[simp] theorem ctr_rawClear (d : Dev) (a n : Nat) (c : Nat) : ctr (rawClear d a n) c = ctr d c := by simp [ctr]
@[simp] theorem unit?_rawClear (d : Dev) (a n : Nat) (x : Nat) : unit? (rawClear d a n) x = unit? d x := by simp [unit?]
@[simp] theorem ctr_injectInto (d : Dev) (b : Nat) (c : Nat) : ctr (injectInto d b) c = ctr d c := by simp [ctr]
@[simp] theorem unit?_injectInto (d : Dev) (b : Nat) (x : Nat) : unit? (injectInto d b) x = unit? d x := by simp [unit?]
@[simp] theorem ctr_memClear (d : Dev) (a n : Nat) (c : Nat) : ctr (memClear d a n) c = ctr d c := by simp [ctr]
@[simp] theorem unit?_memClear (d : Dev) (a n : Nat) (x : Nat) : unit? (memClear d a n) x = unit? d x := by simp [unit?]
@[simp] theorem rd_msix (d : Dev) (fn vec : Nat) (g : Fld) : rd (msix d fn vec) g = rd d g := by simp [rd]
@[simp] theorem unit?_msix (d : Dev) (fn vec : Nat) (x : Nat) : unit? (msix d fn vec) x = unit? d x := by simp [unit?]
@[simp] theorem rd_irq (d : Dev) (en vec : Fld) (g : Fld) : rd (irq d en vec) g = rd d g := by simp [rd]
@[simp] theorem unit?_irq (d : Dev) (en vec : Fld) (x : Nat) : unit? (irq d en vec) x = unit? d x := by simp [unit?]
@[simp] theorem rd_sealed (d t : Dev) (g : Fld) : rd (sealed d t) g = rd t g := by simp [rd]
@[simp] theorem ctr_sealed (d t : Dev) (c : Nat) : ctr (sealed d t) c = ctr t c := by simp [ctr]
@[simp] theorem unit?_sealed (d t : Dev) (x : Nat) : unit? (sealed d t) x = unit? t x := by simp [unit?]

@[simp] theorem unit?_setUnit_same (d : Dev) (u : Nat) (r : UnitRec) : unit? (setUnit d u r) u = some r := by
  simp [unit?, setUnit]
theorem unit?_setUnit_ne (d : Dev) (u x : Nat) (r : UnitRec) (h : x ≠ u) : unit? (setUnit d u r) x = unit? d x := by
  simp only [unit?, setUnit]; exact find?_set_ne d.units r h
@[simp] theorem unit?_delUnit_same (d : Dev) (u : Nat) : unit? (delUnit d u) u = none := by simp [unit?, delUnit]

/-! ### What only the resets change, and the form of the meanings -/

@[simp] theorem sealed_sysRstN (d t : Dev) : (sealed d t).pins.sysRstN = d.pins.sysRstN := rfl
@[simp] theorem sealed_railLost (d t : Dev) : (sealed d t).pins.railLost = d.pins.railLost := rfl
@[simp] theorem sealed_straps (d t : Dev) : (sealed d t).straps = d.straps := rfl

/-- An effect that leaves the pins and straps as they are is not changed by `sealed`. -/
theorem sealed_of_eq (d t : Dev) (h1 : t.straps = d.straps) (h2 : t.pins = d.pins) : sealed d t = t := by
  cases t; cases d; simp_all [sealed]

theorem runAon_next (s : State) (f : Dev → Dev) (h : s.dev.pins.railLost = false) :
    runAon s f = .next { s with dev := sealed s.dev (f s.dev) } := by simp [runAon, h]

theorem run_next (s : State) (f : Dev → Dev) (h : s.dev.pins.railLost = false) (h1 : s.dev.pins.sysRstN = true) :
    run s f = .next { s with dev := sealed s.dev (f s.dev) } := by simp [run, runAon, h, h1]

/-- Everything that a meaning in the form of `runAon` can answer. -/
theorem runAon_cases (s : State) (f : Dev → Dev) :
    (s.dev.pins.railLost = true ∧ runAon s f = .fault .railUnspecified) ∨
    (s.dev.pins.railLost = false ∧ runAon s f = .next { s with dev := sealed s.dev (f s.dev) }) := by
  cases h : s.dev.pins.railLost <;> simp [runAon, h]

/-- A next state that a meaning in the form of `runAon` answers keeps the queue, the straps, SYS_RST_N and the mark of a lost rail. -/
theorem runAon_keeps (s t : State) (f : Dev → Dev) (h : runAon s f = .next t) :
    t.pending = s.pending ∧ t.dev.straps = s.dev.straps ∧ t.dev.pins.sysRstN = s.dev.pins.sysRstN ∧
      t.dev.pins.railLost = false ∧ s.dev.pins.railLost = false := by
  rcases runAon_cases s f with ⟨_, h2⟩ | ⟨h1, h2⟩
  · rw [h2] at h; cases h
  · rw [h2] at h; cases h; exact ⟨rfl, rfl, rfl, h1, h1⟩

end Sys2Proof.Machine.Ops
end

