-- ==== Sys2Proof/Laws/Access.lean ====
section
/-!
SUPPORT. Laws/Access.lean: an access that arrives has its effect; what is kept when effects follow one another.
-/
namespace Sys2Proof.Machine
open Ops

theorem access_arrives (d : Dev) (fn addr : Nat) (w : Bool) (f : Dev → Dev) (h : Arrives d fn addr w) :
    access d fn addr w f = f d := by
  obtain ⟨h1, h2, h3⟩ := h
  unfold access
  rw [h1, h2]
  cases w <;> simp_all

/-- A register write that has a row of its own completes with its effect. -/
theorem run_access (s : State) (fn addr : Nat) (w : Bool) (f : Dev → Dev) (h : Awake s) (ha : Arrives s.dev fn addr w) :
    run s (fun d => access d fn addr w f) = .next { s with dev := sealed s.dev (f s.dev) } := by
  rw [run_next s _ h.2 h.1, access_arrives _ _ _ _ _ ha]

theorem run_awake (s : State) (f : Dev → Dev) (h : Awake s) :
    run s f = .next { s with dev := sealed s.dev (f s.dev) } := run_next s f h.2 h.1

theorem RegsKept.refl (d : Dev) (ks : List Nat) : RegsKept d d ks := fun _ _ => rfl
theorem RegsKept.of_regs {d d' : Dev} (ks : List Nat) (h : d'.regs = d.regs) : RegsKept d d' ks := fun f _ => by simp [rd, h]
theorem RegsKept.wr {d e : Dev} {ks : List Nat} (h : RegsKept d e ks) (f : Fld) (v : Nat) (hk : f.key ∈ ks) :
    RegsKept d (Ops.wr e f v) ks := fun g hg => by
  rw [rd_wr_ne _ _ _ _ (by rintro he; exact hg (he ▸ hk)), h g hg]
theorem RegsKept.trans {d e g : Dev} {ks : List Nat} (h1 : RegsKept d e ks) (h2 : RegsKept e g ks) : RegsKept d g ks :=
  fun f hf => (h2 f hf).trans (h1 f hf)
theorem CtrsKept.of_ctrs {d d' : Dev} (as : List Nat) (h : d'.ctrs = d.ctrs) : CtrsKept d d' as := fun a _ => by simp [ctr, h]
theorem CtrsKept.tick {d e : Dev} {as : List Nat} (h : CtrsKept d e as) (a : Nat) (ha : a ∈ as) : CtrsKept d (Ops.tick e a) as :=
  fun b hb => by rw [ctr_tick_ne _ _ _ (by rintro rfl; exact hb ha), h b hb]

theorem RegsKept.of_rd {d e g : Dev} {ks : List Nat} (h : RegsKept d e ks) (h2 : ∀ f, rd g f = rd e f) : RegsKept d g ks :=
  fun f hf => (h2 f).trans (h f hf)
theorem CtrsKept.of_ctr {d e g : Dev} {as : List Nat} (h : CtrsKept d e as) (h2 : ∀ a, ctr g a = ctr e a) : CtrsKept d g as :=
  fun a ha => (h2 a).trans (h a ha)

/-! ### Completion -/

/-- A command in the usual form completes with its effect. -/
theorem does_run {c : Instr} {s : State} {P : Dev → Prop} (f : Dev → Dev) (ha : Awake s) (he : exec c s = run s f)
    (h : P (sealed s.dev (f s.dev))) : Does c s P := ⟨_, he.trans (run_awake s f ha), rfl, h⟩

/-- A command that is an access completes with the access's effect, where the access arrives. -/
theorem does_access {c : Instr} {s : State} {P : Dev → Prop} (fn addr : Nat) (w : Bool) (f : Dev → Dev) (ha : Awake s)
    (hr : Arrives s.dev fn addr w) (he : exec c s = run s fun d => access d fn addr w f) (h : P (sealed s.dev (f s.dev))) : Does c s P :=
  ⟨_, he.trans (run_access s fn addr w f ha hr), rfl, h⟩

/-- Where the effect leaves the pins and the straps, the device after the command is the effect itself. -/
theorem does_run' {c : Instr} {s : State} {P : Dev → Prop} (f : Dev → Dev) (ha : Awake s) (he : exec c s = run s f)
    (h1 : (f s.dev).straps = s.dev.straps) (h2 : (f s.dev).pins = s.dev.pins) (h : P (f s.dev)) : Does c s P :=
  does_run f ha he ((sealed_of_eq _ _ h1 h2).symm ▸ h)

theorem does_access' {c : Instr} {s : State} {P : Dev → Prop} (fn addr : Nat) (w : Bool) (f : Dev → Dev) (ha : Awake s)
    (hr : Arrives s.dev fn addr w) (he : exec c s = run s fun d => access d fn addr w f)
    (h1 : (f s.dev).straps = s.dev.straps) (h2 : (f s.dev).pins = s.dev.pins) (h : P (f s.dev)) : Does c s P :=
  does_access fn addr w f ha hr he ((sealed_of_eq _ _ h1 h2).symm ▸ h)

/-- A command of the AON domain or the TAP completes on a device in reset too. -/
theorem does_aon {c : Instr} {s : State} {P : Dev → Prop} (f : Dev → Dev) (hl : s.dev.pins.railLost = false) (he : exec c s = runAon s f)
    (h : P (sealed s.dev (f s.dev))) : Does c s P := ⟨_, he.trans (runAon_next s f hl), rfl, h⟩

/-! ### Frames -/

theorem RegsOnly.refl (d : Dev) (ks : List Nat) : RegsOnly d d ks := ⟨RegsKept.refl d ks, rfl⟩
theorem RegsOnly.wr {d e : Dev} {ks : List Nat} (h : RegsOnly d e ks) (f : Fld) (v : Nat) (hk : f.key ∈ ks) :
    RegsOnly d (Ops.wr e f v) ks := ⟨h.1.wr f v hk, h.2⟩

theorem RegsCtrsOnly.refl (d : Dev) (ks as : List Nat) : RegsCtrsOnly d d ks as := ⟨RegsKept.refl d ks, fun _ _ => rfl, rfl⟩
theorem RegsCtrsOnly.wr {d e : Dev} {ks as : List Nat} (h : RegsCtrsOnly d e ks as) (f : Fld) (v : Nat) (hk : f.key ∈ ks) :
    RegsCtrsOnly d (Ops.wr e f v) ks as := ⟨h.1.wr f v hk, h.2.1.of_ctr (ctr_wr e f v), h.2.2⟩
theorem RegsCtrsOnly.tick {d e : Dev} {ks as : List Nat} (h : RegsCtrsOnly d e ks as) (a : Nat) (ha : a ∈ as) :
    RegsCtrsOnly d (Ops.tick e a) ks as := ⟨h.1.of_rd (rd_tick e a), h.2.1.tick a ha, h.2.2⟩

theorem Signals.refl (d : Dev) (ks as : List Nat) : Signals d d ks as := ⟨RegsKept.refl d ks, fun _ _ => rfl, rfl⟩
theorem Signals.wr {d e : Dev} {ks as : List Nat} (h : Signals d e ks as) (f : Fld) (v : Nat) (hk : f.key ∈ ks) :
    Signals d (Ops.wr e f v) ks as := ⟨h.1.wr f v hk, h.2.1.of_ctr (ctr_wr e f v), h.2.2⟩
theorem Signals.tick {d e : Dev} {ks as : List Nat} (h : Signals d e ks as) (a : Nat) (ha : a ∈ vecBad :: as) :
    Signals d (Ops.tick e a) ks as := ⟨h.1.of_rd (rd_tick e a), h.2.1.tick a ha, h.2.2⟩
theorem Signals.emit {d e : Dev} {ks as : List Nat} (h : Signals d e ks as) (o : Out) : Signals d (Ops.emit e o) ks as :=
  ⟨h.1.of_rd (rd_emit e o), h.2.1.of_ctr (ctr_emit e o), h.2.2⟩

/-- A vector that fires is sent, held pending, or counted as bad (R342, R366). -/
theorem Signals.msix {d e : Dev} {ks as : List Nat} (h : Signals d e ks as) (fn vec : Nat) : Signals d (Ops.msix e fn vec) ks as := by
  unfold Ops.msix
  split
  · exact h.tick _ (List.mem_cons_self ..)
  · split
    · exact ⟨h.1, h.2.1, h.2.2⟩
    · exact h.emit _
theorem Signals.irq {d e : Dev} {ks as : List Nat} (h : Signals d e ks as) (en vec : Fld) : Signals d (Ops.irq e en vec) ks as := by
  unfold Ops.irq
  split
  · exact h.msix _ _
  · exact h

theorem Signals.straps {d e : Dev} {ks as : List Nat} (h : Signals d e ks as) : e.straps = d.straps := by
  have := congrArg Dev.straps h.2.2; exact this
theorem Signals.pins {d e : Dev} {ks as : List Nat} (h : Signals d e ks as) : e.pins = d.pins := by
  have := congrArg Dev.pins h.2.2; exact this
theorem Signals.sealed {d e : Dev} {ks as : List Nat} (h : Signals d e ks as) : Ops.sealed d e = e :=
  sealed_of_eq _ _ h.straps h.pins

end Sys2Proof.Machine
end

