-- ==== Sys2Proof/Laws/Bus.lean ====
section
/-!
SUPPORT. Laws/Bus.lean: the register map is well formed, and what reading and writing a register of it does.
-/
namespace Sys2Proof.Machine.Ops

/-- Fields in rising order that do not overlap, within 32 bits. -/
def fieldsApart : List RFld → Bool
  | [] => true
  | f :: r => decide (f.lo + f.w ≤ 32) && decide (0 < f.w) && r.all (fun g => decide (f.lo + f.w ≤ g.lo)) && fieldsApart r

theorem rows_apart : ((List.range 24).all fun k => (Reg.rowsOf k).all fun r => fieldsApart r.flds) = true := by decide +kernel

theorem rowsOf_past (k : Nat) (h : 24 ≤ k) : Reg.rowsOf k = [] := by
  unfold Reg.rowsOf
  split <;> first | omega | rfl

theorem rowAt_apart {a : Nat} {r : Row} (h : rowAt a = some r) : fieldsApart r.flds = true := by
  have hm := List.mem_of_find?_eq_some h
  by_cases hk : a / 0x100000 < 24
  · have := List.all_eq_true.mp rows_apart _ (List.mem_range.mpr hk)
    exact List.all_eq_true.mp this _ hm
  · rw [rowsOf_past _ (by omega)] at hm; cases hm

/-- The home of a field is a shift of its key by an amount that the field does not enter. -/
theorem homeFld_shift (d : Dev) (a copy : Nat) :
    ∃ o, ∀ f : Fld, homeFld d a copy f = { f with key := f.key + o } := by
  unfold homeFld
  split
  · exact ⟨copy * 2 ^ 40, fun f => rfl⟩
  · split
    · rename_i i _; exact ⟨(i + 1) * 2 ^ 50, fun f => rfl⟩
    · exact ⟨0, fun f => rfl⟩

/-- Writing a register behind a select register leaves the selection. -/
theorem homeFld_wr (e : Dev) (a copy v lo w r : Nat) (hlo : lo < 32) (f : Fld) :
    homeFld (wr e (homeFld e a copy (.at a lo w r)) v) a copy f = homeFld e a copy f := by
  unfold homeFld
  by_cases hp : perFn a = true
  · simp [hp]
  · simp only [hp, Bool.false_eq_true, if_false]
    have key : ∀ i, selObj (wr e (objF i (Fld.at a lo w r)) v) a = selObj e a := by
      intro i
      have h : ∀ g : Fld, g.key < 2 ^ 50 → rd (wr e (objF i (Fld.at a lo w r)) v) g = rd e g := by
        intro g hg
        refine rd_wr_ne _ _ _ _ ?_
        simp only [objF, Fld.at]; omega
      unfold selObj
      simp only [h Reg.tmgPolSelIndex (by decide), h Reg.tmgQSelQueue (by decide), h Reg.tmgNSelLevel (by decide), h Reg.tmgNSelIndex (by decide)]
    cases hs : selObj e a with
    | some i => simp only [key, hs]
    | none =>
      have : selObj (wr e (Fld.at a lo w r) v) a = none := by
        unfold selObj at hs ⊢
        split at hs
        · cases hs
        · rename_i h1
          split at hs
          · cases hs
          · rename_i h2
            split at hs
            · cases hs
            · rename_i h3; simp [h1, h2, h3]
      simp only [this]

theorem homeFld_wrShd (e : Dev) (a copy v : Nat) (g f : Fld) : homeFld (wrShd e g v) a copy f = homeFld e a copy f := rfl

/-- What one field of a write leaves in the field and in its shadow (R5, R9). -/
def fieldAfter (g : RFld) (old v : Nat) : Nat :=
  match g.acc with
  | .rw => if takes g.ok g.w v then landing g.ok v else old
  | .w1c => (old - (old &&& v)) % 2 ^ g.w
  | .wo => v
  | _ => old

def shadowAfter (g : RFld) (old : Option Nat) (v : Nat) : Option Nat :=
  if g.acc = .rws ∧ takes g.ok g.w v = true then some v else old

theorem landing_le (ok : Rng) (v : Nat) : landing ok v ≤ v := by
  unfold landing; split
  · exact Nat.div_mul_le_self _ _
  · exact Nat.le_refl _

theorem writeFld_spec (e : Dev) (a copy data : Nat) (g : RFld) (hlo : g.lo < 32) :
    let F := homeFld e a copy (.at a g.lo g.w g.rst)
    let t := writeFld e a copy data g
    rd t F = fieldAfter g (rd e F) (bits data g.lo g.w) ∧
    find? t.shadow F.key = shadowAfter g (find? e.shadow F.key) (bits data g.lo g.w) ∧
    (∀ f : Fld, f.key ≠ F.key → rd t f = rd e f) ∧ (∀ k, k ≠ F.key → find? t.shadow k = find? e.shadow k) ∧
    { t with regs := e.regs, shadow := e.shadow } = e ∧ ∀ f, homeFld t a copy f = homeFld e a copy f := by
  intro F t
  have hw : F.w = g.w := by
    obtain ⟨o, ho⟩ := homeFld_shift e a copy
    simp only [F, ho, Fld.at]
  have hv : bits data g.lo g.w < 2 ^ g.w := Nat.mod_lt _ (Nat.pow_pos (by decide))
  simp only [t, writeFld, fieldAfter, shadowAfter]
  cases hacc : g.acc <;> simp only [] 
  · simp
  · split
    · rename_i h1
      refine ⟨?_, by simp [wr], fun f hf => rd_wr_ne _ _ _ _ hf, fun _ _ => rfl, rfl, fun f => homeFld_wr _ _ _ _ _ _ _ hlo _⟩
      show rd (wr e F _) F = _
      rw [rd_wr_same, hw]
      exact Nat.mod_eq_of_lt (Nat.lt_of_le_of_lt (landing_le _ _) hv)
    · exact ⟨rfl, by simp, fun _ _ => rfl, fun _ _ => rfl, rfl, fun _ => rfl⟩
  · refine ⟨?_, by simp [wr], fun f hf => rd_wr_ne _ _ _ _ hf, fun _ _ => rfl, rfl, fun f => homeFld_wr _ _ _ _ _ _ _ hlo _⟩
    show rd (wr e F _) F = _
    rw [rd_wr_same, hw]
    exact Nat.mod_eq_of_lt hv
  · refine ⟨?_, by simp [wr], fun f hf => rd_wr_ne _ _ _ _ hf, fun _ _ => rfl, rfl, fun f => homeFld_wr _ _ _ _ _ _ _ hlo _⟩
    show rd (wr e F _) F = _
    rw [rd_wr_same, hw]
  · simp
  · by_cases h1 : takes g.ok g.w (bits data g.lo g.w) = true
    · simp only [h1, if_true, and_self]
      refine ⟨rfl, ?_, fun _ _ => rfl, fun k hk => ?_, rfl, fun _ => rfl⟩
      · show find? (set e.shadow F.key _) F.key = _
        rw [hw, Nat.mod_eq_of_lt hv]; simp
      · exact find?_set_ne _ _ hk
    · simp [h1]

/-- What a write of a whole register leaves (R5, R9, R285): each of its fields and their shadows by the access code, everything else
as it was. -/
theorem writeAll_spec (e : Dev) (a copy data : Nat) (l : List RFld) (hl : fieldsApart l = true) :
    let F := fun g : RFld => homeFld e a copy (.at a g.lo g.w g.rst)
    let t := each l e fun d f => writeFld d a copy data f
    (∀ g ∈ l, rd t (F g) = fieldAfter g (rd e (F g)) (bits data g.lo g.w) ∧
      find? t.shadow (F g).key = shadowAfter g (find? e.shadow (F g).key) (bits data g.lo g.w)) ∧
    (∀ f : Fld, f.key ∉ l.map (fun g => (F g).key) → rd t f = rd e f) ∧
    (∀ k, k ∉ l.map (fun g => (F g).key) → find? t.shadow k = find? e.shadow k) ∧
    { t with regs := e.regs, shadow := e.shadow } = e := by
  induction l generalizing e with
  | nil => exact ⟨by simp, fun _ _ => rfl, fun _ _ => rfl, rfl⟩
  | cons g l ih =>
    simp only [fieldsApart, Bool.and_eq_true, decide_eq_true_eq, List.all_eq_true] at hl
    obtain ⟨⟨⟨h1, h2⟩, h3⟩, h4⟩ := hl
    obtain ⟨a1, a2, a3, a4, a5, a6⟩ := writeFld_spec e a copy data g (by omega)
    obtain ⟨b1, b2, b3, b4⟩ := ih (writeFld e a copy data g) h4
    simp only [a6] at b1 b2 b3
    obtain ⟨o, ho⟩ := homeFld_shift e a copy
    have apart : ∀ x ∈ l, (homeFld e a copy (.at a x.lo x.w x.rst)).key ≠ (homeFld e a copy (.at a g.lo g.w g.rst)).key := by
      intro x hx
      have := h3 x hx
      simp only [ho, Fld.at]; omega
    have hg : (homeFld e a copy (.at a g.lo g.w g.rst)).key ∉ l.map fun x => (homeFld e a copy (.at a x.lo x.w x.rst)).key := by
      intro hm
      obtain ⟨x, hx, hk⟩ := List.mem_map.mp hm
      exact apart x hx hk
    show (∀ x ∈ g :: l, rd (each l (writeFld e a copy data g) _) _ = _ ∧ _) ∧ _
    refine ⟨?_, ?_, ?_, ?_⟩
    · intro x hx
      rcases List.mem_cons.mp hx with rfl | hx
      · exact ⟨(b2 _ hg).trans a1, (b3 _ hg).trans a2⟩
      · have := b1 x hx
        rw [a3 _ (apart x hx), a4 _ (apart x hx)] at this
        exact this
    · intro f hf
      simp only [List.map_cons, List.mem_cons, not_or] at hf
      exact (b2 f hf.2).trans (a3 f hf.1)
    · intro k hk
      simp only [List.map_cons, List.mem_cons, not_or] at hk
      exact (b3 k hk.2).trans (a4 k hk.1)
    · have c := congrArg (fun d : Dev => { d with regs := e.regs, shadow := e.shadow }) b4
      exact c.trans a5

theorem writeFlds_spec (e : Dev) (a copy data : Nat) (r : Row) (hr : rowAt a = some r) :
    writeFlds e a copy data = each r.flds e fun d f => writeFld d a copy data f := by
  unfold writeFlds; rw [hr]

/-- A register with no effect of its own takes a write by the access codes of its fields. -/
theorem landWrite_plain (d : Dev) (fn copy a data : Nat) (h : ownEffect a = false) :
    landWrite d fn copy a data = writeFlds d a copy data := by
  simp only [ownEffect, List.contains_cons, List.any_cons, Bool.or_eq_false_iff, Bool.and_eq_false_iff, beq_eq_false_iff_ne,
    decide_eq_false_iff_not, List.contains_nil, List.any_nil, ne_eq] at h
  have e : (none : Option Dev).getD (writeFlds d a copy data) = writeFlds d a copy data := rfl
  have c1 : writeClk d a data = none := by unfold writeClk; simp [h]
  have c2 : writeCfg d fn copy a data = none := by
    unfold writeCfg; simp [h]; omega
  have c3 : writePort d copy a data = none := by unfold writePort; simp [h]
  have c4 : writePath d fn copy a data = none := by unfold writePath; simp [h]
  have c5 : writeSpr d copy a data = none := by unfold writeSpr; simp [h]; omega
  have c6 : writeQueue d fn copy a data = none := by unfold writeQueue; simp [h]
  have c7 : writeGroup d a data = none := by unfold writeGroup; simp [h]
  have c8 : writeLast d copy a data = none := by unfold writeLast; simp [h]; omega
  unfold landWrite
  simp only [c1, c2, c3, c4, c5, c6, c7, c8, ite_self, e]

/-! ### Reads -/

/-- Fields from bit `m` on add up to a multiple of `2 ^ m`. -/
theorem fields_sum_dvd (v : RFld → Nat) (m : Nat) (l : List RFld) (h : ∀ g ∈ l, m ≤ g.lo) :
    2 ^ m ∣ (l.map fun g => put (v g) g.lo g.w).sum := by
  induction l with
  | nil => exact ⟨0, rfl⟩
  | cons g l ih =>
    simp only [List.map_cons, List.sum_cons]
    refine Nat.dvd_add ?_ (ih fun x hx => h x (List.mem_cons_of_mem _ hx))
    rw [put, Nat.shiftLeft_eq]
    exact Nat.dvd_trans (Nat.pow_dvd_pow 2 (h g (List.mem_cons_self ..))) (Nat.dvd_mul_left ..)

/-- The word of a register holds each field at its bits. -/
theorem bits_fields (v : RFld → Nat) (l : List RFld) (hl : fieldsApart l = true) (g : RFld) (hg : g ∈ l) :
    bits (l.map fun g => put (v g) g.lo g.w).sum g.lo g.w = v g % 2 ^ g.w := by
  induction l with
  | nil => cases hg
  | cons f l ih =>
    simp only [fieldsApart, Bool.and_eq_true, decide_eq_true_eq, List.all_eq_true] at hl
    obtain ⟨⟨⟨h1, h2⟩, h3⟩, h4⟩ := hl
    simp only [List.map_cons, List.sum_cons, bits, Nat.shiftRight_eq_div_pow]
    have hd := fields_sum_dvd v (f.lo + f.w) l h3
    obtain ⟨q, hq⟩ := hd
    rcases List.mem_cons.mp hg with rfl | hg
    · rw [hq, put, Nat.shiftLeft_eq, Nat.pow_add, Nat.mul_assoc, Nat.mul_comm (v g % 2 ^ g.w),
        Nat.mul_comm (2 ^ g.lo) (2 ^ g.w * q), Nat.add_mul_div_right _ _ (Nat.pow_pos (by decide)),
        Nat.mul_div_cancel_left _ (Nat.pow_pos (by decide)), Nat.add_mul_mod_self_left, Nat.mod_mod]
    · have hlt : put (v f) f.lo f.w < 2 ^ (f.lo + f.w) := by
        rw [put, Nat.shiftLeft_eq, Nat.pow_add, Nat.mul_comm]
        exact Nat.mul_lt_mul_of_pos_left (Nat.mod_lt _ (Nat.pow_pos (by decide))) (Nat.pow_pos (by decide))
      have hle := h3 g hg
      obtain ⟨e, he⟩ := Nat.exists_eq_add_of_le hle
      have := ih h4 hg
      simp only [bits, Nat.shiftRight_eq_div_pow] at this
      rw [← this, he, Nat.pow_add, ← Nat.div_div_eq_div_mul, ← Nat.div_div_eq_div_mul, hq,
        Nat.add_mul_div_left _ _ (Nat.pow_pos (by decide)), Nat.div_eq_of_lt hlt, Nat.zero_add,
        Nat.mul_div_cancel_left _ (Nat.pow_pos (by decide))]

theorem readReg_fields (d : Dev) (a copy : Nat) (r : Row) (hr : rowAt a = some r) (hv : viewWord d a = none) (g : RFld)
    (hg : g ∈ r.flds) : bits (readReg d a copy) g.lo g.w = readFld d a copy g (viewFlds d a) % 2 ^ g.w := by
  simp only [readReg, hv, hr]
  exact bits_fields (fun f => readFld d a copy f (viewFlds d a)) r.flds (rowAt_apart hr) g hg

/-- What a read of a register clears: its RC fields, outside a freeze (R5, R491). -/
theorem clearAll_spec (e : Dev) (a copy : Nat) (l : List RFld) (hl : fieldsApart l = true) :
    let F := fun g : RFld => homeFld e a copy (.at a g.lo g.w g.rst)
    let t := each l e fun d f => if f.acc = .rc then wr d (homeFld d a copy (.at a f.lo f.w f.rst)) 0 else d
    (∀ g ∈ l, g.acc = .rc → rd t (F g) = 0) ∧
    (∀ f : Fld, f.key ∉ (l.filter fun g => g.acc == .rc).map (fun g => (F g).key) → rd t f = rd e f) ∧
    { t with regs := e.regs } = e := by
  induction l generalizing e with
  | nil => exact ⟨by simp, fun _ _ => rfl, rfl⟩
  | cons g l ih =>
    simp only [fieldsApart, Bool.and_eq_true, decide_eq_true_eq, List.all_eq_true] at hl
    obtain ⟨⟨⟨h1, h2⟩, h3⟩, h4⟩ := hl
    obtain ⟨o, ho⟩ := homeFld_shift e a copy
    have apart : ∀ x ∈ l, (homeFld e a copy (.at a x.lo x.w x.rst)).key ≠ (homeFld e a copy (.at a g.lo g.w g.rst)).key := by
      intro x hx
      have := h3 x hx
      simp only [ho, Fld.at]; omega
    by_cases hrc : g.acc = .rc
    · have same : ∀ f, homeFld (wr e (homeFld e a copy (.at a g.lo g.w g.rst)) 0) a copy f = homeFld e a copy f :=
        fun f => homeFld_wr _ _ _ _ _ _ _ (by omega) _
      obtain ⟨b1, b2, b3⟩ := ih (wr e (homeFld e a copy (.at a g.lo g.w g.rst)) 0) h4
      simp only [same] at b1 b2
      have step : (each (g :: l) e fun d f => if f.acc = .rc then wr d (homeFld d a copy (.at a f.lo f.w f.rst)) 0 else d) =
          each l (wr e (homeFld e a copy (.at a g.lo g.w g.rst)) 0) fun d f =>
            if f.acc = .rc then wr d (homeFld d a copy (.at a f.lo f.w f.rst)) 0 else d := by
        simp [each, List.foldl_cons, hrc]
      simp only [step]
      refine ⟨?_, ?_, ?_⟩
      · intro x hx hxr
        rcases List.mem_cons.mp hx with rfl | hx
        · rw [b2 _ ?_, rd_wr_same, Nat.zero_mod]
          intro hm
          obtain ⟨y, hy, hk⟩ := List.mem_map.mp hm
          exact apart y (List.mem_filter.mp hy).1 hk
        · exact b1 x hx hxr
      · intro f hf
        simp only [List.filter_cons, hrc, beq_self_eq_true, if_true, List.map_cons, List.mem_cons, not_or] at hf
        exact (b2 f hf.2).trans (rd_wr_ne _ _ _ _ hf.1)
      · exact congrArg (fun d : Dev => { d with regs := e.regs }) b3
    · obtain ⟨b1, b2, b3⟩ := ih e h4
      have step : (each (g :: l) e fun d f => if f.acc = .rc then wr d (homeFld d a copy (.at a f.lo f.w f.rst)) 0 else d) =
          each l e fun d f => if f.acc = .rc then wr d (homeFld d a copy (.at a f.lo f.w f.rst)) 0 else d := by
        simp [each, List.foldl_cons, hrc]
      simp only [step]
      refine ⟨?_, ?_, b3⟩
      · intro x hx hxr
        rcases List.mem_cons.mp hx with rfl | hx
        · exact absurd hxr hrc
        · exact b1 x hx hxr
      · intro f hf
        refine b2 f ?_
        simpa [List.filter_cons, hrc] using hf

/-! ### Counters -/

theorem ctr_rows_by8 : ((List.range 24).all fun k => (Ctr.rowsOf k).all fun r => r.1 % 8 == 0 && r.2.all fun d => d.1 % 8 == 0) = true := by
  decide +kernel

theorem ctr_rowsOf_past (k : Nat) (h : 24 ≤ k) : Ctr.rowsOf k = [] := by
  unfold Ctr.rowsOf
  split <;> first | omega | rfl

theorem dimIdx_cons (off s n : Nat) (l : List (Nat × Nat)) :
    dimIdx off ((s, n) :: l) = if off / s < n then (dimIdx (off % s) l).map fun l => off / s :: l else none := by
  cases off <;> rfl

theorem dimIdx_nil (off : Nat) (h : (dimIdx off []).isSome = true) : off = 0 := by
  cases off with
  | zero => rfl
  | succ n => simp [dimIdx] at h

theorem dimIdx_by8 (dims : List (Nat × Nat)) (off : Nat) (hd : ∀ d ∈ dims, d.1 % 8 = 0) (h : (dimIdx off dims).isSome = true) :
    off % 8 = 0 := by
  induction dims generalizing off with
  | nil => rw [dimIdx_nil _ h]
  | cons p l ih =>
    obtain ⟨s, n⟩ := p
    rw [dimIdx_cons] at h
    split at h
    · have hs := hd (s, n) (List.mem_cons_self ..)
      have := ih (off % s) (fun d hm => hd d (List.mem_cons_of_mem _ hm)) (by simpa using h)
      have h1 := Nat.div_add_mod off s
      have h2 : (s * (off / s)) % 8 = 0 := by rw [Nat.mul_mod, show s % 8 = 0 from hs, Nat.zero_mul, Nat.zero_mod]
      omega
    · cases h

/-- Counters stand at multiples of 8. -/
theorem isCtr_by8 (a : Nat) (h : isCtr a = true) : a % 8 = 0 := by
  unfold isCtr at h
  obtain ⟨r, hr, h⟩ := List.any_eq_true.mp h
  simp only [Bool.and_eq_true, decide_eq_true_eq] at h
  by_cases hk : a / 0x100000 < 24
  · have h8 := List.all_eq_true.mp (List.all_eq_true.mp ctr_rows_by8 _ (List.mem_range.mpr hk)) _ hr
    simp only [Bool.and_eq_true, beq_iff_eq, List.all_eq_true] at h8
    have := dimIdx_by8 r.2 (a - r.1) h8.2 h.2
    omega
  · rw [ctr_rowsOf_past _ (by omega)] at hr; cases hr

/-- The word after a counter's low half is its high half, and no low half. -/
theorem latched_high (a : Nat) (h : isCtr a = true) : latched (a + 4) = false := by
  have h8 := isCtr_by8 a h
  have h4 : isCtr (a + 4) = false := by
    cases hc : isCtr (a + 4) with
    | false => rfl
    | true => have := isCtr_by8 _ hc; omega
  have hn : a ≠ 0x300000 := by rintro rfl; revert h; decide
  simp only [latched, h4, Bool.false_or, List.contains_cons, List.contains_nil, Bool.or_false, Bool.or_eq_false_iff, beq_eq_false_iff_ne]
  omega

/-- No counter stands at a mailbox word or the dump port, or beside one. -/
theorem isCtr_plain (a : Nat) (h : isCtr a = true) :
    ¬(0xC02000 ≤ a ∧ a < 0xC02400 ∧ a % 16 = 12) ∧ a ≠ 0x1600038 ∧ ¬(0xC02000 ≤ a + 4 ∧ a + 4 < 0xC02400 ∧ (a + 4) % 16 = 12) ∧
      a + 4 ≠ 0x1600038 := by
  have h8 := isCtr_by8 a h
  have hm : ¬(0xC02000 ≤ a ∧ a < 0xC02400) := by
    rintro ⟨h1, h2⟩
    have hk : a / 0x100000 = 12 := by omega
    unfold isCtr at h
    rw [hk] at h
    obtain ⟨r, hr, hx⟩ := List.any_eq_true.mp h
    simp only [Bool.and_eq_true, decide_eq_true_eq] at hx
    simp only [Ctr.rowsOf, List.mem_cons, List.not_mem_nil, or_false] at hr
    rcases hr with rfl | rfl | rfl | rfl | rfl | rfl | rfl
    all_goals first
      | (obtain ⟨_, hx⟩ := hx; rw [dimIdx_cons] at hx; split at hx
         · omega
         · cases hx)
      | (have := dimIdx_nil _ hx.2; dsimp only at this; omega)
  have hd : a ≠ 0x1600038 := by rintro rfl; revert h; decide
  refine ⟨?_, hd, ?_, ?_⟩ <;> omega

end Sys2Proof.Machine.Ops
end

