-- ==== Sys2Proof/Laws/Clk.lean ====
section
/-!
SUPPORT. Laws/Clk.lean: what the shared operations of the clocks do.
-/
namespace Sys2Proof.Machine.Ops

/-- Register fields read from `regs` alone. -/
theorem rd_of_regs {d e : Dev} (h : d.regs = e.regs) (f : Fld) : rd d f = rd e f := by simp only [rd, h]

/-- The fields that follow the source of the root PLL (R142, R428). -/
theorem switchTo_regs (d : Dev) (fb : Bool) : (switchTo d fb).regs =
    (if fb then wr (wr (wr d Reg.clkRootStatSrc 1) Reg.clkTbStatFallback 1) Reg.clkTbStatUnsynced 1
      else wr (wr d Reg.clkRootStatSrc 0) Reg.clkTbStatFallback 0).regs := by cases fb <;> rfl
theorem switchTo_src (d : Dev) (fb : Bool) : rd (switchTo d fb) Reg.clkRootStatSrc = b2n fb := by
  rw [rd_of_regs (switchTo_regs d fb)]
  cases fb <;> simp (disch := decide) only [if_true, if_false, Bool.false_eq_true, rd_wr_ne, rd_wr_same] <;> rfl
theorem switchTo_fallback (d : Dev) (fb : Bool) : rd (switchTo d fb) Reg.clkTbStatFallback = b2n fb := by
  rw [rd_of_regs (switchTo_regs d fb)]
  cases fb <;> simp (disch := decide) only [if_true, if_false, Bool.false_eq_true, rd_wr_ne, rd_wr_same] <;> rfl
theorem switchTo_rd (d : Dev) (fb : Bool) (f : Fld)
    (h : f.key ∉ [Reg.clkRootStatSrc.key, Reg.clkTbStatFallback.key, Reg.clkTbStatUnsynced.key]) : rd (switchTo d fb) f = rd d f := by
  simp only [List.mem_cons, List.not_mem_nil, or_false, not_or] at h
  rw [rd_of_regs (switchTo_regs d fb)]
  cases fb
  · simp only [Bool.false_eq_true, if_false]; rw [rd_wr_ne _ _ _ _ h.2.1, rd_wr_ne _ _ _ _ h.1]
  · simp only [if_true]; rw [rd_wr_ne _ _ _ _ h.2.2, rd_wr_ne _ _ _ _ h.2.1, rd_wr_ne _ _ _ _ h.1]
@[simp] theorem switchTo_onFb (d : Dev) (fb : Bool) : (switchTo d fb).clk.onFb = fb := by cases fb <;> rfl
@[simp] theorem switchTo_holdTo (d : Dev) (fb : Bool) : (switchTo d fb).clk.holdTo = d.clk.holdTo := by cases fb <;> rfl
@[simp] theorem switchTo_holdDl (d : Dev) (fb : Bool) : (switchTo d fb).clk.holdDl = d.clk.holdDl := by cases fb <;> rfl
@[simp] theorem switchTo_ctr (d : Dev) (fb : Bool) (a : Nat) : ctr (switchTo d fb) a = ctr d a := by cases fb <;> rfl

/-- A switch of the source changes registers, the source and Signet's mark of it. -/
theorem switchTo_frame (d : Dev) (fb : Bool) :
    { switchTo d fb with regs := d.regs, clk := { (switchTo d fb).clk with onFb := d.clk.onFb }, sgn := d.sgn } = d := by cases fb <;> rfl
@[simp] theorem switchTo_straps (d : Dev) (fb : Bool) : (switchTo d fb).straps = d.straps := by cases fb <;> rfl
@[simp] theorem switchTo_pins (d : Dev) (fb : Bool) : (switchTo d fb).pins = d.pins := by cases fb <;> rfl
@[simp] theorem switchTo_mem (d : Dev) (fb : Bool) : (switchTo d fb).mem = d.mem := by cases fb <;> rfl

end Sys2Proof.Machine.Ops
end

