-- ==== Sys2Proof/Laws/Mem.lean ====
section
/-!
SUPPORT. Laws/Mem.lean: what reads and writes of device memory do where nothing in it is wrong, and that the writes below the codes keep
memory canonical.
-/
namespace Sys2Proof.Machine.Ops
open Sys2Proof.Machine

/-! ### Canonical form -/

theorem wf_memPut (d : Dev) (a : Nat) (bs : Bytes) (h : Memory.wf d.mem.cells = true) : Memory.wf (memPut d a bs).mem.cells = true :=
  wf_bytesPut bs d.mem.cells a h

theorem wf_rawClear (d : Dev) (a n : Nat) (h : Memory.wf d.mem.cells = true) : Memory.wf (rawClear d a n).mem.cells = true :=
  wf_bytesClear d.mem.cells a n h

@[simp] theorem injectInto_cells (d : Dev) (b : Nat) : (injectInto d b).mem.cells = d.mem.cells := by
  unfold injectInto; split <;> rfl

@[simp] theorem memClear_cells (d : Dev) (a n : Nat) : (memClear d a n).mem.cells = bytesClear d.mem.cells a n := by
  simp only [memClear]; split <;> simp [rawClear]

theorem wf_memClear (d : Dev) (a n : Nat) (h : Memory.wf d.mem.cells = true) : Memory.wf (memClear d a n).mem.cells = true := by
  rw [memClear_cells]; exact wf_bytesClear d.mem.cells a n h

/-- Pieces put one after another keep memory canonical. -/
theorem wf_puts (l : List (Nat × Bytes)) (d : Dev) (h : Memory.wf d.mem.cells = true) :
    Memory.wf (each l d fun d p => memPut d p.1 p.2).mem.cells = true := by
  induction l generalizing d with
  | nil => exact h
  | cons p l ih => exact ih _ (wf_memPut d p.1 p.2 h)

/-! ### Reads -/

theorem lands_sgn {d : Dev} {a n : Nat} (x : Sgn) (h : Lands d a n) : Lands { d with sgn := x } a n := h

theorem meter_eq (d : Dev) (j n : Nat) : ∃ x, meter d j n = { d with sgn := x } := by
  unfold meter; split
  · exact ⟨_, rfl⟩
  · exact ⟨d.sgn, rfl⟩

/-- A block that holds no error is read as it stands. -/
theorem readBlock_plain (d : Dev) (b src : Nat) (hs : served d (128 * b) = true) (hb : find? d.mem.blk b = none) :
    readBlock d (b * 128) src = (d, []) := by
  have e : b * 128 / 128 = b := Nat.mul_div_cancel b (by decide)
  have : readLines d (b * 128 / 128) src [0, 1, 2, 3] = (d, []) := by rw [e]; simp [readLines, hs, hb]
  unfold readBlock
  rw [this]
  rfl

/-- A read of memory that is served as it stands gives the bytes there, and changes nothing but Signet's sums. -/
theorem memRead_plain (d : Dev) (a n : Nat) (h : Lands d a n) :
    memRead d a n = (meter d (memEvt a) (cdiv n 64), memGet d a n, false) := by
  obtain ⟨x, hx⟩ := meter_eq d (memEvt a) (cdiv n 64)
  have h' : Lands (meter d (memEvt a) (cdiv n 64)) a n := by rw [hx]; exact lands_sgn x h
  have key : ∀ (l : List Nat) (e : Dev), (∀ b ∈ l, served e (128 * b) = true ∧ find? e.mem.blk b = none) →
      l.foldl (fun (x : Dev × Bool) b =>
        let y := readBlock x.1 (b * 128) 0
        let hit := y.2.any fun j => decide (b * 128 + 32 * j < a + n ∧ a < b * 128 + 32 * j + 32)
        (y.1, x.2 || hit)) (e, false) = (e, false) := by
    intro l
    induction l with
    | nil => intro e _; rfl
    | cons b l ih =>
      intro e he
      have hb := he b List.mem_cons_self
      rw [List.foldl_cons]
      simp only [readBlock_plain e b 0 hb.1 hb.2, List.any_nil, Bool.or_false]
      exact ih e fun c hc => he c (List.mem_cons_of_mem _ hc)
  simp only [memRead, key _ _ h'.1]
  rw [hx]; rfl

/-! ### Writes -/

/-- A write to a block that is served and holds no error lands whole, in the lines that it touches (R327). -/
theorem writeBlock_plain (d : Dev) (b a : Nat) (bs : Bytes) (hs : served d (128 * b) = true) (hb : find? d.mem.blk b = none)
    (hi : rdB d Reg.memInjCtlArm = false) :
    writeBlock d b a bs = (d, ((List.range 4).filter fun j => decide (128 * b + 32 * j < a + bs.length ∧ a < 128 * b + 32 * j + 32)).map fun j =>
      let lo := max a (128 * b + 32 * j)
      let hi := min (a + bs.length) (128 * b + 32 * j + 32)
      (lo, (bs.drop (lo - a)).take (hi - lo))) := by
  have hr : ∀ l, readLines d b 2 l = (d, []) := fun l => by simp [readLines, hs, hb]
  have hj : injectInto d b = d := by simp [injectInto, hi]
  simp only [writeBlock, hs, hr]
  generalize (List.range 4).filter (fun j => decide (128 * b + 32 * j < a + bs.length ∧ a < 128 * b + 32 * j + 32)) = t
  have hf : ∀ l : List Nat, l.filter ([] : List Nat).contains = [] := fun l => by induction l <;> simp_all
  have hk : t.filter (fun j => !([] : List Nat).contains j) = t := by simp
  split
  · contradiction
  · simp only [ite_self, hf, each, List.foldl_nil, hk]
    split
    · rename_i h; simp at h; simp [h]
    · rw [hb]
      exact Prod.ext hj rfl

/-- Bytes put one after another are put at once. -/
theorem bytesPut_append (m : List Host.Cell) (a : Nat) (x y : Bytes) :
    bytesPut (bytesPut m a x) (a + x.length) y = bytesPut m a (x ++ y) := by
  induction x generalizing m a with
  | nil => rfl
  | cons b x ih =>
    have := ih (bytePut m a b) (a + 1)
    simpa [bytesPut, Nat.add_assoc, Nat.add_comm 1] using this

/-- The end points of line `l` lineEnd `n` bytes at `a`. -/
def lineEnd (a n l : Nat) : Nat := min (a + n) (max a (32 * l))

/-- The bytes of `bs` at `a` that lie between two addresses. -/
def piece (bs : Bytes) (a lo hi : Nat) : Bytes := (bs.drop (lo - a)).take (hi - lo)

theorem piece_append (bs : Bytes) (a x y z : Nat) (h1 : a ≤ x) (h2 : x ≤ y) (h3 : y ≤ z) : piece bs a x y ++ piece bs a y z = piece bs a x z := by
  have e1 : y - a = (x - a) + (y - x) := by omega
  have e2 : z - x = (y - x) + (z - y) := by omega
  rw [piece, piece, piece, e1, ← List.drop_drop, e2, List.take_add]

theorem piece_length (bs : Bytes) (a x y : Nat) (h1 : a ≤ x) (h2 : x ≤ y) (h3 : y ≤ a + bs.length) : (piece bs a x y).length = y - x := by
  simp only [piece, List.length_take, List.length_drop]; omega

/-- The pieces of `bs` in the lines `ls`, put in turn. -/
def putLines (bs : Bytes) (a : Nat) (m : List Host.Cell) (ls : List Nat) : List Host.Cell :=
  ls.foldl (fun m l => bytesPut m (lineEnd a bs.length l) (piece bs a (lineEnd a bs.length l) (lineEnd a bs.length (l + 1)))) m

/-- Lines put in ascending order are put at once. -/
theorem put_lines (bs : Bytes) (a l k : Nat) (m : List Host.Cell) :
    putLines bs a m (List.range' l k) =
      bytesPut m (lineEnd a bs.length l) (piece bs a (lineEnd a bs.length l) (lineEnd a bs.length (l + k))) := by
  induction k generalizing l m with
  | zero => simp [putLines, piece, bytesPut]
  | succ k ih =>
    have g1 : a ≤ lineEnd a bs.length l := by unfold lineEnd; omega
    have g2 : lineEnd a bs.length l ≤ lineEnd a bs.length (l + 1) := by unfold lineEnd; omega
    have g3 : lineEnd a bs.length (l + 1) ≤ lineEnd a bs.length (l + 1 + k) := by unfold lineEnd; omega
    have g4 : lineEnd a bs.length (l + 1) ≤ a + bs.length := by unfold lineEnd; omega
    rw [List.range'_succ, putLines, List.foldl_cons, ← putLines, ih, show l + (k + 1) = l + 1 + k by omega, ← piece_append bs a _ _ _ g1 g2 g3, ← bytesPut_append,
      piece_length bs a _ _ g1 g2 g4, show lineEnd a bs.length l + (lineEnd a bs.length (l + 1) - lineEnd a bs.length l) = lineEnd a bs.length (l + 1) by omega]

/-- The pieces of a write in block `b`, put in turn: its four lines. -/
theorem put_block (bs : Bytes) (a b : Nat) (d : Dev) :
    each (((List.range 4).filter fun j => decide (128 * b + 32 * j < a + bs.length ∧ a < 128 * b + 32 * j + 32)).map fun j =>
      let lo := max a (128 * b + 32 * j)
      let hi := min (a + bs.length) (128 * b + 32 * j + 32)
      (lo, (bs.drop (lo - a)).take (hi - lo))) d (fun d p => memPut d p.1 p.2) =
    { d with mem := { d.mem with cells := putLines bs a d.mem.cells (List.range' (4 * b) 4) } } := by
  have step : ∀ (l : List Nat) (d : Dev),
      each ((l.filter fun j => decide (128 * b + 32 * j < a + bs.length ∧ a < 128 * b + 32 * j + 32)).map fun j =>
        let lo := max a (128 * b + 32 * j)
        let hi := min (a + bs.length) (128 * b + 32 * j + 32)
        (lo, (bs.drop (lo - a)).take (hi - lo))) d (fun d p => memPut d p.1 p.2) =
      { d with mem := { d.mem with cells := putLines bs a d.mem.cells (l.map (4 * b + ·)) } } := by
    intro l
    induction l with
    | nil => intro d; rfl
    | cons j l ih =>
      intro d
      by_cases h : 128 * b + 32 * j < a + bs.length ∧ a < 128 * b + 32 * j + 32
      · rw [List.filter_cons_of_pos (by simpa using h)]
        have e1 : lineEnd a bs.length (4 * b + j) = max a (128 * b + 32 * j) := by unfold lineEnd; omega
        have e2 : lineEnd a bs.length (4 * b + j + 1) = min (a + bs.length) (128 * b + 32 * j + 32) := by unfold lineEnd; omega
        simp only [putLines, List.map_cons, List.foldl_cons, e1, e2]
        exact ih _
      · rw [List.filter_cons_of_neg (by simpa using h)]
        have e : lineEnd a bs.length (4 * b + j + 1) - lineEnd a bs.length (4 * b + j) = 0 := by unfold lineEnd; omega
        simp only [putLines, List.map_cons, List.foldl_cons, piece, e, List.take_zero, bytesPut]
        exact ih d
  exact step (List.range 4) d

/-- A write to memory that is served as it stands puts exactly its bytes (R327). -/
theorem memStore_plain (d : Dev) (a : Nat) (bs : Bytes) (h : Lands d a bs.length) : memStore d a bs = memPut d a bs := by
  have code : ∀ (l : List Nat) (q : List (Nat × Bytes)), (∀ b ∈ l, served d (128 * b) = true ∧ find? d.mem.blk b = none) →
      l.foldl (fun x b => let r := writeBlock x.1 b a bs; (r.1, x.2 ++ r.2)) (d, q) =
        (d, q ++ l.flatMap fun b => (writeBlock d b a bs).2) := by
    intro l
    induction l with
    | nil => intro q _; simp
    | cons b l ih =>
      intro q hl
      have hb := hl b List.mem_cons_self
      have e : (writeBlock d b a bs).1 = d := by rw [writeBlock_plain d b a bs hb.1 hb.2 h.2]
      rw [List.foldl_cons]
      show List.foldl _ ((writeBlock d b a bs).1, q ++ (writeBlock d b a bs).2) l = _
      rw [e, ih _ fun c hc => hl c (List.mem_cons_of_mem _ hc)]
      simp [List.flatMap_cons]
  have puts : ∀ (l : List Nat) (e : Dev), (∀ b ∈ l, served d (128 * b) = true ∧ find? d.mem.blk b = none) →
      each (l.flatMap fun b => (writeBlock d b a bs).2) e (fun d p => memPut d p.1 p.2) =
        { e with mem := { e.mem with cells := putLines bs a e.mem.cells (l.flatMap fun b => List.range' (4 * b) 4) } } := by
    intro l
    induction l with
    | nil => intro e _; rfl
    | cons b l ih =>
      intro e hl
      have hb := hl b List.mem_cons_self
      have w := put_block bs a b e
      rw [List.flatMap_cons, List.flatMap_cons, putLines, List.foldl_append, each, List.foldl_append]
      rw [writeBlock_plain d b a bs hb.1 hb.2 h.2]
      unfold each at w
      rw [w]
      exact ih _ fun c hc => hl c (List.mem_cons_of_mem _ hc)
  have lines : ∀ k b, ((List.range k).map (b + ·)).flatMap (fun b => List.range' (4 * b) 4) = List.range' (4 * b) (4 * k) := by
    intro k b
    induction k with
    | zero => rfl
    | succ k ih =>
      rw [List.range_succ, List.map_append, List.flatMap_append, ih, show 4 * (k + 1) = 4 * k + 4 by omega,
        ← List.range'_append_1, ← Nat.mul_add]
      simp
  unfold memStore codeWrite
  rw [code _ _ h.1]
  simp only [List.nil_append]
  rw [puts _ d h.1]
  by_cases hn : bs.length = 0
  · have : bs = [] := List.length_eq_zero_iff.1 hn
    subst this
    rfl
  · simp only [blocksOf, if_neg hn, lines, put_lines]
    have e1 : lineEnd a bs.length (4 * (a / 128)) = a := by unfold lineEnd; omega
    have e2 : lineEnd a bs.length (4 * (a / 128) + 4 * ((a + bs.length - 1) / 128 - a / 128 + 1)) = a + bs.length := by
      unfold lineEnd; omega
    rw [e1, e2]
    simp [piece, memPut]

/-- A metered write to memory that is served as it stands (R327, R438). -/
theorem memWrite_plain (d : Dev) (a : Nat) (bs : Bytes) (h : Lands d a bs.length) :
    memWrite d a bs = memPut (meter d (memEvt a) (cdiv bs.length 64)) a bs := by
  obtain ⟨x, hx⟩ := meter_eq d (memEvt a) (cdiv bs.length 64)
  unfold memWrite
  rw [hx]
  exact memStore_plain _ a bs (lands_sgn x h)

end Sys2Proof.Machine.Ops
end

