-- ==== Sys2Proof/WellFormed.lean ====
section
/-!
DEFINITION. WellFormed.lean: what a command's operands must be to be one that the outside can send: numbers within the widths that the
spec gives them, records of the lengths that it gives them. Every meaning is total: none relies on these checks.
-/
namespace Sys2Proof

/-- The number is below a bound. -/
def below (n x : Nat) : Bool := decide (x < n)
/-- What a flit slot's lanes carried: 16 lanes of 40 bits or 8 lanes of 80 (R47). -/
def lanesWf (l : Option (List Nat)) : Bool :=
  match l with | some ws => (ws.length == 16 || ws.length == 8) && ws.all (below (2 ^ (640 / ws.length))) | none => true
/-- An offset of a register in BAR0 (R503). -/
def regOff (a : Nat) : Bool := below (2 ^ 25) a && a % 4 == 0

/-- A mirror delta holds records of their lengths (R389). -/
def Delta.wf : Delta → Bool
  | .entry _ bytes side t => bytes.length == 128 && side.length == 16 && below (2 ^ 64) t
  | .state _ bytes side t => bytes.length == 88 && side.length == 16 && below (2 ^ 64) t
  | .scale pipe slot tensor _ t => below 8 pipe && below 256 slot && below 256 tensor && below (2 ^ 64) t

def PassFault.wf : PassFault → Bool
  | .unit k => below 8192 k
  | .lane l => below 4 l
  | .record t => below 256 t

/-- An access of a sprig core is aligned and of a width of RV64GC; a register is a word of 32 bits. The words of the control page that
have commands of their own are not accessed through this one (log entry 151). -/
def accessWf (addr n : Nat) (own : List Nat) : Bool :=
  below (2 ^ 56) addr && (n == 1 || n == 2 || n == 4 || n == 8) && addr % n == 0 &&
    (!(decide (0x40000000 ≤ addr) && decide (addr < 0x41800000)) || n == 4) && !own.contains (addr / 8 * 8) &&
    (!(0x100000 / 4096 == addr / 4096) || n == 8)

/-- An operation that names no address has 0 in its place. -/
def CoreOp.wf (addr : Nat) : CoreOp → Bool
  | .load n => accessWf addr n [0x100000, 0x100040]
  | .store b => accessWf addr b.length [0x100020, 0x100048, 0x100060]
  | .mtime => addr == 0
  | .timer cmp => addr == 0 && below (2 ^ 64) cmp
  | .irq => addr == 0
  | .post cls tenant slot epoch arg0 arg1 => addr == 0 && (cls == 5 || cls == 7) && below 64 tenant && below 256 slot && below 256 epoch &&
      below (2 ^ 64) arg0 && below (2 ^ 64) arg1

/-- The operands of a command are ones that can be sent. -/
def Instr.wf : Instr → Bool
  | .registerWrite _ addr _ => regOff addr
  | .rwsWrite _ addr _ => regOff addr
  | .rcRead _ addr => regOff addr
  | .counterLowRead _ addr => regOff addr
  | .counterHighRead _ addr => regOff addr
  | .gatedBlockAccess _ addr _ => regOff addr
  | .frameReceive _ _ _ => true
  | .pfcFrameReceive _ enable quanta _ => below 256 enable && quanta.length == 8 && quanta.all (below 65536)
  | .pfcPauseExpire _ prio => below 8 prio
  | .pfcXoffRepeat => true
  | .autoNegotiation _ _ => true
  | .recal _ => true
  | .recalDone _ _ => true
  | .laneFail _ => true
  | .parseStart _ => true
  | .flowLookup _ => true
  | .windowAccess _ => true
  | .turnStart _ fault => fault.all PassFault.wf
  | .turnWriteLand _ => true
  | .inferenceStage _ fault => fault.all PassFault.wf
  | .fcsCheck _ _ => true
  | .verdictForm _ _ => true
  | .recircEntry _ => true
  | .egressSelect _ => true
  | .shapingIntervalEnd => true
  | .queueDepthSample => true
  | .queueSnapshot _ _ => true
  | .queueSnapshotClear _ _ => true
  | .stemFlitReceive lanes => lanesWf lanes
  | .stemRequestDispatch => true
  | .stemResponseSend => true
  | .stemAsyncSend => true
  | .stemAsyncTimeout => true
  | .stemWindowWrite _ _ => true
  | .stemWindowHandover => true
  | .linkEnable _ => true
  | .linkDisable _ => true
  | .fecLock _ lanes => below 65536 lanes
  | .laneAlign _ => true
  | .paramExchange _ peer => below 65536 peer.part && below 256 peer.group && below 256 peer.id && below 17 peer.lanes
  | .trainingTimeout _ => true
  | .lossOfLock _ => true
  | .retrain _ => true
  | .retrainCleared _ => true
  | .agingScanVisit => true
  | .cmdRead _ _ => true
  | .cmdInsert _ _ => true
  | .cmdDelete _ _ => true
  | .cmdClearContest _ _ => true
  | .cmdZeroState _ _ => true
  | .cmdClearBucket _ _ => true
  | .shadowWalkVisit host => host.isNone || (match host with | some b => b.length % 64 == 0 | none => true)
  | .shadowSnap => true
  | .tbStepWrite _ => true
  | .tbStepApply => true
  | .tbSlewWrite _ => true
  | .ppsEdge gpio => below 16 gpio
  | .qntHold _ _ => true
  | .qntSnapshot _ _ => true
  | .qntSnapshotClear _ _ => true
  | .labelIntake src raw => raw.length == 32 && (match src with | .ring t => below 64 t | .member => true)
  | .labelApply => true
  | .leafPathExpire => true
  | .espRefitSwap _ _ => true
  | .espRefitClear _ _ => true
  | .espRefitDone => true
  | .hrfSwap _ _ => true
  | .hrfClear _ _ => true
  | .hrfDone => true
  | .flowRunStart => true
  | .flowRunComplete fault => fault.all PassFault.wf
  | .slotAssign _ _ => true
  | .refitInterval _ => true
  | .refitCommit _ _ => true
  | .refitDiscard _ _ => true
  | .taskDispatch cls _ => below 8 cls
  | .pfTaskPost _ => true
  | .taskPop _ => true
  | .taskDone _ status score win => below 4 status && below 65536 score && below 256 win
  | .taskWatchdog _ => true
  | .mboxIn _ => true
  | .mboxOut _ msg => below (2 ^ 64) msg
  | .doorbellDmaChannel _ _ tail => below 65536 tail
  | .doorbellRefitReady _ _ changed => below (2 ^ 32) changed
  | .registerWindowAccess _ addr op => op.wf addr
  | .h2cDeliver _ _ => true
  | .c2hFree _ => true
  | .coreDrain _ => true
  | .coreStart _ => true
  | .coreFault _ => true
  | .fwLoad => true
  | .fwLoadDone => true
  | .exceptionRecord _ => true
  | .graftSubmit _ _ => true
  | .graftStageStart list => decide (list.length ≤ 8256)
  | .graftStageDone => true
  | .graftCommit => true
  | .epochRetire x => below 256 x
  | .epochExpire x => below 256 x
  | .groupPrepare tag list payloads => below (2 ^ 32) tag && decide (list.length ≤ 8256 ∧ payloads.length ≤ 256)
  | .groupReply member status => below 16 member && below 256 status
  | .groupPrepareTimeout => true
  | .groupCommit tc => below (2 ^ 64) tc
  | .groupAbort => true
  | .groupCommitTimeout => true
  | .groupAckTimeout => true
  | .bar2Read off len => below (2 ^ 37) (off + len)
  | .bar2Write off bytes => below (2 ^ 37) (off + bytes.length)
  | .scrubVisit unit => below 8 unit
  | .repairCopyDone unit _ => below 8 unit
  | .unitLost unit => below 8 unit
  | .sramInit => true
  | .hbmInit failed => below 16 failed
  | .errorInjectArm _ => true
  | .channelEnable _ => true
  | .channelDisable _ => true
  | .channelResume _ => true
  | .channelReset _ => true
  | .tailDoorbell _ _ tail => below 65536 tail
  | .descriptorFetch _ host => host.isNone || (match host with | some b => b.length % 64 == 0 | none => true)
  | .nop _ => true
  | .copy _ _ preempt => below (2 ^ 32) preempt
  | .gather _ _ _ preempt => below (2 ^ 32) preempt
  | .pack _ _ preempt => below (2 ^ 32) preempt
  | .transpose _ _ preempt => below (2 ^ 32) preempt
  | .job _ _ fault => fault.all PassFault.wf
  | .replay _ _ => true
  | .label _ _ => true
  | .except _ => true
  | .descriptorComplete _ => true
  | .busRetry _ _ => true
  | .flr _ => true
  | .linkFlitReceive _ lanes => lanesWf lanes
  | .helloSend => true
  | .helloReceive _ id _ epoch live => below 8 id && below 256 epoch && below 256 live
  | .memberTimeout id => below 8 id
  | .masterSettle => true
  | .timeExchange => true
  | .timeReply t2 t3 => below (2 ^ 64) t2 && below (2 ^ 64) t3
  | .handoverReceive _ handle peer _ => below (2 ^ 18) handle && below 8 peer
  | .resultReceive handle _ => below (2 ^ 18) handle
  | .steerClaimReceive peer entry => below 8 peer && below 65536 entry
  | .steerSetReceive entry owner => below 65536 entry && below 8 owner
  | .steerEntrySnapshot _ => true
  | .floodReceive peer _ => below 8 peer
  | .labelForwardReceive raw => raw.length == 32
  | .heartbeatSend => true
  | .heartbeatReceive role fltState epoch => below 4 role && below 7 fltState && below 256 epoch
  | .partnerTimeout => true
  | .takeover => true
  | .takeoverDone => true
  | .mirrorDeltaSend => true
  | .mirrorDeltaApply delta => delta.wf
  | .chainHeadReceive _ _ _ tenant chain _ val => below 64 tenant && below 257 chain && val.length == 32
  | .join partner => below 65536 partner.part && below 2 partner.mode && below 256 partner.epoch && partner.digest.length == 32
  | .joinBoundary => true
  | .syncSweepVisit => true
  | .faultDetect cls unit => below 13 cls && below 65536 unit
  | .fltInject _ => true
  | .remapCopyDone => true
  | .holdExit => true
  | .release => true
  | .dvfsTargetWrite dom _ => below 3 dom
  | .dvfsStepDone dom => below 3 dom
  | .gateRequest _ _ => true
  | .gateOnDone _ => true
  | .gateOffDone _ => true
  | .gateForcedOff _ => true
  | .domainRequest _ => true
  | .domainOffDone _ => true
  | .domainOnDone _ => true
  | .sourceSelect _ => true
  | .pllLock => true
  | .fallbackReady => true
  | .refReady => true
  | .monitorTrip _ => true
  | .sourceCompare _ => true
  | .holdRestart => true
  | .holdFatal => true
  | .sdRefLost => true
  | .thermalSample temps => temps.length == 16 && temps.all (below 2048)
  | .railSample energy => energy.rails.length == 7
  | .signetIntervalEnd => true
  | .batchWrite => true
  | .calLoad => true
  | .calLoadDone => true
  | .sysRstAssert _ => true
  | .sysRstRelease straps => below 8 straps.trlId && below 4 straps.smbAddr
  | .aonReset => true
  | .perstAssert => true
  | .crsEnd => true
  | .cfgLoad _ => true
  | .imageCheckDone _ => true
  | .epochZero => true
  | .writeRoot slot => below 4 slot
  | .revokeRoot slot => below 4 slot
  | .writeImgKey => true
  | .raiseSvn val => below 64 val
  | .fuseProgramDone _ => true
  | .watchdogFire idx => below 9 idx
  | .snapshotDone => true
  | .counterSample => true
  | .freezePin => true
  | .freeze => true
  | .freezeCut => true
  | .dumpReady => true
  | .memOpen => true
  | .resume _ => true
  | .resumeBoundary => true
  | .dumpRead _ => true
  | .dumpStart => true
  | .idcode => true
  | .samplePreload pins dr => below (2 ^ 42) pins && below (2 ^ 42) dr
  | .extest pins => below (2 ^ 42) pins
  | .lpeStat => true
  | .lpeFreeze bits => below 8 bits
  | .lpeReg dr => below (2 ^ 58) dr
  | .lpeDump => true
  | .bypass ir => below 256 ir
  | .blockWriteAddr _ => true
  | .blockWriteData _ => true
  | .blockReadData => true
  | .readByteStatus => true
  | .signalDetect _ lanes => below 65536 lanes
  | .portLinkUp _ => true
  | .timeRequestReceive peer t1 => below 8 peer && below (2 ^ 64) t1
  | .commitAckReceive member => below 16 member
  | .perstRelease => true

end Sys2Proof
end

