-- ==== Sys2Proof/Tests/Slice0.lean ====
section
/-!
SUPPORT. Tests/Slice0.lean: the smoke test of `WellFormed`, one-step tests whose expected values come from the spec, and for each statement
concrete states and operands that meet its hypotheses, clause by clause.
-/
namespace Sys2Proof.Tests
open Sys2Proof Sys2Proof.Machine

set_option Elab.async false

/-- A property of the state with this device and no command waiting. -/
abbrev At (d : Dev) (P : State → Prop) : Prop := P { dev := d, pending := [] }

/-- A device with register fields set. -/
def put (d : Dev) (l : List (Fld × Nat)) : Dev := l.foldl (fun d p => Ops.wr d p.1 p.2) d

/-- The device after reset with register fields set. -/
def rst (l : List (Fld × Nat)) : Dev := put Dev.reset l

/-- The device after reset with every gate ON and register fields set. -/
def on (l : List (Fld × Nat)) : Dev := put { Dev.reset with clk := { Dev.reset.clk with gate := Vector.replicate 24 .on } } l

/-- The device `SYS_RST_N` holds in reset. -/
def low : Dev := { Dev.reset with pins := { Dev.reset.pins with sysRstN := false } }

/-- The device after a command, where it completes. -/
def after (c : Instr) (d : Dev) : Dev := match exec c { dev := d, pending := [] } with | .next t => t.dev | _ => d

/-- The command completes. -/
def runs (c : Instr) (d : Dev) : Bool := match exec c { dev := d, pending := [] } with | .next _ => true | _ => false

/-! ### The smoke test of WellFormed -/

theorem test_wf_refuses_register_accesses : ∀ i ∈ (
    [.registerWrite 0 6 0, .registerWrite 0 0x2000000 0, .rwsWrite 0 2 ⟨0, false⟩, .rcRead 0 1, .counterLowRead 0 3, .counterHighRead 0 0x2000004,
      .gatedBlockAccess 0 5 none] : List Instr), i.wf = false := by
  decide +kernel

theorem test_wf_refuses_ports_and_passes : ∀ i ∈ (
    [.pfcFrameReceive 0 256 (List.replicate 8 0) true, .pfcFrameReceive 0 0 (List.replicate 7 0) true,
      .pfcFrameReceive 0 0 (List.replicate 8 65536) true, .pfcPauseExpire 0 8, .turnStart 0 (some (.lane 4)), .inferenceStage 0 (some (.unit 8192)),
      .inferenceStage 0 (some (.record 256))] : List Instr), i.wf = false := by
  decide +kernel

theorem test_wf_refuses_stem_and_params : ∀ i ∈ (
    [.stemFlitReceive (some []), .stemFlitReceive (some (List.replicate 16 (2 ^ 40))), .fecLock .stem 65536, .paramExchange .stem ⟨65536, 0, 0, true, 16⟩,
      .paramExchange .stem ⟨0, 0, 0, true, 17⟩, .shadowWalkVisit (some [0]), .ppsEdge 16] : List Instr), i.wf = false := by
  decide +kernel

theorem test_wf_refuses_labels_and_tasks : ∀ i ∈ (
    [.labelIntake .member [], .labelIntake (.ring 64) (List.replicate 32 0), .flowRunComplete (some (.unit 8192)), .taskDispatch 8 0,
      .taskDone 0 4 0 0, .taskDone 0 0 65536 0, .taskDone 0 0 0 256, .mboxOut 0 (2 ^ 64), .doorbellDmaChannel 0 0 65536,
      .doorbellRefitReady 0 0 (2 ^ 32), .registerWindowAccess 0 2 (.load 4),
      .registerWindowAccess 0 0x40000000 (.store (List.replicate 8 0)), .registerWindowAccess 0 0x100000 (.load 8),
      .registerWindowAccess 0 0 (.post 6 0 0 0 0 0), .registerWindowAccess 0 4 .mtime] : List Instr), i.wf = false := by
  decide +kernel

theorem test_wf_refuses_grafts : ∀ i ∈ (
    [.graftStageStart (List.replicate 8257 0), .epochRetire 256, .epochExpire 256, .groupPrepare (2 ^ 32) [] [],
      .groupPrepare 0 [] (List.replicate 257 []), .groupReply 16 0, .groupReply 0 256, .groupCommit (2 ^ 64), .commitAckReceive 16] : List Instr), i.wf = false := by
  decide +kernel

theorem test_wf_refuses_memory_and_dma : ∀ i ∈ (
    [.bar2Read (2 ^ 37) 0, .bar2Write (2 ^ 37 - 1) [0], .scrubVisit 8, .repairCopyDone 8 ⟨true, true⟩, .unitLost 8, .hbmInit 16,
      .tailDoorbell 0 0 65536, .descriptorFetch 0 (some [0]), .copy 0 none (2 ^ 32), .gather 0 none none (2 ^ 32), .pack 0 none (2 ^ 32),
      .transpose 0 none (2 ^ 32), .job 0 none (some (.lane 4)), .linkFlitReceive .stem (some [])] : List Instr), i.wf = false := by
  decide +kernel

theorem test_wf_refuses_groups_and_pairs : ∀ i ∈ (
    [.helloReceive .stem 8 true 0 0, .memberTimeout 8, .timeRequestReceive 8 0, .timeReply (2 ^ 64) 0,
      .handoverReceive .stem (2 ^ 18) 0 ⟨false, []⟩, .resultReceive (2 ^ 18) [], .steerClaimReceive 0 65536, .steerSetReceive 0 8,
      .floodReceive 8 [], .labelForwardReceive [], .heartbeatReceive 0 7 0, .mirrorDeltaApply (.entry 0 [] [] 0),
      .mirrorDeltaApply (.state 0 [] [] 0), .mirrorDeltaApply (.scale 8 0 0 0 0), .chainHeadReceive 0 0 0 64 0 0 (List.replicate 32 0),
      .join ⟨65536, 0, 0, 0, List.replicate 32 0, 0, false, 0, true⟩, .faultDetect 13 0, .faultDetect 1 65536] : List Instr), i.wf = false := by
  decide +kernel

theorem test_wf_refuses_power_and_start : ∀ i ∈ (
    [.dvfsTargetWrite 3 0, .dvfsStepDone 3, .thermalSample [], .thermalSample (List.replicate 16 2048), .railSample ⟨[], 0⟩,
      .sysRstRelease ⟨8, false, false, 0, true⟩, .writeRoot 4, .revokeRoot 4, .raiseSvn 64, .watchdogFire 9, .samplePreload 0 (2 ^ 42)] : List Instr), i.wf = false := by
  decide +kernel

theorem test_wf_refuses_bridge : ∀ i ∈ (
    [.extest (2 ^ 42), .lpeFreeze 8, .lpeReg (2 ^ 58), .bypass 256, .signalDetect .stem 65536] : List Instr), i.wf = false := by
  decide +kernel

theorem test_wf_accepts : ∀ i ∈ ([.registerWrite 0 0x100004 3, .thermalSample (List.replicate 16 2047), .stemFlitReceive (some (List.replicate 8 (2 ^ 80 - 1))),
      .groupPrepare 1 (List.replicate 8256 0) [], .bar2Write (2 ^ 37 - 2) [0], .lpeReg (2 ^ 58 - 1)] : List Instr), i.wf = true := by
  decide +kernel

/-! ### Concrete states and operands that meet the statements' hypotheses -/

theorem meets_StepTakesTheFrontCommand : Dev.reset.pins.sysRstN = true ∧ low.pins.sysRstN = false := by decide +kernel

theorem meets_EveryStepKeepsSafe : Safe State.reset ∧ runs (.sysRstAssert true) Dev.reset = true ∧
    Safe { dev := after (.sysRstAssert true) Dev.reset, pending := [] } ∧ (after (.sysRstAssert true) Dev.reset).pins.railLost = true := by
  decide +kernel

theorem meets_StrapsAreLatchedAtTheRelease :
    low.pins.sysRstN = false ∧ runs (.sysRstRelease ⟨7, true, true, 3, false⟩) low = true ∧
    (after (.sysRstRelease ⟨7, true, true, 3, false⟩) low).straps ≠ low.straps ∧ Dev.reset.pins.sysRstN = true := by
  decide +kernel

theorem meets_ResetHoldsTheDevice :
    low.pins.sysRstN = false ∧ low.pins.railLost = false ∧ actsInReset (.gateRequest true 0) = false := by decide +kernel

theorem meets_EveryCommandCompletes : Awake State.reset := by decide +kernel

theorem meets_OnlyALostRailStops : resetEdge .perstAssert = true ∧ resetEdge .sramInit = false ∧
    (after (.sysRstAssert true) Dev.reset).pins.railLost = true := by decide +kernel

theorem meets_RegisterWriteFollowsItsAccessCodes :
    (At Dev.reset fun s => Awake s ∧ Ops.locate s.dev 0 0x100008 = .reg 0x100008 0 ∧ ¬(0 < (0 : Fn).val ∧ (0 : Fn).val < 64) ∧
      Arrives s.dev 0 0x100008 true ∧ ownEffect 0x100008 = false ∧ (Ops.rowAt 0x100008).isSome = true) ∧
    (At (on []) fun s => Awake s ∧ Ops.locate s.dev 64 0x400000 = .reg 0x400000 0 ∧ Arrives s.dev 64 0x400000 true ∧
      ownEffect 0x400000 = false ∧ (Ops.rowAt 0x400000).isSome = true) ∧
    (At (on [(Reg.dmaChOwnerOwner 0, 1)]) fun s => Awake s ∧
      Ops.locate s.dev 1 0x2001C = .reg 0x101001C 1 ∧ Ops.vfReadOnly 0x101001C = true ∧ Arrives s.dev 1 0x101001C true) := by
  decide +kernel

theorem meets_RegisterReadFollowsItsAccessCodes :
    At Dev.reset fun s => Awake s ∧ Ops.locate s.dev 0 0x100008 = .reg 0x100008 0 ∧ Arrives s.dev 0 0x100008 false ∧
      (Ops.rowAt 0x100008).isSome = true ∧ Ops.latched 0x100008 = false ∧ Ops.latched (0x100008 - 4) = false ∧
      Ops.viewWord s.dev 0x100008 = none := by
  decide +kernel

theorem meets_CounterHalvesAreLatchedPerFunction :
    At Dev.reset fun s => Awake s ∧ Ops.isCtr Ctr.clkMonTrip = true ∧ Ops.locate s.dev 0 Ctr.clkMonTrip = .reg Ctr.clkMonTrip 0 ∧
      Ops.locate s.dev 0 (Ctr.clkMonTrip + 4) = .reg (Ctr.clkMonTrip + 4) 0 ∧ Arrives s.dev 0 Ctr.clkMonTrip false ∧
      Arrives s.dev 0 (Ctr.clkMonTrip + 4) false := by
  decide +kernel

theorem meets_GatedBlockAnswersWithABusError :
    (At Dev.reset fun s => Awake s ∧ Ops.locate s.dev 0 0x400000 = .reg 0x400000 0 ∧ s.dev.hif.perst = false ∧
      Ops.blockCause s.dev (0x400000 / 0x100000) = some 0 ∧ Ops.rdB s.dev Reg.topBuserrLogValid = false) ∧
    (At (rst [(Reg.topBuserrLogValid, 1)]) fun s => Awake s ∧ Ops.locate s.dev 64 0x400000 = .reg 0x400000 0 ∧
      Ops.blockCause s.dev (0x400000 / 0x100000) = some 0 ∧ Ops.rdB s.dev Reg.topBuserrLogValid = true) := by
  decide +kernel

/-- A device with core 0 in RUN. -/
def running (c : Core) (l : List (Fld × Nat)) : Dev :=
  { on ((Reg.sprCoreStatState 0, 1) :: l) with spr := { Dev.reset.spr with cores := [(0, c)] } }

theorem meets_CoreWindowReachesItsApertures :
    (At (running default []) fun s => Awake s ∧ Ops.coreRuns s.dev 0 = true ∧ Ops.coreReaches 0x1400008 = false) ∧
    (At (running default []) fun s => Awake s ∧ Ops.coreRuns s.dev 0 = true ∧ Ops.coreReaches 0x700030 = true ∧
      Ops.portReg 0x700030 = false ∧ Arrives s.dev 64 0x700030 false ∧ Arrives s.dev 64 0x700030 true ∧ Ops.latched 0x700030 = false ∧
      Ops.latched (0x700030 - 4) = false ∧ ((Ops.rowAt 0x700030).map fun r => r.flds.all fun g => g.acc != .rc) = some true ∧
      ownEffect 0x700030 = false) ∧
    (At (running default []) fun s => Ops.coreReaches 0x1010000 = true ∧ Ops.portReg 0x1010000 = false ∧
      Arrives s.dev 64 0x1010000 true ∧ Ops.foreignChan s.dev 0x1010000 = true) ∧
    (At (running { (default : Core) with timer := some 0 } []) fun s => Ops.coreRuns s.dev 0 = true ∧
      (Ops.core s.dev 0).timer = some 0 ∧ 0 ≤ Ops.now64 s.dev) ∧
    (At (running { (default : Core) with timer := some 1 } []) fun s => Ops.now64 s.dev < 1) ∧
    (At Dev.reset fun s => Awake s ∧ Ops.coreRuns s.dev 0 = false) := by
  decide +kernel

theorem meets_ErrorInjectionIsArmed : At (on []) fun s => Awake s ∧ Arrives s.dev 0 0x00F00408 true := by decide +kernel

/-- A DVFS domain on a step to point `p`. -/
def stepping (k p : Nat) (l : List (Fld × Nat)) : Dev :=
  { rst ((Reg.clkDvfsStatBusy k, 1) :: l) with clk := { Dev.reset.clk with dvfsNext := [(k, p)] } }

theorem meets_DvfsWalksToItsTarget :
    (At (rst [(Reg.clkDvfsCfgMode 2, 1), (Reg.clkDvfsCfgFloor 2, 3)]) fun s => Awake s ∧ Arrives s.dev 0 (0x00100104 + 16 * 2) true ∧
      Ops.rdB s.dev (Reg.clkDvfsCfgMode 2) = true ∧ Ops.frozen s.dev = false ∧
      Ops.rdB s.dev (Reg.clkDvfsStatBusy 2) = false ∧ Ops.rd s.dev (Reg.clkDvfsStatPoint 2) ≠ (3 : Word).toNat % 8 ∧
      Ops.rd s.dev (Reg.clkDvfsCfgFloor 2) ≤ (3 : Word).toNat % 8 ∧ (2 : Word).toNat % 8 < Ops.rd s.dev (Reg.clkDvfsCfgFloor 2)) ∧
    (At (rst [(Reg.clkDvfsCfgMode 0, 0)]) fun s => Awake s ∧ Arrives s.dev 0 0x00100104 true ∧
      Ops.rdB s.dev (Reg.clkDvfsCfgMode 0) = false) ∧
    (At (stepping 1 6 [(Reg.clkDvfsStatPoint 1, 7), (Reg.clkDvfsCtlTarget 1, 0)]) fun s => Awake s ∧
      Arrives s.dev 0 (0x00100104 + 16 * 1) true ∧ Ops.moving s.dev = true ∧ Ops.rdB s.dev (Reg.clkDvfsStatBusy 1) = true ∧
      Ops.find? s.dev.clk.dvfsNext 1 = some 6 ∧ 6 ≠ Ops.rd s.dev (Reg.clkDvfsCtlTarget 1)) ∧
    (At (stepping 1 7 [(Reg.clkDvfsStatPoint 1, 6), (Reg.clkDvfsCtlTarget 1, 7)]) fun s => Awake s ∧
      Ops.moving s.dev = true ∧ Ops.rdB s.dev (Reg.clkDvfsStatBusy 1) = true ∧ Ops.find? s.dev.clk.dvfsNext 1 = some 7 ∧
      7 = Ops.rd s.dev (Reg.clkDvfsCtlTarget 1)) := by
  refine ⟨?_, ?_, ?_, ?_⟩ <;> decide +kernel

/-- A clock hold towards the fallback. -/
def held (l : List (Fld × Nat)) : Dev :=
  { rst ((Reg.clkRootStatHolding, 1) :: l) with clk := { Dev.reset.clk with holdTo := some true, holdDl := some 0 } }

theorem meets_SourceSelectionFollowsItsReadyFlag :
    (At (rst [(Reg.clkSwStatResult, 1)]) fun s => Awake s ∧ Arrives s.dev 0 0x00100004 true ∧ Ops.frozen s.dev = false ∧
      Ops.bit (2 : Word).toNat 1 = true ∧ Ops.rd s.dev Reg.clkSwStatResult = 1 ∧ Ops.holding s.dev = false) ∧
    (At (rst []) fun s => Awake s ∧ Ops.rd s.dev Reg.clkSwStatResult ≠ 1 ∧ Ops.holding s.dev = false ∧ Ops.bit (2 : Word).toNat 0 = s.dev.clk.onFb ∧
      Ops.bit (3 : Word).toNat 0 ≠ s.dev.clk.onFb ∧ Ops.bit (3 : Word).toNat 1 = true ∧ Ops.srcReady s.dev true = false) ∧
    (At (rst [(Reg.clkSrcStatFbReady, 1)]) fun s => Awake s ∧ Arrives s.dev 0 0x00100004 true ∧ Ops.frozen s.dev = false ∧
      Ops.rd s.dev Reg.clkSwStatResult ≠ 1 ∧ Ops.holding s.dev = false ∧ Ops.bit (3 : Word).toNat 0 ≠ s.dev.clk.onFb ∧
      Ops.srcReady s.dev true = true) ∧
    (At (held []) fun s => Awake s ∧ Ops.holding s.dev = true) := by
  refine ⟨?_, ?_, ?_, ?_⟩ <;> decide +kernel

theorem meets_SourcesBecomeReadyAndTrip :
    (At (rst [(Reg.clkSrcCtlFbEn, 1)]) fun s => s.dev.pins.railLost = false ∧ s.dev.clk.holdTo = none ∧
      Ops.rdB s.dev Reg.clkSrcCtlFbEn = true) ∧
    (At (rst [(Reg.clkSrcCtlFbEn, 0)]) fun s => s.dev.pins.railLost = false ∧ s.dev.clk.holdTo = none ∧
      Ops.rdB s.dev Reg.clkSrcCtlFbEn = false) ∧
    (At (held []) fun s => s.dev.pins.railLost = false ∧ s.dev.clk.holdTo = some true ∧ s.dev.clk.onFb ≠ true) ∧
    (At { held [] with clk := { (held []).clk with holdTo := some false, onFb := true } } fun s => s.dev.pins.railLost = false ∧
      s.dev.clk.holdTo = some false ∧ s.dev.clk.onFb ≠ false) ∧
    (At (held []) fun s => Awake s ∧ Arrives s.dev 0 0x00100004 true ∧ Ops.frozen s.dev = false ∧ Ops.bit (1 : Word).toNat 1 = false ∧
      Ops.holding s.dev = true ∧ s.dev.clk.onFb = false) ∧
    (At { held [] with clk := { (held []).clk with onFb := true } } fun s => Awake s ∧ Arrives s.dev 0 0x00100004 true ∧
      Ops.frozen s.dev = false ∧ Ops.holding s.dev = true ∧ s.dev.clk.onFb = true) ∧
    (At (rst []) fun s => Awake s ∧ Ops.holding s.dev = false ∧ s.dev.clk.onFb = false ∧ Ops.srcReady s.dev (!s.dev.clk.onFb) = false ∧
      Ops.rd s.dev Reg.clkMonCfgTol < Ops.rd s.dev Reg.clkMonCfgTol + 1) ∧
    (At (rst [(Reg.clkSrcStatFbReady, 1)]) fun s => Awake s ∧ Ops.holding s.dev = false ∧ Ops.srcReady s.dev (!s.dev.clk.onFb) = true) := by
  refine ⟨?_, ?_, ?_, ?_, ?_, ?_, ?_, ?_⟩ <;> decide +kernel

theorem meets_ClockHoldsEnd :
    (At { held [(Reg.clkRootStatLocked, 1), (Reg.clkSrcStatFbReady, 1)] with clk := { (held []).clk with onFb := true } } fun s => Awake s ∧
      s.dev.clk.holdTo = some true ∧ s.dev.clk.onFb = true ∧ Ops.srcReady s.dev true = true ∧ Ops.rdB s.dev Reg.clkRootStatLocked = true ∧
      Ops.rdB s.dev Reg.clkMonStatFatal = false) ∧
    (At (held []) fun s => Awake s ∧ s.dev.clk.holdTo = some true ∧ s.dev.clk.onFb ≠ true ∧ s.dev.clk.holdDl = some 0 ∧ 0 ≤ Ops.now s.dev ∧
      Ops.rdB s.dev Reg.clkMonStatFatal = false ∧ Ops.fltState s.dev ≠ 6) ∧
    (At { held [] with clk := { (held []).clk with holdDl := some 1 } } fun s => Awake s ∧ s.dev.clk.holdDl = some 1 ∧ Ops.now s.dev < 1) ∧
    (At (rst [(Reg.prtPortStatLinkUp 0, 1)]) fun s => Awake s ∧ 0 < Ops.portCount s.dev ∧
      Ops.rdB s.dev (Reg.prtPortStatLinkUp 0) = true) := by
  refine ⟨?_, ?_, ?_, ?_⟩ <;> decide +kernel

theorem meets_ThermalSamplesWarnAndTrip :
    let hot := List.replicate 15 100 ++ [460]
    let mild := List.replicate 15 100 ++ [459]
    let cool := List.replicate 16 419
    hot.length = 16 ∧ mild.length = 16 ∧ cool.length = 16 ∧ (∀ x ∈ hot ++ mild ++ cool, x < 2048) ∧
    (At { rst [(Reg.clkThermCfgWarn, 100)] with clk := { Dev.reset.clk with thermHi := [15] } } fun s => Awake s ∧
      Ops.rdB s.dev Reg.clkThermStatTrip = false ∧ 15 ∈ s.dev.clk.thermHi ∧ 460 ≤ Ops.sgn 11 (hot.getD 15 0) ∧
      Ops.sgn 11 (Ops.rd s.dev Reg.clkThermCfgWarn) ≤ Ops.sgn 11 (hot.getD 0 0) ∧ Ops.frozen s.dev = false ∧ Ops.fltState s.dev < 3 ∧
      (∀ k, k < 16 → k ∈ s.dev.clk.thermHi → Ops.sgn 11 (mild.getD k 0) < 460)) ∧
    (At (rst [(Reg.clkThermStatTrip, 1)]) fun s => Awake s ∧ Ops.rdB s.dev Reg.clkThermStatTrip = true ∧
      (∀ k, k < 16 → Ops.sgn 11 (cool.getD k 0) < 420)) := by
  decide +kernel

/-- A device with one gate in a state. -/
def gateAt (k : Nat) (g : GateSt) (l : List (Fld × Nat)) : Dev :=
  { rst l with clk := { Dev.reset.clk with gate := Dev.reset.clk.gate.set! k g, gateDl := [(k, 0)] } }

/-- A device with one domain in a state. -/
def domAt (k : Nat) (g : GateSt) (l : List (Fld × Nat)) : Dev :=
  { rst l with clk := { Dev.reset.clk with dom := Dev.reset.clk.dom.set! k g } }

theorem meets_GatesAndDomainsFollowTheirRequests :
    (At Dev.reset fun s => Awake s ∧ Arrives s.dev 0 0x100 true ∧ Arrives s.dev 0 0x104 true ∧ Ops.frozen s.dev = false ∧
      Arrives s.dev 0 0x00100200 true ∧ (∀ k ∈ [5, 7, 8, 13], Ops.dom s.dev k = .on) ∧ Ops.switchable 0 = false) ∧
    (At (rst [(Reg.lpeFreezeStatState, 2)]) fun s => Awake s ∧ Arrives s.dev 0 0x104 true ∧ Ops.frozen s.dev = true) ∧
    (At (gateAt 4 .pendOn [(Reg.topGateEn0En, 2 ^ 4)]) fun s => Awake s ∧ Ops.gate s.dev 4 = .pendOn ∧ Ops.frozen s.dev = false ∧
      Ops.holding s.dev = false ∧ Ops.domOn s.dev (Ops.gateDom 4) = true ∧ Ops.enBit s.dev 4 = true) ∧
    (At { gateAt 4 .pendOn [(Reg.topGateEn0En, 2 ^ 4)] with clk := { (gateAt 4 .pendOn []).clk with dom := Vector.replicate 14 .off } }
      fun s => Awake s ∧ Ops.gate s.dev 4 = .pendOn ∧ Ops.domOn s.dev (Ops.gateDom 4) = false ∧ Ops.enBit s.dev 4 = true) ∧
    (At (gateAt 4 .pendOn []) fun s => Awake s ∧ Ops.gate s.dev 4 = .pendOn ∧ Ops.frozen s.dev = false ∧ Ops.holding s.dev = false ∧
      Ops.domOn s.dev (Ops.gateDom 4) = true ∧ Ops.enBit s.dev 4 = false) ∧
    (At (gateAt 9 .pendOff []) fun s => Awake s ∧ Ops.gate s.dev 9 = .pendOff ∧ Ops.frozen s.dev = false ∧ Ops.gateIdle s.dev 9 = true ∧
      Ops.find? s.dev.clk.gateDl 9 = some 0 ∧ 0 ≤ Ops.now s.dev) ∧
    (At { gateAt 9 .pendOff [] with clk := { (gateAt 9 .pendOff []).clk with gateDl := [(9, 1)] } } fun s => Awake s ∧
      Ops.find? s.dev.clk.gateDl 9 = some 1 ∧ Ops.now s.dev < 1) ∧
    (At (domAt 13 .off []) fun s => Awake s ∧ Ops.dom s.dev 13 = .off) ∧
    (At (domAt 13 .pendOff []) fun s => Awake s ∧ Ops.dom s.dev 13 = .pendOff ∧ Ops.frozen s.dev = false ∧ Ops.domainQuiet s.dev 13 = true ∧
      Ops.domWaits s.dev 13 = false ∧ (∀ g, g < 24 → Ops.gateDom g = 13 → Ops.gate s.dev g = .off) ∧ Ops.find? s.dev.clk.domNext 13 = none) ∧
    (At (domAt 13 .pendOn []) fun s => Awake s ∧ Ops.dom s.dev 13 = .pendOn ∧ Ops.frozen s.dev = false ∧ Ops.domWaits s.dev 13 = false ∧
      Ops.find? s.dev.clk.domNext 13 = none) := by
  refine ⟨?_, ?_, ?_, ?_, ?_, ?_, ?_, ?_, ?_, ?_⟩ <;> decide +kernel

theorem meets_TimeBaseAdvancesByAdjAndSlew :
    (∀ w ∈ [(4294967 : Int) + 1, -4294968, 0], let d : Dev := { rst [(Reg.clkTbAdjRate, 4294967)] with tb := { Dev.reset.tb with slew := w } }
      d.pins.sysRstN = true ∧ d.tb.t + 2 ^ 33 < 2 ^ 96 ∧ -4294967 ≤ Ops.tbAdj d ∧ Ops.tbAdj d ≤ 4294967) ∧
    (4294967 < (4294967 : Int) + 1 ∧ (-4294968 : Int) < -4294967) := by
  decide +kernel

theorem meets_TimeBaseStepsAndSlews :
    (At Dev.reset fun s => Awake s ∧ Arrives s.dev 0 0x00100814 true ∧ Arrives s.dev 0 0x00100818 true ∧
      Ops.sgn 64 (Ops.rd s.dev Reg.clkTbStepLoNs + 2 ^ 32 * (0 : Word).toNat) = 0 ∧
      0 < Ops.sgn 64 (Ops.rd s.dev Reg.clkTbStepLoNs + 2 ^ 32 * (1 : Word).toNat) ∧
      Ops.sgn 64 (Ops.rd s.dev Reg.clkTbStepLoNs + 2 ^ 32 * (0xFFFFFFFF : Word).toNat) < 0 ∧ Ops.sgnOn s.dev = false ∧
      Ops.rdB s.dev Reg.clkTbCtlPpsEn = false) ∧
    (At { Dev.reset with tb := { Dev.reset.tb with step := some 1 } } fun s => Awake s ∧ s.dev.tb.step = some 1 ∧ (0 : Int) < 1) ∧
    (At (rst [(Reg.clkTbCtlPpsEn, 1), (Reg.clkTbCtlPpsGpio, 15)]) fun s => Awake s ∧ Ops.rdB s.dev Reg.clkTbCtlPpsEn = true ∧
      Ops.rd s.dev Reg.clkTbCtlPpsGpio = 15) := by
  refine ⟨?_, ?_, ?_⟩ <;> decide +kernel

/-- A device with a Signet session. -/
def session (l : List (Fld × Nat)) : Dev := { on l with sgn := { Dev.reset.sgn with session := true, batches := [List.replicate 192 1] } }

theorem meets_SignetIntervalsClose :
    (At { session [] with tb := { Dev.reset.tb with t := 10 ^ 12 * 2 ^ 32 } } fun s => Awake s ∧ Ops.sgnOn s.dev = true ∧ Ops.frozen s.dev = false ∧
      Ops.intervalEnd s.dev ≤ Ops.now s.dev ∧ s.dev.sgn.calPend = none ∧ s.dev.sgn.session = true) ∧
    (At (session []) fun s => Awake s ∧ Ops.now s.dev < Ops.intervalEnd s.dev) ∧
    (At Dev.reset fun s => Awake s ∧ s.dev.sgn.session = false ∧ Ops.sgnOn s.dev = false) := by
  refine ⟨?_, ?_, ?_⟩ <;> decide +kernel

theorem meets_BatchesAreWrittenOrLost :
    (At (session [(Reg.sgnCtlLedgerEn, 0)]) fun s => Awake s ∧ Ops.gate s.dev 21 = .on ∧ s.dev.sgn.batches = [List.replicate 192 1] ∧
      Ops.rdB s.dev Reg.sgnCtlLedgerEn = false) ∧
    (At { gateAt 21 .pendOff [] with sgn := { Dev.reset.sgn with batches := [List.replicate 192 1] } } fun s => Awake s ∧
      Ops.gate s.dev 21 = .pendOff ∧ s.dev.sgn.batches = [List.replicate 192 1] ∧ Ops.rdB s.dev Reg.sgnCtlLedgerEn = false) ∧
    (At (session [(Reg.sgnCtlLedgerEn, 1), (Reg.sgnLedgerSizeSize, 1), (Reg.sgnLedgerWrWr, 1022), (Reg.sgnLedgerRdRd, 1022)]) fun s => Awake s ∧
      Ops.gate s.dev 21 = .on ∧ Ops.rdB s.dev Reg.sgnCtlLedgerEn = true ∧
      (let n := Ops.rd s.dev Reg.sgnLedgerSizeSize * 1024
       let w := Ops.rd s.dev Reg.sgnLedgerWrWr
       w < n ∧ n ≤ 2 ^ 26 ∧ (w + n - Ops.rd s.dev Reg.sgnLedgerRdRd % n) % n + 192 / 64 < n ∧ 64 * (n - w) < 192)) ∧
    (At Dev.reset fun s => Awake s ∧ s.dev.sgn.batches = []) := by
  refine ⟨?_, ?_, ?_, ?_⟩ <;> decide +kernel

theorem meets_CalibrationTablesAreChecked :
    (At (on []) fun s => Awake s ∧ Arrives s.dev 0 0x01500000 true ∧ Ops.rdB s.dev Reg.sgnStatCalBusy = false) ∧
    (At (on [(Reg.sgnStatCalBusy, 1), (Reg.memStatSramInit, 1)]) fun s => Awake s ∧ Arrives s.dev 0 0x01500000 true ∧ Ops.rdB s.dev Reg.sgnStatCalBusy = true ∧
      (let r := Ops.memRead s.dev (Ops.rd64 s.dev Reg.sgnCalAddrLoAddr Reg.sgnCalAddrHiAddr) 416
       r.2.2 = false ∧ r.2.1.take 4 ≠ [0x53, 0x47, 0x43, 0x54])) ∧
    (At { on [(Reg.sgnStatCalBusy, 1), (Reg.memStatSramInit, 1)] with mem := { Dev.reset.mem with blk := [(0, ⟨[], [0]⟩)] } } fun s => Awake s ∧
      Ops.rdB s.dev Reg.sgnStatCalBusy = true ∧
      (Ops.memRead s.dev (Ops.rd64 s.dev Reg.sgnCalAddrLoAddr Reg.sgnCalAddrHiAddr) 416).2.2 = true) := by
  refine ⟨?_, ?_, ?_⟩ <;> decide +kernel

theorem meets_ProvisioningProgramsFusesOnce :
    (At (on []) fun s => Awake s ∧ Arrives s.dev 0 0x01700440 true ∧ Ops.rdB s.dev Reg.secProvStatBusy = false ∧
      Ops.provAllowed s.dev 1 3 0 = true ∧ Ops.provSet s.dev 1 3 0 = false ∧ Ops.bootState s.dev = 0 ∧
      Ops.provAllowed s.dev 3 0 0 = true ∧ Ops.provSet s.dev 3 0 0 = false) ∧
    (At { on [] with sec := { Dev.reset.sec with programmed := 2 } } fun s => Awake s ∧ Ops.provAllowed s.dev 1 1 0 = true ∧
      Ops.provSet s.dev 1 1 0 = true) ∧
    (At (on [(Reg.cfgBootStatState, 3)]) fun s => Awake s ∧ Ops.provAllowed s.dev 1 0 0 = false ∧ Ops.bootState s.dev ≠ 0) ∧
    (∀ p ∈ ([(1, 3, 0, zero32), (2, 0, 0, []), (3, 0, 0, zero32), (4, 0, 63, [])] : List (Nat × Nat × Nat × Bytes)), At { Dev.reset with sec := { Dev.reset.sec with prov := some p } }
      fun s => Awake s ∧ s.dev.sec.prov = some (p.1, p.2.1, p.2.2.1, p.2.2.2) ∧ p.2.1 < 4) := by
  refine ⟨?_, ?_, ?_, ?_⟩ <;> decide +kernel

/-- A device whose load from the boot source `src` runs. -/
def loading (src : Nat) : Dev := { on [(Reg.cfgBootStatState, 1)] with cfg := { Dev.reset.cfg with loading := some src } }

theorem meets_BaseLoadsInstallEpochZero :
    (∀ b ∈ [0, 1, 2, 3], At (rst [(Reg.cfgBootStatState, b)]) fun s => Awake s ∧ Arrives s.dev 0 0x0020000C true ∧
      Ops.bit (1 : Word).toNat 0 = true ∧ Ops.bootState s.dev = b ∧ Ops.gate s.dev 15 = .off) ∧
    (∀ b ∈ [1, 2, 3], At (loading b) fun s => Awake s ∧ s.dev.cfg.loading = some b ∧ Ops.moving s.dev = true ∧
      (Ops.loadBytes s.dev b (some [])).2 = some [] ∧
      (match Img.container (Ops.loadBytes s.dev b (some [])).1 [] true (Ops.loadLimit s.dev b) with | .bad _ _ => true | _ => false) = true) ∧
    (At { put (loading 3) [(Reg.cfgLoadCtlSrc, 3), (Reg.memStatSramInit, 1)] with mem := { Dev.reset.mem with cells := [(12, 64)], blk := [(0, ⟨[], [1]⟩)] } }
      fun s => Awake s ∧ s.dev.cfg.loading = some 3 ∧ Ops.moving s.dev = true ∧ (Ops.loadBytes s.dev 3 none).2 = none) ∧
    (At { on [] with cfg := { Dev.reset.cfg with base := some default, models := some [] } } fun s => Awake s ∧
      s.dev.cfg.base = some default ∧ Ops.moving s.dev = true ∧ s.dev.cfg.models.isSome = true ∧ s.dev.shadow = []) ∧
    (At (on []) fun s => Awake s ∧ s.dev.cfg.base = none ∧ s.dev.cfg.models = none) := by
  refine ⟨?_, ?_, ?_, ?_, ?_⟩ <;> decide +kernel

theorem meets_ResetsActOnTheirDomains :
    (At { on [(Reg.dmaChOwnerOwner 0, 63), (Reg.dmaChOwnerOwner 4095, 1)] with chans := [(0, default), (4095, default)] } fun s => Awake s ∧
      (63 : Fn).val < 64 ∧ 0 ∈ s.dev.chans.map (·.1) ∧ Ops.rd s.dev (Reg.dmaChOwnerOwner 0) = 63 ∧
      Ops.rd s.dev (Reg.dmaChOwnerOwner 4095) ≠ 63 ∧ Ops.find? s.dev.chans 4095 = some default) ∧
    (At { on [] with hif := { Dev.reset.hif with perst := true } } fun s => s.dev.hif.perst = true) ∧
    (At { on [] with hif := { Dev.reset.hif with crs := some 0 } } fun s => s.dev.hif.perst = false ∧ Awake s ∧ s.dev.hif.crs = some 0 ∧
      0 ≤ Ops.now s.dev) ∧
    (At { on [] with hif := { Dev.reset.hif with crs := some 1 } } fun s => Awake s ∧ s.dev.hif.crs = some 1 ∧ Ops.now s.dev < 1) ∧
    (At { put low [(Reg.clkSrcStatRefReady, 1)] with clk := Dev.reset.clk } fun s => s.dev.pins.sysRstN = false ∧
      Ops.rdB s.dev Reg.clkSrcStatRefReady = true) ∧
    (At (put low [(Reg.clkSrcStatRefReady, 0), (Reg.clkSrcStatFbReady, 1)]) fun s => s.dev.pins.sysRstN = false ∧
      Ops.rdB s.dev Reg.clkSrcStatRefReady = false ∧ Ops.rdB s.dev Reg.clkSrcStatFbReady = true) ∧
    (At (put low [(Reg.clkSrcStatRefReady, 0), (Reg.clkSrcStatFbReady, 0)]) fun s => s.dev.pins.sysRstN = false ∧
      Ops.rdB s.dev Reg.clkSrcStatRefReady = false ∧ Ops.rdB s.dev Reg.clkSrcStatFbReady = false) := by
  refine ⟨?_, ?_, ?_, ?_, ?_, ?_, ?_⟩ <;> decide +kernel

theorem meets_AonResetRestartsTheAonDomain :
    Dev.reset.pins.sysRstN = true ∧
    (At { gateAt 21 .pendOn [(Reg.topGateEn1En, 2 ^ 5)] with sgn := { Dev.reset.sgn with boot := 8190 } } fun s => Awake s ∧ s.dev.sgn.booted = false ∧
      s.dev.sgn.boot < 8191 ∧ Ops.gate s.dev 21 = .pendOn ∧ Ops.enBit s.dev 21 = true ∧ Ops.frozen s.dev = false ∧
      Ops.holding s.dev = false ∧ Ops.domOn s.dev 1 = true) := by
  decide +kernel

/-- A current epoch of this number with a default configuration. -/
def ep (n : Nat) : Epoch := { num := n, cfg := default, drain := none }

/-- A device in service: every gate ON and epoch 0 current. -/
def live (l : List (Fld × Nat)) : Dev := { on l with epochs := [ep 0] }

/-- A device in service whose graft engine holds a graft. -/
def grafting (g : Graft) (l : List (Fld × Nat)) : Dev := { live l with grf := { Dev.reset.grf with cur := some g } }

theorem meets_GraftsQueueAndStage :
    (At (on []) fun s => Awake s ∧ Arrives s.dev 64 0x00301010 true ∧ Ops.bit (1 : Word).toNat 0 = true ∧
      Ops.rdB s.dev (Ops.portF (Ops.copyNo 64) Reg.grfStatusBusy) = false ∧ s.dev.epochs = [] ∧ Ops.bit (0 : Word).toNat 0 = false) ∧
    (At (live []) fun s => Awake s ∧ Arrives s.dev 63 0x00301010 true ∧
      Ops.rdB s.dev (Ops.portF (Ops.copyNo 63) Reg.grfStatusBusy) = false ∧ s.dev.epochs ≠ []) ∧
    (At (on [(Ops.portF 0 Reg.grfStatusBusy, 1)]) fun s => Awake s ∧ Ops.rdB s.dev (Ops.portF (Ops.copyNo 0) Reg.grfStatusBusy) = true) ∧
    (At { live [] with grf := { Dev.reset.grf with queue := [63, 0] } } fun s => Awake s ∧ s.dev.grf.queue = 63 :: [0] ∧
      s.dev.grf.cur = none ∧ s.dev.flt.grafts = [] ∧ s.dev.epochs ≠ [] ∧ Ops.fltState s.dev ≠ 3 ∧ Ops.moving s.dev = true ∧
      Ops.groupMates s.dev = [] ∧ s.dev.mem.blk = [] ∧ ([] : Bytes).take 4 ≠ [0x41, 0x51, 0x47, 0x4C]) ∧
    (At (live [(Reg.fltStatState, 3)]) fun s => Awake s ∧ Ops.fltState s.dev = 3) ∧
    (let g := { (default : Graft) with fail := some (0x21, 0xFFFF, []) }
     At (grafting g []) fun s => Awake s ∧ s.dev.grf.cur = some g ∧ g.ready = false ∧ g.port < 64 ∧ g.group = false ∧
      g.fail = some (0x21, 0xFFFF, [])) ∧
    (At { grafting default [] with epochs := [ep 3, ep 2, ep 1, { ep 0 with drain := some 5 }] } fun s => Awake s ∧
      s.dev.grf.cur = some default ∧ (default : Graft).wait = false ∧ (default : Graft).ready = false ∧
      (Ops.epoch? s.dev (Ops.needed s.dev)).isSome = true) ∧
    (let g := { (default : Graft) with port := 63 }
     At (grafting g []) fun s => Awake s ∧ s.dev.grf.cur = some g ∧ g.ready = false ∧ g.group = false ∧ g.fail = none ∧
      Ops.epoch? s.dev (Ops.needed s.dev) = none ∧ s.dev.flt.grafts = []) := by
  refine ⟨?_, ?_, ?_, ?_, ?_, ?_, ?_, ?_⟩ <;> decide +kernel

/-- A graft that is READY and activates slot 255 in every pipe. -/
def activation : Graft := { (default : Graft) with ready := true, items := [.activate 255 255] }

theorem meets_CommitsBeginTheNextEpoch :
    (At { grafting activation [] with epochs := [ep 255] } fun s => Awake s ∧ s.dev.grf.cur = some activation ∧ activation.ready = true ∧
      activation.port < 64 ∧ activation.group = false ∧ activation.items = [.activate 255 255] ∧ s.dev.flt.grafts = [] ∧
      s.dev.epochs ≠ [] ∧ Ops.moving s.dev = true ∧ Ops.epoch? s.dev (Ops.needed s.dev) = none ∧ s.dev.grf.commitAt = none ∧
      Ops.pins s.dev (Ops.curNum s.dev) = 0) ∧
    (At { grafting activation [] with runs := [default] } fun s => Awake s ∧ Ops.pins s.dev (Ops.curNum s.dev) ≠ 0) ∧
    (At (live []) fun s => Awake s ∧ s.dev.grf.cur = none ∧ s.dev.flt.grafts = []) ∧
    (At (grafting activation [(Reg.lpeFreezeStatState, 2)]) fun s => Awake s ∧ Ops.moving s.dev = false) ∧
    (At (grafting default []) fun s => Awake s ∧ s.dev.grf.cur = some default ∧ (default : Graft).ready = false) ∧
    (At { grafting activation [] with epochs := [ep 3, { ep 0 with drain := some 5 }] } fun s => Awake s ∧
      (Ops.epoch? s.dev (Ops.needed s.dev)).isSome = true) := by
  refine ⟨?_, ?_, ?_, ?_, ?_, ?_⟩ <;> decide +kernel

/-- Epoch 0 drains until time `t` behind epoch 1. -/
def draining (t : Nat) (runs : List FlowRun) : Dev := { on [] with epochs := [ep 1, { ep 0 with drain := some t }], runs := runs }

theorem meets_EpochsRetireOrExpire :
    (At (draining 0 []) fun s => Awake s ∧ (Ops.epoch? s.dev 0).isSome = true ∧ s.dev.grf.cur = none ∧ s.dev.flt.grafts = [] ∧
      Ops.pins s.dev 0 = 0) ∧
    (At (draining 0 [default]) fun s => Awake s ∧ ((Ops.epoch? s.dev 0).map fun e => e.drain) = some (some 0) ∧ s.dev.grf.cur = none ∧
      s.dev.flt.grafts = [] ∧ 0 ≤ Ops.now s.dev ∧ Ops.pins s.dev 0 ≠ 0 ∧ Ops.moving s.dev = true) ∧
    (At (draining 1 [default]) fun s => Awake s ∧ ((Ops.epoch? s.dev 0).map fun e => e.drain) = some (some 1) ∧ Ops.now s.dev < 1) := by
  refine ⟨?_, ?_, ?_⟩ <;> decide +kernel

/-- Group membership: this device is member `me`, the master is `m`, members 0 to 2 live, every Trellis link ACTIVE. -/
def grouped (me m : Nat) (d : Dev) : Dev :=
  let d := put d ([(Reg.trlCfgEnable, 1), (Reg.trlStatMasterValid, 1), (Reg.trlStatId, me), (Reg.trlStatMaster, m), (Reg.trlStatLive, 7),
    (Reg.trlStatIsolated, 0), (Reg.trlRouteValid, 0xFF)] ++ (List.range 4).map fun k => (Reg.trlLinkStatState k, 4))
  { d with straps := { d.straps with trlId := me }, trl := { d.trl with
      members := (List.range 8).map fun k => (k, { seen := 0, eligible := true, epoch := 0, mask := 0xFF, isolated := false }) } }

theorem meets_GroupsCommitTogether :
    (At (live []) fun s => Awake s ∧ s.dev.flt.grafts = [] ∧ s.dev.grf.cur = none ∧ [0] ≠ ([] : Bytes) ∧ Ops.split s.dev = false) ∧
    (At (live [(Reg.grfGroupStatSplit, 1)]) fun s => Awake s ∧ s.dev.flt.grafts = [] ∧ s.dev.grf.cur = none ∧ Ops.split s.dev = true) ∧
    (let g := { (default : Graft) with group := true, ready := true }
     At (let d := grouped 0 0 (grafting g [])
         { d with grf := { d.grf with prepDl := some 0, mates := [1, 2], replies := [(2, 0)] } }) fun s => Awake s ∧
      s.dev.flt.grafts = [] ∧ s.dev.grf.cur = some g ∧ g.port < 64 ∧ g.group = true ∧ s.dev.grf.prepDl = some 0 ∧ 1 ∈ s.dev.grf.mates ∧
      Ops.relays s.dev = false ∧ g.ready = true ∧ Ops.epoch? s.dev (Ops.needed s.dev) = none ∧
      (∀ k ∈ s.dev.grf.mates, k ≠ 1 → Ops.find? s.dev.grf.replies k = some 0) ∧
      0 ≤ Ops.now s.dev ∧ (∃ k ∈ s.dev.grf.mates, Ops.find? s.dev.grf.replies k ≠ some 0)) ∧
    (let g := { (default : Graft) with group := true }
     At (let d := grouped 0 0 (grafting g [])
         { d with grf := { d.grf with prepDl := some 1, mates := [1], replies := [(1, 0)] } }) fun s => Awake s ∧ s.dev.flt.grafts = [] ∧
      s.dev.grf.cur = some g ∧ g.port < 64 ∧ g.group = true ∧ g.ready = false ∧ s.dev.grf.prepDl = some 1 ∧ 1 ∈ s.dev.grf.mates ∧
      Ops.relays s.dev = false ∧ Ops.now s.dev < 1 ∧ (∀ k ∈ s.dev.grf.mates, Ops.find? s.dev.grf.replies k = some 0)) ∧
    (let g := { (default : Graft) with port := 66 }
     At (let d := grafting g []
         { d with grf := { d.grf with partDl := some 0, acks := [1, 8], ackDl := some 0 } }) fun s => Awake s ∧ s.dev.grf.partDl = some 0 ∧
      s.dev.grf.commitAt = none ∧ s.dev.grf.cur = some g ∧ g.port = 66 ∧ s.dev.grf.ackDl = some 0 ∧ s.dev.grf.acks = 1 :: [8] ∧
      0 ≤ Ops.now s.dev ∧ Ops.relays s.dev = false ∧ 1 ∈ s.dev.grf.acks ∧ (∃ k ∈ s.dev.grf.acks, k ≠ 1) ∧ 2 ∉ s.dev.grf.acks) ∧
    (let g := { (default : Graft) with port := 66 }
     At (let d := grafting g []
         { d with grf := { d.grf with partDl := some 1, acks := [1], ackDl := some 1, commitAt := some 0 } }) fun s => Awake s ∧
      s.dev.grf.partDl = some 1 ∧ s.dev.grf.cur = some g ∧ g.port = 66 ∧ Ops.now s.dev < 1 ∧ s.dev.grf.ackDl = some 1 ∧
      s.dev.grf.commitAt.isSome = true ∧ Ops.relays s.dev = false ∧ 1 ∈ s.dev.grf.acks ∧ (∀ k ∈ s.dev.grf.acks, k = 1)) ∧
    (At (grafting default []) fun s => Awake s ∧ s.dev.grf.partDl = none ∧ s.dev.grf.cur = some default ∧ (default : Graft).port ≠ 66 ∧
      Ops.relays s.dev = false) := by
  refine ⟨?_, ?_, ?_, ?_, ?_, ?_, ?_⟩ <;> decide +kernel

theorem meets_FaultsMoveTheStateMachine :
    (At (live []) fun s => Awake s ∧ Ops.frozen s.dev = false ∧ Ops.fltState s.dev = 0 ∧ Ops.faultUnit 1 200 = false ∧
      Ops.faultUnit 7 0 = true ∧ Ops.domOn s.dev 7 = true ∧ Arrives s.dev 0 0x0140000C true ∧ Ops.bit (0 : Word).toNat 16 = false ∧
      Ops.bit (0x1000A : Word).toNat 16 = true ∧ Ops.bits (0x1000A : Word).toNat 0 5 = 10) ∧
    (At (domAt 7 .off []) fun s => Awake s ∧ Ops.frozen s.dev = false ∧ Ops.fltState s.dev = 0 ∧ Ops.faultPowered s.dev 6 0 = false) ∧
    (At (live []) fun s => Awake s ∧ Ops.faultPowered s.dev 1 31 = true ∧ Ops.unitFailed s.dev 0 31 = false ∧
      Ops.logicalOf s.dev 0 31 = some 31 ∧ (Ops.sparesUp s.dev 0).head?.isSome = true ∧ s.dev.grf.cur = none ∧ s.dev.flt.grafts = []) := by
  refine ⟨?_, ?_, ?_⟩ <;> decide +kernel

/-- A remap of logical engine 31 to spare 32, in service. -/
def remap (ready : Bool) (l : List (Fld × Nat)) : Dev :=
  { live l with flt := { Dev.reset.flt with
      grafts := [{ pool := some 0, logical := 31, phys := 31, spare := some 32, lost := none, t := 0, ready := ready, cls := 1 }] } }

theorem meets_RemapsAndHoldsEnd :
    (At (remap false [(Reg.fltStatState, 1)]) fun s => Awake s ∧ (s.dev.flt.grafts.map fun g => g.ready) = [false] ∧ Ops.groupMates s.dev = []) ∧
    (At (remap true [(Reg.fltStatState, 1)]) fun s => Awake s ∧ (s.dev.flt.grafts.map fun g => (g.ready, g.pool, g.spare, g.lost)) =
        [(true, some 0, some 32, none)] ∧ s.dev.grf.prepDl = none ∧ s.dev.grf.commitAt = none ∧ Ops.moving s.dev = true ∧
      s.dev.epochs ≠ [] ∧ Ops.fltState s.dev = 1 ∧ Ops.rd s.dev Reg.fltStatLost = 0 ∧ Ops.epoch? s.dev (Ops.needed s.dev) = none) ∧
    (∀ c ∈ [1, 8], At (live [(Reg.fltStatState, 3), (Reg.fltStatCause, c)]) fun s => Awake s ∧ Ops.fltState s.dev = 3 ∧
      Ops.rd s.dev Reg.fltStatCause ≠ 10) ∧
    (At (live [(Reg.fltStatState, 3), (Reg.fltStatCause, 10)]) fun s => Awake s ∧ Arrives s.dev 0 0x01400008 true ∧ Ops.fltState s.dev = 3 ∧
      Ops.rd s.dev Reg.fltStatCause = 10 ∧ Ops.rdB s.dev Reg.clkThermStatTrip = false ∧ s.dev.flt.before = 0) ∧
    (At (live [(Reg.fltStatState, 3), (Reg.fltStatCause, 10), (Reg.clkThermStatTrip, 1)]) fun s => Awake s ∧
      Ops.rdB s.dev Reg.clkThermStatTrip = true) := by
  refine ⟨?_, ?_, ?_, ?_, ?_⟩ <;> decide +kernel

/-- A device with a link in a state, at the time 10 ms. -/
def linkAt (k : LinkId) (st : Nat) (l : List (Fld × Nat)) : Dev :=
  { put (on []) (((Ops.linkRegs k).2.1, st) :: l) with tb := { Dev.reset.tb with t := 10000000 * 2 ^ 32 } }

theorem meets_LinksTrainAndPortsRise_links :
    (∀ k ∈ ([.stem, .trl 3, .clp 1] : List LinkId), ∀ st ∈ [0, 1, 2, 3, 4, 5], At (linkAt k st []) fun s => Awake s ∧
      Arrives s.dev 0 (Ops.linkCtlAddr k) true ∧ Ops.lState s.dev k = st ∧ Ops.fltFailed s.dev = false ∧ Ops.lSignal s.dev k = 0 ∧
      Ops.lSince s.dev k + 10000000 ≤ Ops.now s.dev ∧ Ops.linkGate s.dev k = true ∧ s.dev.stm.rsps = [] ∧ s.dev.stm.async = []) ∧
    (At { linkAt .stem 0 [(Reg.stmCtlEnable, 1)] with stm := { Dev.reset.stm with signal := 1 } } fun s => Awake s ∧ Ops.lState s.dev .stem = 0 ∧
      Ops.lEnabled s.dev .stem = true ∧ Ops.lSignal s.dev .stem ≠ 0 ∧ Ops.lanesOk s.dev .stem (Ops.lSignal s.dev .stem) = false ∧
      Ops.lanesOk s.dev .stem 65535 = true) ∧
    (∀ x ∈ [0, 1], At (linkAt .stem 1 [(Reg.stmCtlAllow8lane, x)]) fun s => Awake s ∧ Ops.lState s.dev .stem = 1 ∧
      Ops.rd s.dev Reg.stmCtlAllow8lane = x) ∧
    (At (linkAt .stem 3 []) fun s => Awake s ∧ Ops.lState s.dev .stem = 3 ∧ 16 = (if Ops.rdB s.dev Reg.stmStatLanes8 then 8 else 16) ∧
      Ops.rd s.dev Reg.stmWinCfgWindow = Ops.rd s.dev Reg.stmWinCfgWindow) ∧
    (At (linkAt (.clp 1) 3 []) fun s => Awake s ∧ Ops.linkNo (.clp 1) = some 5 ∧ (Ops.peerRegs (.clp 1)).isSome = true ∧
      Ops.lState s.dev (.clp 1) = 3) ∧
    (∀ x ∈ [0, 1], At (linkAt (.trl 0) 3 [(Reg.trlCfgEnable, x)]) fun s => Awake s ∧ Ops.linkNo (.trl 0) = some 0 ∧
      (Ops.peerRegs (.trl 0)).isSome = true ∧ Ops.lState s.dev (.trl 0) = 3 ∧ s.dev.straps.trlId = 0 ∧ Ops.rd s.dev Reg.trlCfgEnable = x ∧
      Ops.bit (Ops.rd s.dev Reg.trlStatLive) 1 = false) ∧
    (At (linkAt (.trl 0) 3 [(Reg.trlCfgEnable, 1), (Reg.trlStatLive, 2), (Reg.trlRouteValid, 2)]) fun s => Awake s ∧
      Ops.lState s.dev (.trl 0) = 3 ∧ Ops.bit (Ops.rd s.dev Reg.trlStatLive) 1 = true ∧ Ops.routeTo s.dev 1 = some 0) ∧
    (At { linkAt (.trl 0) 1 [] with tb := Dev.reset.tb } fun s => Awake s ∧ Ops.now s.dev < Ops.lSince s.dev (.trl 0) + 10000000) ∧
    (At { linkAt .stem 5 [] with stm := { Dev.reset.stm with rsps := [default] } } fun s => Awake s ∧ s.dev.stm.rsps ≠ []) := by
  refine ⟨?_, ?_, ?_, ?_, ?_, ?_, ?_, ?_, ?_⟩ <;> decide +kernel

theorem meets_LinksTrainAndPortsRise_ports :
    (∀ an ∈ [0, 1], ∀ lt ∈ [0, 1], At { live [(Reg.prtModeMode, 2), (Reg.prtPortCtlEnable 31, 1), (Reg.prtPortCtlAnEn 31, an), (Reg.prtPortCtlLtEn 31, lt)] with prt := { Dev.reset.prt with pipeOf := [(31, 0)] } }
      fun s => Awake s ∧ Ops.portMayRise s.dev 31 = true ∧ Ops.rd s.dev (Reg.prtPortCtlAnEn 31) = an ∧
        Ops.rd s.dev (Reg.prtPortCtlLtEn 31) = lt) ∧
    (At (on []) fun s => Awake s ∧ Ops.portMayRise s.dev 31 = false ∧ Arrives s.dev 0 (0x00400200 + 4 * 31) true ∧ Ops.frozen s.dev = false ∧
      Ops.fltState s.dev = 0) ∧
    (At (on [(Reg.prtLaneCtlRecalBusy 31, 1)]) fun s => Awake s ∧ Ops.rdB s.dev (Reg.prtLaneCtlRecalBusy 31) = true ∧
      Ops.frozen s.dev = false) := by
  refine ⟨?_, ?_, ?_⟩ <;> decide +kernel

/-- A flit whose header holds a type and further bits, with a good CRC. -/
def flit (ty more : Nat) : Bytes := Ops.flitBytes (ty + more) []

theorem meets_LinkFlitsAreNotLost :
    (∀ k ∈ ([.trl 0, .clp 1] : List LinkId), At (linkAt k 4 []) fun s => Awake s ∧ (Ops.linkNo k).any (fun l => Ops.linkState s.dev l == 4) = true ∧
      Ops.flitOk (flit 1 0) = true ∧ Ops.le (flit 1 0) 0 8 % 16 ≠ 3 ∧ Ops.le (flit 1 0) 0 8 % 16 ≠ 0 ∧
      Ops.slotFlit 8 (some (Ops.laneWords 8 (flit 1 0))) = some (flit 1 0) ∧ Ops.slotFlit 8 none = none ∧
      (Ops.linkNo k).any (fun l => Ops.linkCarries l 1) = true ∧ Ops.bits (Ops.le (flit 1 0) 0 8) 13 8 = (Ops.link s.dev 0).expSeq ∧
      Ops.bits (Ops.le (flit 1 (2 ^ 13)) 0 8) 13 8 ≠ (Ops.link s.dev 0).expSeq ∧ (Ops.link s.dev 0).wait = [] ∧
      (Ops.link s.dev 0).held.length ≤ 128) ∧
    (∀ x ∈ [0, 1], At (linkAt (.trl 3) 4 [(Reg.trlErrCfgRetrainThresh, x), (Reg.trlCfgEnable, x)]) fun s => Awake s ∧ Ops.linkState s.dev 3 = 4 ∧
      Ops.rd s.dev Reg.trlErrCfgRetrainThresh = x ∧ Ops.linkSends s.dev 3 = (x == 1)) ∧
    (∀ x ∈ [0, 1], At (linkAt (.clp 1) 4 [(Reg.clpErrCfgRetrainThresh, x)]) fun s => Awake s ∧ Ops.linkState s.dev 5 = 4 ∧
      Ops.rd s.dev Reg.clpErrCfgRetrainThresh = x ∧ Ops.linkSends s.dev 5 = true) ∧
    (At { linkAt (.trl 0) 4 [] with trl := { Dev.reset.trl with links := [(0, { (default : Link) with held := [(255, [])] })] } } fun s => Awake s ∧
      (Ops.link s.dev 0).held = (255, []) :: [] ∧ (Ops.link s.dev 0).wait = [] ∧ Ops.bits (Ops.le (flit 1 (255 * 2 ^ 21)) 0 8) 21 8 = 255) ∧
    (At (on []) fun s => Awake s ∧ Ops.linkNo (.clp 0) = some 4 ∧ Ops.linkState s.dev 4 ≠ 4) := by
  refine ⟨?_, ?_, ?_, ?_, ?_⟩ <;> decide +kernel

/-- The Stem link ACTIVE. -/
def stemUp (m : Stm) (l : List (Fld × Nat)) : Dev := { live ((Reg.stmStatState, 4) :: l) with stm := m }

/-- A unit of a Stem request. -/
def stemUnit : UnitRec := Ops.newUnit (.stem 9 0 false) 0 (List.replicate 64 0) 64 0 0 0

theorem meets_StemRequestsAreAnsweredInTheirSlot_requests :
    let hdr := fun (len : Nat) => flit 1 (2 ^ 4 + 2 ^ 5 + len * 2 ^ 26)
    (∀ n ∈ [8, 16], (flit 1 0).length = 80 ∧ Ops.slotFlit n (some (Ops.laneWords n (flit 1 0))) = some (flit 1 0) ∧
      Ops.slotFlit n (some (Ops.laneWords n (List.replicate 80 1))) = some (List.replicate 80 1) ∧ Ops.slotFlit n none = none) ∧
    (At (on []) fun s => Awake s ∧ Ops.stmActive s.dev = false) ∧
    (At (stemUp { Dev.reset.stm with expSeq := some 255 } [(Reg.stmErrCfgRetrainThresh, 0)]) fun s => Awake s ∧ Ops.stmActive s.dev = true ∧
      Ops.flitOk (List.replicate 80 1) = false ∧ Ops.rd s.dev Reg.stmErrCfgRetrainThresh = 0 ∧ Ops.flitOk (flit 0 0) = true ∧
      Ops.stmLanes s.dev = 16 ∧ s.dev.stm.expSeq = some 255 ∧ Ops.le (flit 0 0) 0 8 % 16 = 0 ∧ (Ops.bits (Ops.le (flit 0 0) 0 8) 42 8 + 256 - 255) % 256 ≠ 0 ∧
      (Ops.bits (Ops.le (flit 0 (255 * 2 ^ 42)) 0 8) 42 8 + 256 - 255) % 256 = 0 ∧ s.dev.stm.fifo = []) ∧
    (At (stemUp { Dev.reset.stm with cred := 1 } [(Reg.stmPipesMask, 0x80)]) fun s => Awake s ∧ Ops.stmActive s.dev = true ∧ s.dev.stm.expSeq = none ∧
      s.dev.stm.opened = none ∧ s.dev.stm.credRet = 0 ∧ 0 < s.dev.stm.cred ∧ Ops.rd s.dev Reg.stmPipesMask ≠ 0 ∧ 0 < Ops.ctxFree s.dev ∧
      (∀ n ∈ [0, 1, 64, 65], Ops.flitOk (hdr n) = true ∧ Ops.le (hdr n) 0 8 % 16 = 1 ∧ Ops.bit (Ops.le (hdr n) 0 8) 4 = true ∧
        Ops.bit (Ops.le (hdr n) 0 8) 5 = true ∧ Ops.bits (Ops.le (hdr n) 0 8) 26 10 = n)) ∧
    (At { stemUp { Dev.reset.stm with fifo := [1] } [(Reg.stmPipesMask, 0x80)] with units := [(1, stemUnit)] } fun s => Awake s ∧
      Ops.stmActive s.dev = true ∧ s.dev.stm.fifo = 1 :: [] ∧ Ops.nextPipe s.dev = some 7 ∧ (Ops.unit? s.dev 1).isSome = true) := by
  decide +kernel

theorem meets_StemRequestsAreAnsweredInTheirSlot_responses :
    let done : UnitRec := { stemUnit with stage := .done, verdict := some default }
    (At (stemUp { Dev.reset.stm with rsps := [{ (default : StemRsp) with due := 1 }] } []) fun s => Awake s ∧ s.dev.stm.slot < 1) ∧
    (At (stemUp { Dev.reset.stm with rsps := [default] } []) fun s => Awake s ∧ Ops.stmActive s.dev = true ∧ s.dev.stm.rsps = default :: [] ∧
      (default : StemRsp).discard = false ∧ (default : StemRsp).due ≤ s.dev.stm.slot ∧ (default : StemRsp).unit = none) ∧
    (At { stemUp { Dev.reset.stm with rsps := [{ (default : StemRsp) with unit := some 1 }] } [] with units := [(1, done)] } fun s => Awake s ∧
      Ops.stmActive s.dev = true ∧ Ops.unit? s.dev 1 = some done ∧ done.stage = .done ∧ done.verdict = some default) ∧
    (∀ off ∈ [true, false], At { stemUp { Dev.reset.stm with async := [⟨1, 9, 0, off⟩] } [] with units := [(1, done)] } fun s => Awake s ∧
      s.dev.stm.async = ⟨1, 9, 0, off⟩ :: [] ∧ Ops.unit? s.dev 1 = some done ∧ done.stage = .done ∧ done.verdict = some default ∧
      done.tenant < 64 ∧ Ops.stmFree s.dev = true ∧ s.dev.stm.naks = [] ∧ 0 ≤ Ops.now s.dev) ∧
    (At { stemUp { Dev.reset.stm with async := [⟨1, 9, 1, false⟩], naks := [[]] } [] with units := [(1, done)] } fun s => Awake s ∧
      s.dev.stm.async = ⟨1, 9, 1, false⟩ :: [] ∧ Ops.unit? s.dev 1 = some done ∧ s.dev.stm.naks ≠ [] ∧
      (∀ a ∈ s.dev.stm.async, Ops.now s.dev < a.limit)) ∧
    (At (stemUp Dev.reset.stm [(Reg.stmWinMinMin, 30)]) fun s => Awake s ∧ Arrives s.dev 0 0x00500010 true ∧ Ops.tenantOf 0 = 0 ∧
      Ops.tenantOf 63 ≠ 0 ∧ (19 : Word).toNat % 128 < 20 ∧ 100 < (101 : Word).toNat % 128 ∧
      (29 : Word).toNat % 128 < Ops.rd s.dev Reg.stmWinMinMin ∧ 20 ≤ (100 : Word).toNat % 128 ∧ (100 : Word).toNat % 128 ≤ 100 ∧
      Ops.rd s.dev Reg.stmWinMinMin ≤ (30 : Word).toNat % 128) ∧
    (At { stemUp Dev.reset.stm [] with shadow := [(Reg.stmWinCfgWindow.key, 127)] } fun s => Awake s ∧
      Ops.find? s.dev.shadow Reg.stmWinCfgWindow.key = some 127 ∧ 127 < 128 ∧ Ops.stmFree s.dev = true ∧ Ops.stmQuiet s.dev = true) := by
  refine ⟨?_, ?_, ?_, ?_, ?_, ?_, ?_⟩ <;> decide +kernel

theorem meets_TheGroupElectsItsMaster :
    (At (on []) fun s => Awake s ∧ Ops.inGroup s.dev = false) ∧
    (At (grouped 1 0 (live [])) fun s => Awake s ∧ Ops.inGroup s.dev = true ∧ Ops.moving s.dev = true ∧ Ops.linkState s.dev 3 = 4 ∧
      (Ops.link s.dev 3).wait = [] ∧ (Ops.link s.dev 3).held.length < 128 ∧ 7 ≠ s.dev.straps.trlId ∧ Ops.isLive s.dev 7 = false ∧
      Ops.rdB s.dev Reg.trlStatMasterValid = true ∧ Ops.isMaster s.dev = false ∧ Ops.isLive s.dev 2 = true ∧
      Ops.now s.dev < (Ops.memberOf s.dev 2).seen + 5000 ∧ s.dev.trl.t1 = none) ∧
    (At { grouped 1 0 (live []) with tb := { Dev.reset.tb with t := 10000 * 2 ^ 32 } } fun s => Awake s ∧ Ops.isLive s.dev 2 = true ∧
      (Ops.memberOf s.dev 2).seen + 5000 ≤ Ops.now s.dev) ∧
    (∀ t ∈ [9999, 10000], At (let d := grouped 1 0 (live [])
        { put d [(Reg.trlStatMasterValid, 0)] with trl := { d.trl with cand := some 0 }, tb := { d.tb with t := t * 2 ^ 32 } }) fun s => Awake s ∧
      Ops.inGroup s.dev = true ∧ Ops.computedMaster s.dev = some 0 ∧ s.dev.trl.cand = some 0 ∧ Ops.rdB s.dev Reg.trlStatMasterValid = false ∧
      Ops.now s.dev = t) ∧
    (At (grouped 0 0 (live [])) fun s => Awake s ∧ Ops.isMaster s.dev = true ∧ (Ops.routeTo s.dev 7).any (fun l => l < 4) = true) ∧
    (At (let d := grouped 1 0 (live []); { d with trl := { d.trl with t1 := some 0 } }) fun s => Awake s ∧ s.dev.trl.t1 = some 0 ∧
      Ops.inGroup s.dev = true) := by
  refine ⟨?_, ?_, ?_, ?_, ?_, ?_⟩ <;> decide +kernel

/-- Slot 0 holds a model that scores by its ensemble. -/
def scoring (d : Dev) : Dev :=
  { d with epochs := [{ ep 0 with cfg := { (default : EpochCfg) with
      models := [(0, { (default : Model) with ens := some { (default : Ensemble) with k := 2 } })] } }] }

/-- Every pipe reserves a recirculation cycle. -/
def looped (d : Dev) : Dev := { d with cfg := { d.cfg with device := List.replicate 256 1 } }

/-- The fields that say device memory is served. -/
def served : List (Fld × Nat) := [(Reg.memStatSramInit, 1), (Reg.memStatHbmInit, 1)]

/-- A flow entry of tenant 0 for a key. -/
def entry (key : Bytes) : FlowEnt := { (default : FlowEnt) with key := key, valid := true, state := Ops.zeros 64 }

/-- The device with the entry of the key of 40 zero bytes where the table would place it. -/
def withEntry (d : Dev) : Dev :=
  match Ops.place d (Ops.zeros 40) with
  | .inl i => { d with flw := { d.flw with ents := [(i, entry (Ops.zeros 40))] } }
  | .inr _ => d

theorem meets_HopsAndSteeringActOnTheirUnits :
    (At (grouped 1 0 (live [])) fun s => Awake s ∧ Ops.inGroup s.dev = true ∧ Ops.moving s.dev = true ∧
      (∀ p : Fin 8, Ops.recircK s.dev p.val = 0) ∧ Ops.find? s.dev.trl.away (2 ^ 18 - 1) = none ∧ Ops.gateOn s.dev 7 = true ∧
      Ops.isMaster s.dev = false ∧ Arrives s.dev 0 0x01200050 true ∧ NoneDue s.dev ∧ Ops.lookup s.dev (Ops.slice [] 0 40) = none) ∧
    (At (looped (grouped 1 0 (live []))) fun s => Awake s ∧ (∀ p : Fin 8, Ops.recircK s.dev p.val ≠ 0) ∧ 0 < Ops.ctxFree s.dev ∧
      Ops.inGroup s.dev = true ∧ Ops.moving s.dev = true ∧
      (Ops.epoch? s.dev (Ops.hopOf []).epoch).isSome = true ∧ (Ops.hopOf []).steer = false) ∧
    (let deep : UnitRec := { stemUnit with hopped := true }
     ∀ r ∈ [stemUnit, deep], At (let d := grouped 1 0 (scoring (live []))
        { d with units := [(1, r)], trl := { d.trl with away := [(2 ^ 18 - 1, 1)] } }) fun s => Awake s ∧ Ops.inGroup s.dev = true ∧
      Ops.find? s.dev.trl.away (2 ^ 18 - 1) = some 1 ∧ Ops.unit? s.dev 1 = some r ∧ (r = stemUnit → r.hopped = false) ∧
      (r = deep → r.hopped = true ∧ Ops.bit (Ops.verdictOf []).flags 1 = false ∧
        (Ops.unitModel s.dev r).any (fun m => m.ens.isSome && m.slotSec.scoreSrc == 0) = true)) ∧
    (At (grouped 0 0 (live [])) fun s => Awake s ∧ Ops.isMaster s.dev = true ∧ 65535 < 2 ^ 20 ∧
      Ops.bit (Ops.getD s.dev.trl.steer 65535 0) 3 = false) ∧
    (At (let d := grouped 0 0 (live []); { d with trl := { d.trl with steer := [(65535, 8)] } }) fun s => Awake s ∧
      Ops.bit (Ops.getD s.dev.trl.steer 65535 0) 3 = true) ∧
    (At (withEntry (grouped 1 0 (live served))) fun s => Awake s ∧ Ops.inGroup s.dev = true ∧ Ops.gateOn s.dev 7 = true ∧ NoneDue s.dev ∧
      Ops.standby s.dev = false ∧ ∃ i, Ops.lookup s.dev (Ops.slice (Ops.zeros 48) 0 40) = some i ∧ (Ops.ent? s.dev i).isSome = true ∧
        EntLands s.dev i) := by
  refine ⟨?_, ?_, ?_, ?_, ?_, ?_⟩ <;> decide +kernel

/-- A device of a pair in this state of CLP, with its partner's latest HEARTBEAT at time 0. -/
def clasped (st : Nat) (l : List (Fld × Nat)) : Dev :=
  let d := live ((Reg.clpStatState, st) :: (Reg.clpLinkStatState 0, 4) :: l)
  { d with clp := { d.clp with hb := some 0 }, tb := { d.tb with t := 5000 * 2 ^ 32 } }

theorem meets_PairsMirrorJoinAndTakeOver_loss :
    (At Dev.reset fun s => Awake s ∧ Ops.gateOn s.dev 19 = false ∧ Ops.clpPaired s.dev = false ∧ Ops.clpState s.dev ≠ 3) ∧
    (At (clasped 2 []) fun s => Awake s ∧ Ops.gateOn s.dev 19 = true ∧ Ops.moving s.dev = true ∧ Ops.linkState s.dev 4 = 4 ∧
      (Ops.link s.dev 4).wait = [] ∧ (Ops.link s.dev 4).held.length < 128) ∧
    (∀ auto ∈ [0, 1], At (clasped 2 [(Reg.clpCfgAuto, auto)]) fun s => Awake s ∧ Ops.gateOn s.dev 19 = true ∧ Ops.clpPaired s.dev = true ∧
      Ops.rdB s.dev Reg.clpStatPartnerLost = false ∧ Ops.rd s.dev Reg.clpCfgAuto = auto ∧ s.dev.clp.hb = some 0 ∧ 0 + 5000 ≤ Ops.now s.dev) ∧
    (At { clasped 2 [] with tb := { Dev.reset.tb with t := 4999 * 2 ^ 32 } } fun s => Awake s ∧ s.dev.clp.hb = some 0 ∧ Ops.now s.dev < 0 + 5000) ∧
    (At (clasped 2 [(Reg.clpStatPartnerLost, 1)]) fun s => Awake s ∧ Arrives s.dev 0 0x01300008 true ∧ Ops.clpPaired s.dev = true ∧
      Ops.rdB s.dev Reg.clpStatPartnerLost = true) ∧
    (At (clasped 3 []) fun s => Awake s ∧ Ops.clpState s.dev = 3 ∧ s.dev.grf.partDl = none) ∧
    (At (let d := clasped 3 []; { d with grf := { d.grf with partDl := some 0 } }) fun s => Awake s ∧ s.dev.grf.partDl.isSome = true) := by
  refine ⟨?_, ?_, ?_, ?_, ?_, ?_, ?_⟩ <;> decide +kernel

/-- A device that joins, or the survivor, of a pair. -/
def joining (surv : Bool) (st sync : Nat) : Dev :=
  let d := withEntry (clasped st [(Reg.clpCfgMode, 0)])
  { d with clp := { d.clp with join := some (surv, 7), sync := sync } }

theorem meets_PairsMirrorJoinAndTakeOver_mirror :
    (∀ x ∈ [some (Ops.zeros 144), none], At (let d := clasped 2 []; { d with clp := { d.clp with dirty := [{ idx := 0, data := x, t := 0 }] } }) fun s =>
      Awake s ∧ (Ops.clpLink s.dev).isSome = true ∧ Ops.gateOn s.dev 19 = true ∧ Ops.fltState s.dev ≠ 4 ∧ s.dev.clp.dirty = [{ idx := 0, data := x, t := 0 }]) ∧
    (At (clasped 2 served) fun s => Awake s ∧ s.dev.clp.dirty = [] ∧ Ops.gateOn s.dev 19 = true ∧ Ops.clpPaired s.dev = true ∧
      NoneDue s.dev ∧ EntLands s.dev 0 ∧ (Ops.entOfBytes (Ops.zeros 128)).valid = false) ∧
    (At { clasped 2 served with tb := { Dev.reset.tb with t := 20001 * 2 ^ 32 } } fun s => Awake s ∧ Ops.gateOn s.dev 19 = true ∧
      Ops.clpPaired s.dev = true ∧ NoneDue s.dev ∧ EntLands s.dev 5 ∧ 20000 < Ops.now s.dev - 0 ∧
      (Ops.entOfBytes (Ops.entBytes (entry (Ops.zeros 40)))).valid = true) ∧
    (At (clasped 2 [(Reg.fltStatState, 4)]) fun s => Awake s ∧ Ops.fltState s.dev = 4) ∧
    (At (clasped 0 []) fun s => Awake s ∧ Arrives s.dev 0 0x01300008 true ∧ Ops.clpState s.dev = 0 ∧ (Ops.clpLink s.dev).isSome = true ∧
      Ops.joinFits s.dev ⟨Ops.rd s.dev Reg.topIdPart, Ops.rd s.dev Reg.clpCfgMode, Ops.rd s.dev Reg.flwCfgBucketLog2, 0,
        List.replicate 32 0, 0, false, 0, true⟩ = true ∧
      Ops.joinFits s.dev ⟨0, 1, 0, 0, [], 0, true, 0, true⟩ = false) ∧
    (∀ surv ∈ [true, false], At (joining surv 0 0) fun s => Awake s ∧ s.dev.clp.join = some (surv, 7) ∧ Ops.clpPaired s.dev = false ∧
      Ops.moving s.dev = true ∧
      s.dev.epochs ≠ []) ∧
    (∀ surv ∈ [true, false], At (let d := joining surv 1 0; { d with clp := { d.clp with sync := (d.flw.ents.map fun p => p.1 / 4).headD 0 } })
      fun s => Awake s ∧ (∃ w < 4, (Ops.ent? s.dev (4 * s.dev.clp.sync + w)).isSome = true) ∧ s.dev.clp.join = some (surv, 7) ∧ Ops.clpState s.dev = 1 ∧
      s.dev.clp.sync < Ops.buckets s.dev + 4096 ∧ Ops.rdB s.dev Reg.clpCfgMode = false) ∧
    (At (joining true 1 (2 ^ 24 + 4096)) fun s => Awake s ∧ Ops.clpState s.dev = 1 ∧ Ops.buckets s.dev + 4096 ≤ s.dev.clp.sync ∧
      s.dev.clp.dirty = []) := by
  refine ⟨?_, ?_, ?_, ?_, ?_, ?_, ?_, ?_⟩ <;> decide +kernel

/-- Memory is initialised, in service. -/
def serving (l : List (Fld × Nat)) : Dev := live ([(Reg.memStatSramInit, 1), (Reg.memStatHbmInit, 1)] ++ l)

/-- A descriptor: source and destination addresses, AUX, LEN, OP, FLAGS, parameters. -/
def desc (src dst aux len op flags p0 p1 : Nat) : Desc :=
  let head := Ops.leBytes 8 src ++ Ops.leBytes 8 dst ++ Ops.leBytes 8 aux ++ Ops.leBytes 2 len ++ Ops.leBytes 1 op ++ Ops.leBytes 1 flags
  { (default : Desc) with raw := head ++ Ops.leBytes 4 p0 ++ Ops.leBytes 4 p1 ++ Ops.zeros 28 }

/-- Channel `c` of KIND `k` in RUN, owned by the PF, with this much in flight and all of SRAM as its window. -/
def channel (c k : Nat) (ch : Chan) (l : List (Fld × Nat)) : Dev :=
  { serving ([(Reg.dmaChStatState c, 1), (Reg.dmaChOwnerKind c, k), (Reg.dmaChOwnerOwner c, 0), (Reg.dmaChDwinSizeSize c, 0x20000)] ++ l) with
    chans := [(c, ch)] }

/-- A channel with one descriptor in flight. -/
def flying (x : Desc) : Chan := { (default : Chan) with flight := [x] }

theorem meets_ChannelsFollowTheirControl :
    (∀ st ∈ [0, 1, 2, 3], At (serving [(Reg.dmaChStatState 4095, st)]) fun s => Awake s ∧ Arrives s.dev 0 (Ops.chAddr 4095 0x14) true ∧
      Ops.chState s.dev 4095 = st) ∧
    (At (serving [(Reg.dmaChTailTail 4095, 1), (Reg.dmaChOwnerOwner 4095, 63)]) fun s => Awake s ∧
      Arrives s.dev 63 (Ops.chAddr 4095 0x0C) true ∧ Ops.reachesChan s.dev 63 4095 = true ∧ Ops.reachesChan s.dev 62 4095 = false ∧
      Ops.rd s.dev (Reg.dmaChOwnerOwner 4095) ≠ 64 ∧
      (let n := Ops.ringSize s.dev 4095
       let fill := fun t => (t % n + n - Ops.rd s.dev (Reg.dmaChHeadHead 4095) % n) % n
       fill 1 = fill (Ops.rd s.dev (Reg.dmaChTailTail 4095)) ∧ fill 0 ≠ fill (Ops.rd s.dev (Reg.dmaChTailTail 4095)))) ∧
    (At (let d := running default [(Reg.dmaChOwnerOwner 0, 64)]; d) fun s => Awake s ∧ Ops.coreRuns s.dev (0 : CoreNo) = true ∧
      Ops.gateOn s.dev 16 = true ∧ Ops.rd s.dev (Reg.dmaChOwnerOwner 0) = 64) := by
  refine ⟨?_, ?_, ?_⟩ <;> decide +kernel

/-- The descriptor starts and nothing refuses it. -/
abbrev Goes (c : Nat) (x : Desc) (s : State) : Prop := Awake s ∧ Starts s.dev c 0 x.op x ∧ Admitted s.dev c 0 x

theorem meets_DescriptorsMoveTheirData :
    (At (channel 0 0 (flying (desc 0 64 0 64 1 12 0 0)) []) fun s => Goes 0 (desc 0 64 0 64 1 12 0 0) s ∧ PlainMem s.dev 0 64 ∧
      (∀ id ∈ [2, 3, 4, 9], Ops.meets s.dev id 0 64 = false) ∧ PlainMem s.dev 64 64) ∧
    (∀ x ∈ [desc 0 0 0 16 3 0 0 0, desc 0 0 0 16 1 0 0 0, desc 0 0 0 1 4 0 1 5, desc 0 0 0 1 0 0 0 0, desc 0 0 0 8 2 0 1 1],
      At (channel 0 0 (flying x) []) fun s => Goes 0 x s ∧ x.srcDev = false ∧ x.auxDev = false ∧ x.dstDev = false ∧ x.len ≤ 16) ∧
    (∀ i ∈ [0, 1], let x := desc 0 0 0 8 2 0 1 1
      (∀ j, j < x.count → Ops.le (Ops.leBytes 4 i) (4 * j) 4 < x.srcCount) ∨ x.srcCount ≤ Ops.le (Ops.leBytes 4 i) 0 4) ∧
    (At (channel 0 2 (flying (desc 0 0 0 32 7 0 0 0)) []) fun s => Goes 0 (desc 0 0 0 32 7 0 0 0) s) ∧
    (At (channel 0 3 (flying (desc 0 0 0 128 8 0 0 0)) []) fun s => Goes 0 (desc 0 0 0 128 8 0 0 0) s) ∧
    (∀ op ∈ [0, 1, 2, 3, 4, 5, 6, 7, 8], let x := desc 0 0 0 64 op 0x80 0 0
      At (channel 0 0 (flying x) []) fun s => Awake s ∧ Starts s.dev 0 0 op x ∧
        Ops.descRefused (Ops.descStart s.dev 0 0) 0 x = some 2) ∧
    (∀ n ∈ [0, 1], At (channel 0 0 (flying (desc 0 0 0 16 1 0 0 0)) [(Reg.dmaRetryCount, n)]) fun s => Goes 0 (desc 0 0 0 16 1 0 0 0) s ∧
      Ops.rd s.dev Reg.dmaRetryCount = n) := by
  refine ⟨?_, ?_, ?_, ?_, ?_, ?_, ?_⟩ <;> decide +kernel

/-- A model with one ensemble of one feature and two classes, in every slot's place 0. -/
def ensModel : Model := { (default : Model) with ens := some { (default : Ensemble) with k := 2, feats := [0], refitEn := true } }

/-- A device whose slot 0 holds a model. -/
def modelled (m : Model) (d : Dev) : Dev :=
  { d with epochs := [{ num := 0, cfg := { (default : EpochCfg) with models := [(0, m)], active := [(0, 0xFF)] }, drain := none }] }

/-- A core whose claimed task is of class `k`, with ARG0 = 1. -/
def claiming (k src : Nat) : Core :=
  { (default : Core) with image := true, claimed := some ({ (default : Task) with cls := k, src := src, arg0 := 1 }, 0) }

theorem meets_DescriptorsCompleteInOrder :
    (At (channel 0 0 default [(Reg.dmaChTailTail 0, 1)]) fun s => Awake s ∧ Ops.dmaRuns s.dev = true ∧ Ops.chState s.dev 0 = 1 ∧
      (Ops.chan s.dev 0).pausing = false ∧ (Ops.chan s.dev 0).waiting = false ∧ (Ops.chan s.dev 0).flight.length < 4 ∧
      Ops.takesWork s.dev 0 = true ∧ (∀ x ∈ (Ops.chan s.dev 0).flight, x.status = none) ∧
      (Ops.chan s.dev 0).fetch ≠ Ops.rd s.dev (Reg.dmaChTailTail 0) % Ops.ringSize s.dev 0 ∧ Ops.rdB s.dev (Reg.dmaChRingCfgDev 0) = false ∧
      (Ops.zeros 64).length = 64) ∧
    (At (on []) fun s => Awake s ∧ Ops.chState s.dev 0 ≠ 1) ∧
    (At (channel 0 0 { (default : Chan) with flight := List.replicate 4 default } []) fun s => Awake s ∧ 4 ≤ (Ops.chan s.dev 0).flight.length) ∧
    (∀ st ∈ [0, 4, 6, 255], let x := { desc 0 0 0 1 0 0 0 0 with status := some st, done := 3 }
      At (channel 0 0 (flying x) []) fun s => Awake s ∧ Ops.dmaRuns s.dev = true ∧ Ops.chState s.dev 0 = 1 ∧
        (Ops.chan s.dev 0).flight = x :: [] ∧ x.status = some st ∧ x.verd = none ∧ x.ctx = none ∧ x.outb = [] ∧ x.posted = false ∧
        x.waiting = false ∧ st < 256 ∧ (Ops.chan s.dev 0).pausing = false ∧ Ops.rdB s.dev (Reg.dmaChRingCfgDev 0) = false ∧
        Ops.rd s.dev (Reg.dmaChOwnerOwner 0) < 128) ∧
    (∀ n ∈ [0, 1], At (channel 0 0 { (default : Chan) with waiting := true, tries := n } [(Reg.dmaRetryCount, 1)]) fun s => Awake s ∧
      Ops.dmaRuns s.dev = true ∧ Ops.chState s.dev 0 = 1 ∧ (Ops.chan s.dev 0).waiting = true ∧ (Ops.chan s.dev 0).tries = n ∧
      Ops.rd s.dev Reg.dmaRetryCount = 1) ∧
    (At (modelled ensModel (channel 0 1 (flying (desc 0 0 0 260 5 0 0 0)) [])) fun s => Goes 0 (desc 0 0 0 260 5 0 0 0) s ∧
      (desc 0 0 0 260 5 0 0 0).ctx = none ∧ Ops.gateOn s.dev 13 = true) ∧
    (At (let x := { desc 0 0 0 260 5 0 0 0 with ctx := some 1 };
         { modelled ensModel (channel 0 1 (flying x) []) with units := [(1, { stemUnit with kind := .job 0, hasCtx := true })] }) fun s =>
      Goes 0 { desc 0 0 0 260 5 0 0 0 with ctx := some 1 } s ∧ (Ops.unit? s.dev 1).any (fun r => !r.expired) = true ∧
      Ops.gateOn s.dev 13 = true ∧ (desc 0 0 0 260 5 0 0 0).srcDev = false) ∧
    (At (let x := { desc 0 0 0 0 6 0 0x3F00 1 with ctx := some 1 };
         { modelled ensModel (channel 0 1 (flying x) []) with units := [(1, { stemUnit with kind := .job 0, hasCtx := true })] }) fun s =>
      Goes 0 { desc 0 0 0 0 6 0 0x3F00 1 with ctx := some 1 } s ∧ (Ops.unit? s.dev 1).any (fun r => !r.expired && !r.failed) = true ∧
      (Ops.replayEns s.dev { desc 0 0 0 0 6 0 0x3F00 1 with ctx := some 1 }).any (fun e => e.link != 4 && decide (0 < e.k)) = true ∧
      (desc 0 0 0 0 6 0 0x3F00 1).auxDev = false ∧ Ops.gateOn s.dev 10 = true ∧ (desc 0 0 0 0 6 0 0x3F00 1).srcDev = false) ∧
    (At { running (claiming 0 0) [] with units := [(1, stemUnit)] } fun s => Awake s ∧ (Ops.core s.dev 0).claimed.isSome = true ∧
      (Ops.unit? s.dev 1).isSome = true ∧ Ops.ringChan s.dev 0 3 = none) ∧
    (At (let x := { desc 0 0 0 128 8 0 0 0 with posted := true };
         { channel 0 3 (flying x) [(Reg.sprCoreStatState 0, 1)] with
            units := [(1, stemUnit)], spr := { Dev.reset.spr with cores := [(0, claiming 0 0)] } }) fun s => Awake s ∧
      (Ops.core s.dev 0).claimed.isSome = true ∧ Ops.gateOn s.dev 16 = true ∧ Ops.ringChan s.dev stemUnit.tenant 3 = some 0 ∧
      ((Ops.chan s.dev 0).flight.map fun x => (x.posted, x.status, x.dstDev, decide (128 ≤ x.len))) = [(true, none, false, true)]) := by
  refine ⟨?_, ?_, ?_, ?_, ?_, ?_, ?_, ?_, ?_, ?_⟩ <;> decide +kernel

theorem meets_Bar2ReachesDeviceMemory :
    (At (serving [(Reg.memBar2WinBlock, 1)]) fun s => Awake s ∧ s.dev.hif.perst = false ∧ ([7] : Bytes) ≠ [] ∧ 0x1FFFFFFFF + 1 ≤ 0x1000000000 ∧
      0x1FFFFFFFF + 1 ≤ 0xF00000000 ∧ Ops.bar2Fail s.dev 0x1FFFFFFFF 1 = none ∧ PlainMem s.dev (Ops.bar2Addr s.dev 0x1FFFFFFFF) 1 ∧
      (∀ id ∈ [2, 3, 4, 9], Ops.meets s.dev id (Ops.bar2Addr s.dev 0x1FFFFFFFF) 1 = false) ∧ Ops.bar2Fail s.dev 0xFFFFFFFFF 1 = none ∧
      0xF00000000 ≤ 0xFFFFFFFFF ∧ 0xFFFFFFFFF + 1 ≤ 0x1000000000 ∧ (Ops.bar2Fail s.dev 0x200000000 1) = none) ∧
    (At (live []) fun s => Awake s ∧ (Ops.bar2Fail s.dev 0 1).isSome = true) ∧
    (At (serving [(Reg.memStatDiesLive, 0)]) fun s => Awake s ∧ s.dev.mem.blk = [] ∧ Ops.bar2Fail s.dev 0 1 = none ∧
      Ops.unitGone s.dev (Ops.unitAt s.dev (Ops.bar2Addr s.dev 0)) = true) := by
  refine ⟨?_, ?_, ?_⟩ <;> decide +kernel

theorem meets_MemoryUnitsStartAndFail :
    (At (on []) fun s => Awake s ∧ Ops.gateOn s.dev 15 = true ∧ Ops.rdB s.dev Reg.memStatSramInit = false) ∧
    (At Dev.reset fun s => Awake s ∧ Ops.gateOn s.dev 15 = false ∧ Ops.scrubs s.dev 0 = false) ∧
    (At (on [(Reg.memStatSramInit, 1)]) fun s => Awake s ∧ Ops.gateOn s.dev 15 = true ∧ Ops.rdB s.dev Reg.memStatSramInit = true ∧
      Ops.rdB s.dev Reg.memStatHbmInit = false ∧ Ops.bit 8 3 = true) ∧
    (∀ u ∈ [0, 3, 4, 7], At (serving [(Reg.memScrubCfgEnable, 1)]) fun s => Awake s ∧ Ops.scrubs s.dev u = true ∧ s.dev.mem.blk = []) ∧
    (∀ col ∈ [true, false], ∀ u ∈ [0, 3, 4], (col = true → u < 4) → ∀ free ∈ [0, 1], At (let d := serving [(Reg.memRepairFreeRows 3, free), (Reg.memRepairFreeCols 3, free)]
        { d with mem := { d.mem with repairs := [⟨u, col, 5⟩] } }) fun s => Awake s ∧ Ops.gateOn s.dev 15 = true ∧ Ops.moving s.dev = true ∧
      Ops.unitGone s.dev u = false ∧ s.dev.mem.repairs.find? (fun r => r.unit == u && r.col == col) = some ⟨u, col, 5⟩ ∧ s.dev.mem.blk = [] ∧
      (u = 3 → Ops.rd s.dev (Reg.memRepairFreeRows u) = free ∧ Ops.rd s.dev (Reg.memRepairFreeCols u) = free)) ∧
    (At (serving []) fun s => Awake s ∧ s.dev.mem.repairs.find? (fun r => r.unit == 7 && r.col == false) = none) ∧
    (∀ u ∈ [3, 4], let code := if u < 4 then u else 0x10 + u % 4
      At { serving [] with mem := { Dev.reset.mem with layouts := [⟨code, 0, []⟩] } } fun s => Awake s ∧ Ops.unitGone s.dev u = false ∧
        Ops.frozen s.dev = false ∧ Ops.fltState s.dev = 0 ∧ (Ops.layoutFor s.dev code).isSome = true ∧ Ops.lostBesides s.dev code = false) := by
  refine ⟨?_, ?_, ?_, ?_, ?_, ?_, ?_⟩ <;> decide +kernel

theorem meets_MemoryKeepsItsForm :
    (∀ c ∈ ([.bar2Write 0 [1], .bar2Read 0 1, .scrubVisit 0, .sramInit, .hbmInit 0, .copy 0 none 0, .pack 0 none 0, .transpose 0 none 0,
        .gather 0 none none 0, .descriptorComplete 0, .sysRstAssert false] : List Instr), runs c (serving []) = true) ∧
    (∀ x : Fin 2, Memory.wf (serving []).mem.cells = true ∧ x.val < 2) := by
  refine ⟨?_, ?_⟩ <;> decide +kernel

theorem meets_TasksReachTheirCores_tasks :
    (∀ k ∈ [2, 3, 6, 7], At (on [(Reg.sprTaskPostWord 0, k)]) fun s => Awake s ∧ Arrives s.dev 0 0x00C0091C true ∧
      Ops.rd s.dev (Reg.sprTaskPostWord 0) % 256 = k ∧ (Ops.taskQueue s.dev k).length < 1024) ∧
    (At (let d := on [(Reg.sprTaskPostWord 0, 6)]; { d with spr := { d.spr with queues := [(6, List.replicate 1024 default)] } }) fun s => Awake s ∧
      1024 ≤ (Ops.taskQueue s.dev 6).length) ∧
    (At (let d := running { (default : Core) with image := true, classes := 0x20 } [(Reg.sprClassMaskCores 10, 1)];
         { d with spr := { d.spr with queues := [(5, [{ (default : Task) with cls := 5 }])] } }) fun s => Awake s ∧
      Ops.taskQueue s.dev 5 = { (default : Task) with cls := 5 } :: [] ∧ Ops.gateOn s.dev 12 = true ∧ Ops.orderedClass 5 = true ∧
      Ops.classBusy s.dev 5 = false ∧ Ops.eligible s.dev 5 0 = true ∧ Ops.coreState s.dev 0 = 1 ∧ Ops.coreIdle (Ops.core s.dev 0) = true ∧
      Ops.taskQueue s.dev 7 = []) ∧
    (At (running { (default : Core) with given := some default } []) fun s => Awake s ∧ Ops.coreRuns s.dev 0 = true ∧
      (Ops.core s.dev 0).claimed = none ∧ (Ops.core s.dev 0).given = some default) ∧
    (At (running default []) fun s => Awake s ∧ Ops.coreRuns s.dev 0 = true ∧ (Ops.core s.dev 0).claimed = none ∧
      (Ops.core s.dev 0).given = none) ∧
    (At (running (claiming 6 5) []) fun s => Awake s ∧ Ops.frozen s.dev = false ∧ Ops.coreRuns s.dev 0 = true ∧
      ((Ops.core s.dev 0).claimed.map fun p => (p.1.cls, p.1.src)) = some (6, 5) ∧ (Ops.core s.dev 0).given = none ∧ s.dev.grf.cur = none ∧
      Ops.now s.dev ≤ 0 + Ops.rd s.dev Reg.sprWdogLimit * 1000) ∧
    (At { running (claiming 6 5) [(Reg.sprWdogLimit, 1)] with tb := { Dev.reset.tb with t := 1001 * 2 ^ 32 } } fun s => Awake s ∧
      0 + Ops.rd s.dev Reg.sprWdogLimit * 1000 < Ops.now s.dev) ∧
    (At Dev.reset fun s => Awake s ∧ Ops.coreRuns s.dev 63 = false ∧ Ops.coreUp s.dev 63 = false) := by
  refine ⟨?_, ?_, ?_, ?_, ?_, ?_, ?_, ?_⟩ <;> decide +kernel

theorem meets_TasksReachTheirCores_cores :
    (∀ st ∈ [0, 1, 2, 3, 4], At (on [(Reg.sprCoreStatState 63, st)]) fun s => Awake s ∧ Arrives s.dev 0 (0x00C00400 + 4 * 63) true ∧
      Ops.coreState s.dev 63 = st) ∧
    (At { on [(Reg.sprCoreStatState 0, 3)] with spr := { Dev.reset.spr with cores := [(0, { (default : Core) with image := true })] } } fun s =>
      Awake s ∧ Ops.coreState s.dev 0 = 3 ∧ (Ops.core s.dev 0).image = true) ∧
    (∀ b ∈ [0, 1], At (on [(Reg.sprFwStatBusy, b)]) fun s => Awake s ∧ Arrives s.dev 0 0x00C00810 true ∧ Ops.rd s.dev Reg.sprFwStatBusy = b ∧
      s.dev.spr.load = none) ∧
    (∀ ue ∈ [[], [(1, (⟨[], [0]⟩ : BlkErr))]], At (let d := serving [(Reg.sprFwStatBusy, 1)]
        { d with spr := { d.spr with load := some (0, 1) }, mem := { d.mem with blk := ue } }) fun s => Awake s ∧
      s.dev.spr.load = some (0, 1) ∧ (let h := Ops.memRead s.dev 0 64
        let x := Ops.memRead h.1 0 (64 + Ops.le h.2.1 16 4 % 2 ^ 21 + 96)
        x.2.2 = !ue.isEmpty ∧ x.2.1.take 4 ≠ [0x53, 0x50, 0x52, 0x46])) ∧
    (∀ x ∈ [none, some 5], At (running { (default : Core) with h2c := x, c2h := x } []) fun s => Awake s ∧ Ops.coreRuns s.dev 0 = true ∧
      (Ops.core s.dev 0).c2h = x ∧ (Ops.core s.dev 0).h2c = x ∧ Arrives s.dev 0 (0x00C02004 + 16 * 0) true ∧
      Arrives s.dev 0 (0x00C0200C + 16 * 0) false) := by
  refine ⟨?_, ?_, ?_, ?_, ?_⟩ <;> decide +kernel

/-- A label of slot 0 that names the leaf-path record of event time 0. -/
def label (t : Nat) : Label := { tenant := 0, fwd := false, raw := Ops.zeros 32, t := t }

/-- A leaf-path record of slot 0 and event time 0. -/
def leafRec (used : Bool) (id : Nat) : LeafRec := { (default : LeafRec) with used := used, structId := id }

/-- A device with one label queued and one leaf-path record outstanding. -/
def labelled (r : LeafRec) (t : Nat) : Dev := { modelled ensModel (live []) with labels := [label t], leafRecs := [r] }

theorem meets_LabelsReachTheirRecords :
    (At (live [(Reg.cfgTenantMdlLabelEn 0, 1)]) fun s => Awake s ∧ (Ops.zeros 32).length = 32 ∧ Ops.labelZeros (Ops.zeros 32) = true ∧
      Ops.ownsSlot s.dev 0 (Ops.le (Ops.zeros 32) 8 1) = true ∧ Ops.rdB s.dev (Reg.cfgTenantMdlLabelEn 0) = true ∧
      s.dev.labels.length < 65536 ∧ Ops.rdB s.dev (Reg.cfgTenantMdlLabelEn 63) = false ∧ Ops.inGroup s.dev = false) ∧
    (At (labelled (leafRec false 1) 0) fun s => Awake s ∧ s.dev.labels = label 0 :: [] ∧ Ops.bit (Ops.le (label 0).raw 9 1) 2 = false ∧
      (label 0).fwd = false ∧ 0 < (leafRec false 1).evT + Ops.lpsHorizon s.dev ∧ (leafRec false 1).used = false ∧
      Ops.find? (Ops.curCfg s.dev).models (Ops.le (label 0).raw 8 1) = some ensModel ∧ (ensModel.ens.map fun e => e.structId) = some 0) ∧
    (At (labelled (leafRec true 0) 0) fun s => Awake s ∧ Ops.firstIdx (fun (r : LeafRec) => decide (r.evT = 0)) s.dev.leafRecs = some 0) ∧
    (At (let d := labelled (leafRec false 0) 0; { d with labels := [label (Ops.lpsHorizon d)] }) fun s => Awake s ∧
      (leafRec false 0).evT + Ops.lpsHorizon s.dev ≤ Ops.lpsHorizon s.dev ∧ (leafRec false 0).structId = 0) ∧
    (At { live [] with labels := [label 0] } fun s => Awake s ∧ s.dev.labels = label 0 :: [] ∧ s.dev.leafRecs = []) ∧
    (At (let d := labelled (leafRec false 0) 0; { d with tb := { d.tb with t := Ops.lpsHorizon d * 2 ^ 32 } }) fun s => Awake s ∧
      ¬Ops.now s.dev < (leafRec false 0).evT + Ops.lpsHorizon s.dev ∧
      (let r := leafRec false 0; Ops.labelWaits s.dev false r.evT r.tag r.src r.slot r.pass = true)) ∧
    (At (grouped 1 0 (live [])) fun s => Awake s ∧ s.dev.labels.length < 65536 ∧ Ops.inGroup s.dev = true) ∧
    (At (live []) fun s => Awake s ∧ s.dev.labels = [] ∧ Arrives s.dev 63 0x00A00200 true ∧ Arrives s.dev 63 0x00B00200 true ∧
      Ops.rdB s.dev (Ops.bankReg 0 (Ops.copyNo 63)).1 = false ∧ Ops.rdB s.dev (Ops.bankReg 1 (Ops.copyNo 63)).1 = false ∧
      Ops.refitPart s.dev 0 1 = none) ∧
    (At { modelled ensModel (live []) with banks := [(0, ⟨0x1000, 64, false⟩)] } fun s => Awake s ∧ Arrives s.dev 0 0x00A00200 true ∧
      Ops.rdB s.dev (Ops.bankReg 0 (Ops.copyNo 0)).1 = false ∧ (Ops.refitPart s.dev 0 0).isSome = true ∧ Ops.ownsSlot s.dev 0 0 = true ∧
      Ops.polOn s.dev 0 = false ∧ Ops.bank? s.dev 0 0 = some ⟨0x1000, 64, false⟩) := by
  refine ⟨?_, ?_, ?_, ?_, ?_, ?_, ?_, ?_, ?_⟩ <;> decide +kernel

/-- A device whose slot 0 has an enabled refit policy in this state. -/
def policy (st : Nat) (l : List (Fld × Nat)) : Dev :=
  put { modelled ensModel (serving []) with banks := [(0, ⟨0x1000, 64, false⟩)], refit := [(0, default)] }
    ([(Reg.cfgRefitPolEnable 0, 1), (Reg.cfgRefitPolTarget 0, 0), (Reg.cfgRefitPolInterval 0, 0), (Reg.cfgRefitStatState 0, st)] ++ l)

theorem meets_PoliciesAndRunsAdvance :
    (∀ n ∈ [0, 1], At (policy 0 [(Reg.cfgRefitLimMinLabels 0, n)]) fun s => Awake s ∧ Ops.polOn s.dev 0 = true ∧
      (Ops.refitOf s.dev 0).since + Ops.rd s.dev (Reg.cfgRefitPolInterval 0) * 1000000 ≤ Ops.now s.dev ∧ Ops.polState s.dev 0 = 0 ∧
      Ops.activeBank s.dev 0 (Ops.polPart s.dev 0) ≠ none ∧ Ops.refitPart s.dev 0 (Ops.polPart s.dev 0) ≠ none ∧ Ops.polPart s.dev 0 < 2 ∧
      (Ops.polLabels s.dev 0).2 = 0 ∧ Ops.rd s.dev (Reg.cfgRefitLimMinLabels 0) = n ∧ Ops.gateOn s.dev 12 = true ∧
      (Ops.taskQueue s.dev (3 + Ops.polPart s.dev 0)).length < 1024) ∧
    (∀ st ∈ [1, 2, 3], At (policy st []) fun s => Awake s ∧ Ops.polState s.dev 0 = st ∧ (Ops.refitOf s.dev 0).queued = false ∧
      Arrives s.dev 0 0x00205C00 true ∧ Ops.ownsSlot s.dev 0 0 = true ∧ Ops.ownsSlot s.dev 63 0 = false) ∧
    (At (policy 0 [(Reg.cfgRefitPolInterval 0, 1)]) fun s => Awake s ∧
      Ops.now s.dev < (Ops.refitOf s.dev 0).since + Ops.rd s.dev (Reg.cfgRefitPolInterval 0) * 1000000) ∧
    (At (live []) fun s => Awake s ∧ Ops.polOn s.dev 255 = false ∧ Ops.firstIdx (·.ready) s.dev.runQueue = none) ∧
    (At { live [] with runQueue := [{ (default : FlowRun) with ready := true }] } fun s => Awake s ∧ Ops.moving s.dev = true ∧
      Ops.hbmUp s.dev = true ∧ Ops.skeleton s.dev = false ∧ Ops.fltFailed s.dev = false ∧
      Ops.firstIdx (·.ready) s.dev.runQueue = some 0 ∧ 0 < Ops.ctxFree s.dev) ∧
    (At { live [] with runs := [default] } fun s => Awake s ∧ Ops.moving s.dev = true ∧ Ops.hbmUp s.dev = true ∧
      Ops.firstIdx (fun q => q.link.isNone) s.dev.runs = some 0 ∧ s.dev.runs[0]? = some default ∧ Ops.modelOf s.dev 0 0 = none) ∧
    (At (live [(Reg.memStatStacksLive, 1)]) fun s => Awake s ∧ Ops.hbmUp s.dev = false) ∧
    (At (live [(Reg.cfgTenantMdlSlotMax 63, 1), (Reg.cfgTenantMdlSlotMax 62, 0)]) fun s => Awake s ∧ Arrives s.dev 0 (0x00204000 + 4 * 255) true ∧ Ops.slotState s.dev 255 = 0 ∧
      Ops.bit (0x7F : Word).toNat 6 = true ∧ Ops.slotsOf s.dev 63 < Ops.rd s.dev (Reg.cfgTenantMdlSlotMax 63) ∧
      Ops.rd s.dev (Reg.cfgTenantMdlSlotMax 62) ≤ Ops.slotsOf s.dev 62) ∧
    (At (modelled default (live [])) fun s => Awake s ∧ Ops.slotState s.dev 0 ≠ 0) := by
  refine ⟨?_, ?_, ?_, ?_, ?_, ?_, ?_, ?_, ?_⟩ <;> decide +kernel

/-- The flow table holds one entry, at index 0. -/
def oneEntry (e : FlowEnt) (l : List (Fld × Nat)) : Dev := let d := live l; { d with flw := { d.flw with ents := [(0, e)] } }

/-- A flow model of one ensemble: its link, its trees and where the score comes from. -/
def runModel (link src : Nat) (ts : List Tree) : Model :=
  { (default : Model) with
    slotSec := { (default : SlotSec) with scoreSrc := src, passes := [{ ens := true, turn := false, first := 0, last := if src = 0 then 0xFF else 0 }] }
    ens := some { (default : Ensemble) with k := 2, link := link, resultTensor := 0xFF, trees := ts }
    tensors := [{ (default : TensorDesc) with src := 2 }]
    layers := [{ (default : Layer) with final := true, featA := [0], kA := 1, n := 2, inB := 0xFF }] }

/-- A run of that model in service, its feature 0 a NaN, the entry of flow entry 0 valid. -/
def running1 (m : Model) (l : List (Fld × Nat)) : Dev :=
  { modelled m (oneEntry (entry (Ops.zeros 40)) (served ++ l)) with runs := [{ (default : FlowRun) with feats := [(0, 0x7FC00000)] }] }

/-- What the run's pass has computed. -/
def ran (d : Dev) (m : Model) : Ops.Work :=
  Ops.passStart d m 0 0 (m.slotSec.passes.getD 0 default) [(0, 0x7FC00000)] ⟨Ops.zeros 64, false⟩ [] false []

theorem meets_PoliciesAndRunsAdvance_runs :
    (∀ x ∈ [(0, 0, true), (0, 1, true), (4, 0, false), (1, 0, false), (0, 0, false), (0, 1, false)],
      let m := runModel x.1 x.2.1 (if x.2.2 then [default] else [])
      At (running1 m []) fun s => Awake s ∧ Ops.moving s.dev = true ∧ Ops.hbmUp s.dev = true ∧
        Ops.firstIdx (fun q => q.link.isNone) s.dev.runs = some 0 ∧ Ops.modelOf s.dev 0 0 = some m ∧ (ran s.dev m).broken = x.2.2) ∧
    (∀ g ∈ [GateSt.on, .off], At (let d := running1 (runModel 4 0 []) []; { d with clk := { d.clk with gate := d.clk.gate.set 12 g } }) fun s => Awake s ∧
      Ops.moving s.dev = true ∧ Ops.hbmUp s.dev = true ∧ Ops.gateOn s.dev 12 = (g == .on) ∧ (Ops.taskQueue s.dev 1).length < 1024) ∧
    (∀ g ∈ [0, 1], ∀ role ∈ [1, 2], let m := runModel 1 0 []
      At (let d := running1 m [(Reg.clpStatRole, role)]; { d with flw := { d.flw with gen := [(0, g)] } }) fun s => NoneDue s.dev ∧
        EntLands s.dev 0 ∧ (Ops.ent? s.dev 0).isSome = true ∧ Ops.genOf s.dev 0 = g ∧ Ops.standby s.dev = (role == 2) ∧
        (match Ops.passRes m (ran s.dev m) with | .score _ _ => true | _ => false) = true) ∧
    (let m := runModel 0 1 []; Ops.passRes m (ran (running1 m []) m) = .nan) ∧
    (let m := runModel 0 0 []; Ops.passRes m (ran (running1 m []) m) = .none) := by
  refine ⟨?_, ?_, ?_, ?_, ?_⟩ <;> decide +kernel

theorem meets_FlowCommandsFollowTheirOp :
    (At (serving []) fun s => Awake s ∧ Arrives s.dev 0 0x00700100 true ∧ NoneDue s.dev ∧ Ops.standby s.dev = false ∧
      (∀ core ∈ [true, false], Ops.cmdKey s.dev core = Ops.zeros 40) ∧
      (let x := Ops.readBucket s.dev (Ops.bucketOf s.dev (Ops.zeros 40))
       Ops.lookup x (Ops.zeros 40) = none ∧ ∃ i ∈ (match Ops.place x (Ops.zeros 40) with | .inl i => [i] | .inr _ => []), EntLands x i) ∧
      Ops.portRd s.dev false (Reg.flwCmdKeyWord 0) < Ops.buckets s.dev ∧ s.dev.mem.blk = [] ∧ (∀ w, w < 4 → EntLands s.dev (4 * 0 + w))) ∧
    (∀ n ∈ [1, 2], At (withEntry (serving [(Reg.flwLogCfgEntries, n)])) fun s => Awake s ∧ Arrives s.dev 0 0x00700100 true ∧ NoneDue s.dev ∧
      Ops.standby s.dev = false ∧ (let x := Ops.readBucket s.dev (Ops.bucketOf s.dev (Ops.zeros 40))
       (Ops.lookup x (Ops.zeros 40)).any (fun i => (Ops.ent? x i).isSome && decide (EntLands x i)) = true ∧
         ((Ops.rd x Reg.flwLogWrIndex + 1) % Ops.rd x Reg.flwLogCfgEntries = Ops.rd x Reg.flwLogRdIndex ↔ n = 1) ∧
         PlainMem x ((Ops.region x 5).1 + 64 * Ops.rd x Reg.flwLogWrIndex) 64)) ∧
    (At (serving [(Reg.clpStatRole, 2)]) fun s => Awake s ∧ Arrives s.dev 0 0x00700100 true ∧ NoneDue s.dev ∧ Ops.standby s.dev = true) ∧
    (At (let d := serving []; { d with flw := { d.flw with ueHold := [Ops.bucketOf d (Ops.zeros 40)] } }) fun s => Awake s ∧ NoneDue s.dev ∧
      (let x := Ops.readBucket s.dev (Ops.bucketOf s.dev (Ops.zeros 40))
       Ops.lookup x (Ops.zeros 40) = none ∧ Ops.bucketOf s.dev (Ops.zeros 40) ∈ x.flw.ueHold ∧
         (match Ops.place x (Ops.zeros 40) with | .inl _ => none | .inr r => some r) = some 5)) ∧
    (At (live [(Reg.flwCmdKeyWord 0, 0xFFFFFFFF)]) fun s => Awake s ∧ Arrives s.dev 0 0x00700100 true ∧ NoneDue s.dev ∧
      Ops.buckets s.dev ≤ Ops.portRd s.dev false (Reg.flwCmdKeyWord 0)) := by
  refine ⟨?_, ?_, ?_, ?_, ?_⟩ <;> decide +kernel

theorem meets_ScansAgeAndCompare :
    (At (live [(Reg.flwScanCfgEnable, 0), (Reg.flwShadowCtlEnable, 0)]) fun s => Awake s ∧ Ops.rdB s.dev Reg.flwScanCfgEnable = false ∧
      Ops.rdB s.dev Reg.flwShadowCtlEnable = false ∧ Arrives s.dev 0 0x00700040 true) ∧
    (At (live [(Reg.clpStatRole, 2)]) fun s => Awake s ∧ Ops.standby s.dev = true) ∧
    (∀ na ∈ [true, false], At { oneEntry { entry (Ops.zeros 40) with noAge := na } (served ++ [(Reg.flwScanCfgEnable, 1), (Reg.flwAgeCfgTimeout, 1)]) with
        tb := { Dev.reset.tb with t := 10 ^ 9 * 2 ^ 32 } } fun s => Awake s ∧ Ops.rdB s.dev Reg.flwScanCfgEnable = true ∧ Ops.standby s.dev = false ∧
      NoneDue s.dev ∧ s.dev.flw.scanPos = 0 ∧ (let x := Ops.readBucket s.dev 0
        x.mem.blk = [] ∧ (∀ w, w < 4 → EntLands x (4 * 0 + w)) ∧ (Ops.ent? x 0).isSome = true ∧
        (1000 * Ops.rd x Reg.flwAgeCfgTimeout : Int) ≤ ((Ops.frontier x : Int) - Ops.origin x - 0) % (2 ^ 48 : Int))) ∧
    (At (oneEntry (entry (Ops.zeros 40)) (served ++ [(Reg.flwShadowCtlEnable, 1)])) fun s => Awake s ∧ Ops.rdB s.dev Reg.flwShadowCtlEnable = true ∧
      s.dev.flw.walkPos = 0 ∧ (let x := Ops.readBucket s.dev 0
       let b := Ops.leBytes 8 0 ++ Ops.leBytes 4 (Ops.digest x 0)
       ¬(2 ^ 31 : Int) ≤ ((Ops.le b 0 8 % 2 ^ 32 : Nat) - ((Ops.getD x.flw.lastChange 0 0 : Nat) : Int)) % (2 ^ 32 : Int) ∧
         Ops.le b 8 4 = Ops.digest x 0 ∧ Ops.le (Ops.zeros 12) 8 4 ≠ Ops.digest x 0 ∧
         (2 ^ 31 : Int) ≤ ((Ops.le (Ops.leBytes 8 (2 ^ 31)) 0 8 % 2 ^ 32 : Nat) - ((Ops.getD x.flw.lastChange 0 0 : Nat) : Int)) % (2 ^ 32 : Int))) := by
  refine ⟨?_, ?_, ?_, ?_⟩ <;> decide +kernel

/-- Port 7 belongs to pipe 0 and its link is up; the packet buffer has `cells` cells. -/
def wire (cells : Nat) (l : List (Fld × Nat)) : Dev :=
  let d := live ((Reg.prtPortStatLinkUp 7, 1) :: l)
  { d with prt := { d.prt with pipeOf := [(7, 0)] }, tmg := { d.tmg with cells := cells } }

/-- A frame of `n` bytes without its FCS, with this EtherType and operation. -/
def frame (n ty op : Nat) : Bytes := Ops.zeros 12 ++ Ops.beBytes 2 ty ++ Ops.beBytes 2 op ++ Ops.zeros (n - 16)

/-- A packet of port 7. -/
def packet (stage : Stage) : UnitRec := { Ops.newUnit (.inline 7) 0 (frame 60 0x800 0) 60 7 7 0 with stage := stage }

/-- A device with unit 1. -/
def holdingUnit (r : UnitRec) (d : Dev) : Dev := { d with units := [(1, r)] }

theorem meets_FramesArriveAtTheirPort :
    (At (on []) fun s => Awake s ∧ Ops.portPipe s.dev 0 = none) ∧
    (At (wire 1 [(Reg.prtPortCtlMtu 7, 1518)]) fun s => Awake s ∧ Ops.portPipe s.dev 7 = some 0 ∧ Ops.moving s.dev = true ∧
      Ops.gateOn s.dev 4 = true ∧ Ops.portUp s.dev 7 = true ∧ Ops.fltFailed s.dev = false ∧ (frame 59 0x800 0).length + 4 < 64 ∧
      64 ≤ (frame 60 0x800 0).length + 4 ∧ (frame 1514 0x800 0).length + 4 ≤ Ops.rd s.dev (Reg.prtPortCtlMtu 7) ∧
      Ops.rd s.dev (Reg.prtPortCtlMtu 7) < (frame 1515 0x800 0).length + 4 ∧ Ops.cdiv (frame 256 0x800 0).length 256 ≤ Ops.cellsFree s.dev ∧
      Ops.cellsFree s.dev < Ops.cdiv (frame 257 0x800 0).length 256 ∧ Ops.beNat (Ops.slice (frame 60 0x8808 0x101) 12 2) = 0x8808 ∧
      Ops.beNat (Ops.slice (frame 60 0x8808 0x101) 14 2) = 0x101 ∧ Ops.beNat (Ops.slice (frame 60 0x8808 1) 14 2) = 1) ∧
    (At (holdingUnit (packet .arrived) (live [])) fun s => Awake s ∧ Ops.unit? s.dev 1 = some (packet .arrived) ∧
      (packet .arrived).kind = .inline 7 ∧ (packet .arrived).fcs = none) ∧
    (At (holdingUnit stemUnit (live [])) fun s => Awake s ∧ Ops.unit? s.dev 1 = some stemUnit ∧ (∀ n < 64, stemUnit.kind ≠ .inline n)) := by
  refine ⟨?_, ?_, ?_, ?_⟩ <;> decide +kernel

/-- A model whose flow profile is 0, in a pipe whose graph learns. -/
def flowModelled (learn : Bool) (d : Dev) : Dev :=
  let cfg := { (default : EpochCfg) with models := [(0, default)], graphs := [{ (default : Graph) with fprofs := [⟨[], learn⟩] }] }
  { d with epochs := [{ num := 0, cfg := cfg, drain := none }] }

/-- A device whose 262,144 contexts are all in use. -/
def crowded (d : Dev) : Dev := { d with runs := List.replicate 262144 default }

theorem crowded_ctxFree (d : Dev) : Ops.ctxFree (crowded d) = 0 := by
  simp only [Ops.ctxFree, Ops.ctxUsed, Ops.ctxTotal, crowded, List.length_replicate]; omega

theorem meets_clauses_of_full_contexts :
    (At (crowded { live [] with runQueue := [{ (default : FlowRun) with ready := true }] }) fun s => Awake s ∧ Ops.moving s.dev = true ∧
      Ops.firstIdx (·.ready) s.dev.runQueue = some 0 ∧ Ops.ctxFree s.dev = 0) ∧
    (At (crowded { live [] with units := [(1, packet .arrived)] }) fun s => Awake s ∧ Ops.unit? s.dev 1 = some (packet .arrived) ∧
      (packet .arrived).stage = .arrived ∧ Ops.moving s.dev = true ∧ Ops.gateOn s.dev 6 = true ∧ s.dev.epochs ≠ [] ∧ 1 ∉ s.dev.stm.fifo ∧
      Ops.ctxFree s.dev = 0) :=
  ⟨⟨by
  refine ⟨?_, ?_⟩ <;> decide +kernel, by decide +kernel, by decide +kernel, crowded_ctxFree _⟩, by decide +kernel, by decide +kernel, by decide +kernel,
    by decide +kernel, by decide +kernel, by decide +kernel, by decide +kernel, crowded_ctxFree _⟩

theorem meets_clause_of_full_label_queue :
    At { live [] with labels := List.replicate 65536 (label 0) } fun s => Awake s ∧ 65536 ≤ s.dev.labels.length :=
  ⟨by decide +kernel, by simp only [List.length_replicate]; omega⟩

/-- The flow key of a packet of port 7 there. -/
def keyHere (learn : Bool) : Bytes := let d := flowModelled learn (live [])
  Ops.flowKey (Ops.graphOf d (packet .parsed)) 0 0 (packet .parsed).parse

/-- No lookup that is due comes before unit `r`'s. -/
abbrev First (d : Dev) (r : UnitRec) : Prop :=
  ∀ p ∈ d.units, Ops.lookupDue d p.2 = true → Ops.lexLt (Ops.bankKey p.2) (Ops.bankKey r) = false

theorem meets_UnitsWalkTheirPass_parse_and_lookup :
    (At (holdingUnit (packet .arrived) (live [])) fun s => Awake s ∧ 0 < Ops.ctxFree s.dev ∧ Ops.unit? s.dev 1 = some (packet .arrived) ∧
      (packet .arrived).stage = .arrived ∧ Ops.moving s.dev = true ∧ Ops.gateOn s.dev 6 = true ∧ s.dev.epochs ≠ [] ∧ 1 ∉ s.dev.stm.fifo) ∧
    (At (holdingUnit stemUnit (live [])) fun s => Awake s ∧ Ops.unit? s.dev 1 = some stemUnit ∧ stemUnit.stage = .arrived ∧
      1 ∉ s.dev.stm.fifo ∧ stemUnit.kind = .stem 9 0 false) ∧
    (let r := { packet .parsed with release := 1 }
     At (holdingUnit r (live [])) fun s => Awake s ∧ Ops.unit? s.dev 1 = some r ∧ Ops.now s.dev < r.release) ∧
    (let r := { packet .parsed with pipe := 1 }
     At { live [] with units := [(1, r), (2, packet .parsed)] } fun s => Awake s ∧ Ops.unit? s.dev 1 = some r ∧ ¬First s.dev r) ∧
    (At (holdingUnit (packet .parsed) (live [])) fun s => Awake s ∧ (packet .parsed).stage = .parsed ∧ (packet .parsed).pass = 0 ∧
      Ops.moving s.dev = true ∧ Ops.gateOn s.dev 7 = true ∧ (packet .parsed).release ≤ Ops.now s.dev ∧ First s.dev (packet .parsed) ∧
      Ops.modelOf s.dev 0 0 = none) ∧
    (∀ l ∈ [true, false], At (holdingUnit (packet .parsed) (flowModelled l (serving []))) fun s => Awake s ∧ Ops.modelOf s.dev 0 0 = some default ∧
      First s.dev (packet .parsed) ∧ Ops.gateOn s.dev 7 = true ∧
      (default : Model).flowProfile ≠ 15 ∧ (packet .parsed).skel = false ∧ (packet .parsed).expired = false ∧
      Ops.steers s.dev (packet .parsed) = false ∧ (∀ w, w < 4 → EntLands s.dev (4 * Ops.bucketOf s.dev (keyHere l) + w)) ∧
      Ops.lookup s.dev (keyHere l) = none ∧ Ops.standby s.dev = false ∧
      ((Ops.graphOf s.dev (packet .parsed)).fprofs.getD 0 default).learn = l ∧
      ∃ i ∈ (match Ops.place s.dev (keyHere l) with | .inl i => [i] | .inr _ => []), EntLands s.dev i) ∧
    (∀ st ∈ [0, 3], ∀ role ∈ [1, 2], At (let d := holdingUnit (packet .parsed) (flowModelled true (serving [(Reg.clpStatRole, role)]))
         match Ops.place d (keyHere true) with
         | .inl i => { d with flw := { d.flw with ents := [(i, { entry (keyHere true) with cstate := st })] } }
         | .inr _ => d) fun s => Awake s ∧ (Ops.lookup s.dev (keyHere true)).any (fun i => (Ops.ent? s.dev i).isSome && decide (EntLands s.dev i)) = true ∧
      (∀ w, w < 4 → EntLands s.dev (4 * Ops.bucketOf s.dev (keyHere true) + w)) ∧ First s.dev (packet .parsed) ∧
      Ops.steers s.dev (packet .parsed) = false ∧ Ops.standby s.dev = (role == 2)) ∧
    (At (let d := grouped 1 0 (holdingUnit (packet .parsed) (flowModelled true (live [(Reg.trlCfgSteerPipes, 1)])))
         { d with trl := { d.trl with steer := [(Ops.steerIdx d (keyHere true), 8)] } }) fun s => Awake s ∧
      Ops.steers s.dev (packet .parsed) = true ∧ First s.dev (packet .parsed) ∧ Ops.moving s.dev = true ∧ Ops.gateOn s.dev 7 = true ∧
      Ops.bit (Ops.getD s.dev.trl.steer (Ops.steerIdx s.dev (keyHere true)) 0) 3 = true ∧
      Ops.getD s.dev.trl.steer (Ops.steerIdx s.dev (keyHere true)) 0 % 8 ≠ Ops.ownId s.dev) := by
  refine ⟨?_, ?_, ?_, ?_, ?_, ?_, ?_, ?_⟩ <;> decide +kernel

theorem meets_UnitsWalkTheirPass_features :
    (∀ d ∈ [live [(Reg.feaWinCfgOffset, 0)], flowModelled true (live [(Reg.feaWinCfgOffset, 0)])],
      ∀ late ∈ [true, false], let r := { packet .looked with orderLate := late }
      At (holdingUnit r d) fun s => Awake s ∧ Ops.unit? s.dev 1 = some r ∧ r.stage = .looked ∧ Ops.moving s.dev = true ∧ Ops.gateOn s.dev 8 = true ∧
      (if r.orderLate then r.arrT else r.release) + Ops.rd s.dev Reg.feaWinCfgOffset ≤ Ops.now s.dev ∧ Ops.windowBehind s.dev r = false ∧
      r.skel = false ∧ r.expired = false) ∧
    (At (holdingUnit (packet .looked) (live [])) fun s => Awake s ∧ Ops.modelOf s.dev 0 0 = none) ∧
    (∀ d ∈ [live [], flowModelled true (live [])], At (holdingUnit (packet .waiting) d) fun s => Awake s ∧ (packet .waiting).stage = .waiting ∧
      Ops.gateOn s.dev 6 = true ∧ Ops.moving s.dev = true) ∧
    Ops.modelOf (flowModelled true (live [])) 0 0 = some default ∧ Ops.modelOf (live []) 0 0 = none := by
  refine ⟨?_, ?_, ?_, ?_, ?_⟩ <;> decide +kernel

/-- A model with a turn, and a unit of it whose turn is read at time 0. -/
def turnModel : Model := { (default : Model) with turn := some default }
def turning : UnitRec := { packet .featured with turn := some (0, true), zeroState := true, rules := [2 ^ 8], hasCtx := true }

theorem meets_TurnsAndInferenceRun :
    (At (holdingUnit (packet .parsed) (live [])) fun s => Awake s ∧ Ops.unit? s.dev 1 = some (packet .parsed) ∧
      (packet .parsed).stage ≠ .featured) ∧
    (∀ granted ∈ [true, false], let r := { turning with turn := some (0, granted) }
     At (holdingUnit r (modelled turnModel (live [(Reg.mxtTurnCfgOffset, 0)]))) fun s => Awake s ∧ Ops.unit? s.dev 1 = some r ∧ r.turn = some (0, granted) ∧
      Ops.modelOf s.dev 0 0 = some turnModel ∧ turnModel.turn = some default ∧ r.stage = .featured ∧ r.pass = 0 ∧
      r.readOf = none ∧ Ops.moving s.dev = true ∧ 0 + Ops.rd s.dev Reg.mxtTurnCfgOffset ≤ Ops.now s.dev ∧
      Ops.oldState s.dev r 0 = some (Ops.zeros 64) ∧ (Ops.lost s.dev r turnModel).1 = false ∧
      (Ops.passStart s.dev turnModel 0 0 (Ops.passSec turnModel 0) [] ⟨Ops.zeros 64, false⟩ [] false []).broken = false) ∧
    (At (live [(Reg.fltStatState, 3), (Reg.fltStatCause, 10)]) fun s => Awake s ∧ (Ops.lost s.dev turning turnModel).1 = true) ∧
    (∀ g ∈ [0, 1], ∀ v ∈ [none, some (Ops.zeros 64)], ∀ d ∈ [oneEntry (entry (Ops.zeros 40)) served, serving []], At (
        { d with flw := { d.flw with gen := [(0, g)], pend := [(0, [{ unit := 1, land := 0, gen := 0, val := v }])] } }) fun s => Awake s ∧
      NoneDue s.dev ∧ Ops.moving s.dev = true ∧ Ops.gateOn s.dev 7 = true ∧ Ops.genOf s.dev 0 = g ∧ Ops.standby s.dev = false ∧
      0 + Ops.rd s.dev Reg.mxtTurnCfgOffset ≤ Ops.now s.dev ∧ EntLands s.dev 0) ∧
    (At (live [(Reg.mxtTurnCfgOffset, 1)]) fun s => Awake s ∧ NoneDue s.dev ∧ s.dev.flw.pend = [] ∧
      Ops.now s.dev < 0 + Ops.rd s.dev Reg.mxtTurnCfgOffset) ∧
    (∀ st ∈ [Stage.featured, .turning], ∀ m ∈ [default, ensModel], At (holdingUnit { packet st with rules := [2 ^ 8] } (modelled m (live []))) fun s =>
      Awake s ∧ (Ops.unit? s.dev 1).any (fun r => r.stage == st && r.readOf.isNone && r.turn.isNone && Ops.infers r) = true ∧
      Ops.unitModel s.dev { packet st with rules := [2 ^ 8] } = some m ∧ Ops.moving s.dev = true ∧
      (Ops.lost s.dev { packet st with rules := [2 ^ 8] } m).1 = false) ∧
    (At (holdingUnit (packet .featured) (live [])) fun s => Awake s ∧ Ops.unitModel s.dev (packet .featured) = none ∧
      Ops.infers (packet .featured) = false) := by
  refine ⟨?_, ?_, ?_, ?_, ?_, ?_, ?_⟩ <;> decide +kernel
/-- The first pass of the packet has been inferred, with this rule and result. -/
def inferred (rule : Nat) (res : PassRes) : UnitRec :=
  { packet .inferred with rules := [rule], res := res, hasCtx := true, fcs := some true }

theorem meets_VerdictsAreFormed :
    (At (holdingUnit (packet .arrived) (live [])) fun s => Awake s ∧ Ops.unit? s.dev 1 = some (packet .arrived)) ∧
    (∀ r ∈ [inferred 0 .none, inferred (2 ^ 8) .none, inferred (2 ^ 8) .nan, inferred (2 ^ 8) (.score 1 2)],
      At (holdingUnit r (modelled { (default : Model) with passes := 1 } (live []))) fun s => Awake s ∧ Ops.unit? s.dev 1 = some r ∧
        r.stage ≠ .arrived ∧ r.stage ≠ .waiting ∧ r.stage ≠ .done ∧ Ops.moving s.dev = true ∧ Ops.gateOn s.dev 13 = true ∧
        r.expired = false ∧ r.verdict = none ∧ Ops.missing s.dev r 1 = false ∧ r.cpuState = false ∧
        (∀ x ∈ r.rules, Rule.policerEn x = false ∧ Rule.mirrorEn x = false) ∧ r.kind = .inline 7 ∧ r.fcs = some true ∧
        Ops.handsOn s.dev 1 r = none ∧ Parse.deferFail r.parse.defer r.len = none ∧ (1 ≤ r.pass + 1)) ∧
    (∀ kind ∈ [UnitKind.inline 7, .stem 9 0 false], let r := { inferred (2 ^ 8) (.score 1 2) with kind := kind }
      At (holdingUnit r (modelled { (default : Model) with passes := 2 } (live []))) fun s => Awake s ∧ Ops.handsOn s.dev 1 r = none ∧
        r.late = false ∧ Ops.missing s.dev r 1 = false ∧ r.pass + 1 < 2 ∧
        Ops.unitModel s.dev r = some { (default : Model) with passes := 2 }) ∧
    (∀ code ∈ [1, 2, 3, 4], let r := { inferred (2 ^ 8) (.score 1 2) with malCode := some code }
      At (holdingUnit r (modelled { (default : Model) with passes := 1 } (live []))) fun s => Awake s ∧ Ops.handsOn s.dev 1 r = none ∧
        r.expired = false ∧ r.verdict = none ∧ r.pass = 0 ∧ r.malCode.getD 0 = code) ∧
    (let r := { inferred (2 ^ 8) (.score 1 2) with verdict := some default, kind := .stem 9 0 false }
     At (holdingUnit r (modelled { (default : Model) with passes := 1 } (live []))) fun s => Awake s ∧ Ops.handsOn s.dev 1 r = none ∧
        r.expired = false ∧ r.verdict = some default ∧ r.late = false) ∧
    (Rule.infer (Ops.firstRule (inferred 0 .none)) = false ∧ Rule.infer (Ops.firstRule (inferred (2 ^ 8) .none)) = true) ∧
    (At (modelled { (default : Model) with passes := 1 } (live [])) fun s =>
      (Ops.mapVerdict s.dev (inferred (2 ^ 8) (.score 1 2)) 1 2).2 = none ∧ Ops.bit (inferred (2 ^ 8) (.score 1 2)).cache 0 = false) ∧
    (At (modelled { (default : Model) with passes := 2 } (live [])) fun s => Awake s ∧
      Ops.unitModel s.dev (inferred (2 ^ 8) (.score 1 2)) = some { (default : Model) with passes := 2 } ∧ 0 + 1 < 2) ∧
    (At (holdingUnit { inferred 0 .none with expired := true } (live [])) fun s => Awake s ∧
      Ops.missing s.dev { inferred 0 .none with expired := true } 1 = true) ∧
    (At (holdingUnit { inferred (2 ^ 8) .none with failed := true } (live [])) fun s =>
      Ops.missing s.dev { inferred (2 ^ 8) .none with failed := true } 1 = true) ∧
    (At (holdingUnit { stemUnit with stage := .inferred, rules := [0] } (live [])) fun s => Awake s ∧
      (Ops.unit? s.dev 1).any (fun r => r.kind == .stem 9 0 false && !r.late && r.stage == .inferred) = true) ∧
    (∀ f ∈ [none, some false], At (holdingUnit { inferred 0 .none with fcs := f } (live [])) fun s => Awake s ∧
      (Ops.unit? s.dev 1).any (fun r => r.fcs == f && r.kind == .inline 7) = true) ∧
    (At (holdingUnit { inferred (2 ^ 8) .none with kind := .handover 1 0 0 false } (live [])) fun s => Awake s ∧
      (Ops.unit? s.dev 1).any (fun r => r.kind == .handover 1 0 0 false) = true) ∧
    (At (wire 1 [(Reg.prtPortStatLinkUp 0, 1), (Ops.objF 0 Reg.tmgQCfg0Enable, 1), (Ops.objF 0 Reg.tmgQCfg1Max, 1)]) fun s => Awake s ∧
      (Ops.ruleVerdict s.dev (inferred 0 .none) 0).action = 0 ∧ (Ops.ruleVerdict s.dev (inferred 0 .none) 0).compat = false ∧
      Ops.enqueueFail s.dev (Ops.ruleVerdict s.dev (inferred 0 .none) 0).queue 60 (Ops.ruleVerdict s.dev (inferred 0 .none) 0).colour 0 false = none) := by
  refine ⟨?_, ?_, ?_, ?_, ?_, ?_, ?_, ?_, ?_, ?_, ?_, ?_, ?_, ?_⟩ <;> decide +kernel

/-- A model of a deepened slot, a unit of it that this member has inferred, and the member in its group. -/
def deepModel : Model := { (default : Model) with passes := 1, group := true }
def deepUnit : UnitRec := inferred (2 ^ 8) (.score 1 2)
def deepDev : Dev := grouped 1 0 (holdingUnit deepUnit (modelled deepModel (live [])))

/-- The clause of a deepened unit, where the layout names the member of its next stage: `Config.hopNext` is open (log entry 99). -/
theorem meets_clause_of_deepened_unit (t : Fin 8) (h : Config.hopNext deepDev.cfg.device deepModel.structId (deepUnit.pass + 1) = some t)
    (ht : t.val ≠ 1) :
    At deepDev fun s => Awake s ∧ Ops.unit? s.dev 1 = some deepUnit ∧ Ops.handsOn s.dev 1 deepUnit = some (deepModel, t.val) := by
  have a : Ops.unitModel deepDev deepUnit = some deepModel := by decide +kernel
  have b : ¬(deepUnit.hopped = true ∨ deepUnit.expired = true ∨ deepUnit.verdict.isSome = true ∨ (!Ops.infers deepUnit) = true ∨
    Ops.missing deepDev deepUnit 1 = true ∨ deepUnit.res = .nan) := by decide +kernel
  have c : ¬((!deepModel.group) = true ∨ (!Ops.inGroup deepDev) = true ∨ (!decide (deepModel.passes ≤ deepUnit.pass + 1)) = true ∨
    2 ≤ deepUnit.pass) := by decide +kernel
  have o : Ops.ownId deepDev = 1 := by decide +kernel
  have k : deepUnit.kind = .inline 7 := by decide +kernel
  have n : Ops.nextStage deepDev deepUnit deepModel = some t.val := by
    simp only [Ops.nextStage, k, h, o]
    rw [if_neg c]
    simp [ht]
  refine ⟨by decide +kernel, by decide +kernel, ?_⟩
  show (if _ then _ else _) = _
  rw [if_neg b, a]
  simp [n]

/-- Queue 0 of port 0 is enabled, with its nodes, and holds one packet that is due. -/
def queued (l : List (Fld × Nat)) : Dev :=
  let d := wire 4 ([(Reg.prtPortStatLinkUp 0, 1), (Ops.objF 0 Reg.tmgQCfg0Enable, 1), (Ops.objF (Ops.nodeNo 1 0) Reg.tmgNCfg0Enable, 1),
    (Ops.objF (Ops.nodeNo 2 0) Reg.tmgNCfg0Enable, 1), (Ops.objF (Ops.nodeNo 3 0) Reg.tmgNCfg0Enable, 1)] ++ l)
  let pkt : QPkt := { (default : QPkt) with unit := 1, len := 64, cells := 1, bytes := Ops.zeros 64 }
  { d with tmg := { d.tmg with used := 1, queues := [(0, { (default : QState) with pkts := [pkt] })] } }

theorem meets_FramesLeaveAndPause :
    (At (on []) fun s => Awake s ∧ Ops.portUp s.dev 0 = false ∧ Ops.find? s.dev.tmg.paused 0 = none) ∧
    (At (wire 1 []) fun s => Awake s ∧ Ops.portUp s.dev 7 = true ∧ Ops.schedule s.dev 7 = none ∧ Ops.gateOn s.dev 4 = true) ∧
    (At (queued []) fun s => Awake s ∧ Ops.moving s.dev = true ∧ Ops.gateOn s.dev 14 = true ∧ Ops.gateOn s.dev 4 = true ∧ Ops.portUp s.dev 0 = true ∧
      ((Ops.schedule s.dev 0).bind fun p => p.getLast?).any (fun x => x.2.1.key == 0) = true ∧ (Ops.queue s.dev 0).pkts ≠ []) ∧
    (∀ t ∈ [0, 1], At (let d := wire 1 []; { d with tmg := { d.tmg with paused := [(63, t)] } }) fun s => Awake s ∧
      Ops.find? s.dev.tmg.paused (8 * 7 + 7) = some t ∧ Ops.now s.dev = 0) ∧
    (At (let d := wire 1 [(Reg.prtPortCtlPfcEn 7, 0xFF), (Reg.tmgBufCfg0XoffFree, 1)]; { d with tmg := { d.tmg with xoffCell := true } }) fun s =>
      Awake s ∧ 7 ∈ Ops.pausingPorts s.dev ∧ (Ops.gateOn s.dev 4 && Ops.pauseCond (Ops.ctxFree s.dev) (Ops.rd s.dev Reg.prtPfcCfg0XoffFree)
        (Ops.rd s.dev Reg.prtPfcCfg1XonFree) s.dev.tmg.xoffCtx) = s.dev.tmg.xoffCtx ∧
      (decide (s.dev.tmg.cells ≠ 0) && Ops.pauseCond (Ops.cellsFree s.dev) (Ops.rd s.dev Reg.tmgBufCfg0XoffFree)
        (Ops.rd s.dev Reg.tmgBufCfg1XonFree) s.dev.tmg.xoffCell) = s.dev.tmg.xoffCell) ∧
    (At (live []) fun s => Awake s ∧ s.dev.tmg.xoffCell = false ∧ s.dev.tmg.cells = 0 ∧
      Ops.pauseCond (Ops.ctxFree s.dev) (Ops.rd s.dev Reg.prtPfcCfg0XoffFree) (Ops.rd s.dev Reg.prtPfcCfg1XonFree) s.dev.tmg.xoffCtx =
        s.dev.tmg.xoffCtx) := by
  refine ⟨?_, ?_, ?_, ?_, ?_, ?_⟩ <;> decide +kernel

theorem meets_HandoversAndSnapshots :
    (At Dev.reset fun s => Awake s ∧ Ops.gateOn s.dev 14 = false) ∧
    (At { live [] with shadow := [((Ops.objF 3 Reg.tmgPolCbsBytes).key, 5), ((Ops.objF 3 Reg.tmgPolPbsBytes).key, 6),
        ((Ops.objF 3 Reg.tmgQShapeBurstBurst).key, 7)] } fun s => Awake s ∧ Ops.gateOn s.dev 14 = true ∧
      (∃ f ∈ Ops.polFields, Ops.find? s.dev.shadow (Ops.objF 3 f).key ≠ none) ∧ (Ops.polOf s.dev 3).filled = false ∧
      (∃ f ∈ Ops.queueFields, Ops.find? s.dev.shadow (Ops.objF 3 f).key ≠ none) ∧
      ¬(∃ f ∈ Ops.polFields, Ops.find? s.dev.shadow (Ops.objF 4 f).key ≠ none)) ∧
    (At (live [(Reg.tmgSampleCfgEnable, 0)]) fun s => Awake s ∧ Ops.rdB s.dev Reg.tmgSampleCfgEnable = false) ∧
    (At (queued [(Reg.tmgSampleCfgEnable, 1), (Ops.objF 0 Reg.tmgQCfg0SampleEn, 1)]) fun s => Awake s ∧ Ops.gateOn s.dev 14 = true ∧
      Ops.rdB s.dev Reg.tmgSampleCfgEnable = true ∧ Ops.sampledQueues s.dev = [0] ∧ (Ops.sampledQueues s.dev).Nodup) ∧
    (At (live [(Ops.objF 5 Reg.tmgQCfg0Owner, 63)]) fun s => Awake s ∧ Arrives s.dev 63 0x00E00410 true ∧ Ops.tenantOf 63 ≠ 0 ∧
      Ops.qRd s.dev ((5 : Word).toNat % 2 ^ 20) Reg.tmgQCfg0Owner = 63 ∧ Ops.qRd s.dev ((6 : Word).toNat % 2 ^ 20) Reg.tmgQCfg0Owner ≠ 63) ∧
    (At (live []) fun s => Awake s ∧ Arrives s.dev 0 0x00900080 true ∧ Arrives s.dev 0 0x00900000 true ∧
      Ops.find? (Ops.curCfg s.dev).models 0 = none ∧ Ops.qntSelect s.dev 0 0 = none) ∧
    (At (let m := { (default : Model) with tensors := [default] }; let d := modelled m (live []);
         { d with qnt := [(Ops.recKey m 0 0, { (default : TensorRec) with amax := some (-3) })] }) fun s => Awake s ∧
      (Ops.find? (Ops.curCfg s.dev).models 0).any (fun m => decide (0 < m.tensors.length)) = true ∧ Ops.ownsSlot s.dev 0 0 = true ∧
      (Ops.qntSelect s.dev 0 0).any (fun p => p.2.amax == some (-3)) = true) := by
  refine ⟨?_, ?_, ?_, ?_, ?_, ?_, ?_⟩ <;> decide +kernel

theorem meets_LoupeSamplesAndWatches :
    (At Dev.reset fun s => Awake s ∧ Ops.lpeOn s.dev = false ∧ s.dev.lpe.snap = none) ∧
    (At (live [(Reg.lpeSampleCfgEn, 1), (Reg.lpeSampleSizeSize, 1), (Reg.lpeSampleWrWr, 1023), (Reg.lpeSampleRdRd, 1022)]) fun s => Awake s ∧ Ops.lpeOn s.dev = true ∧
      Ops.rdB s.dev Reg.lpeSampleCfgEn = true ∧
      (let b := Ops.sampleBytes s.dev (Ops.rd s.dev Reg.lpeSampleCfgCount + 1)
       let n := Ops.rd s.dev Reg.lpeSampleSizeSize * 1024
       n ≠ 0 ∧ b.length / 64 ≤ (Ops.rd s.dev Reg.lpeSampleRdRd + n - Ops.rd s.dev Reg.lpeSampleWrWr - 1) % n ∧
         (Ops.spend s.dev b.length).2 = true)) ∧
    (At (live [(Reg.lpeSampleCfgEn, 1), (Reg.lpeSampleSizeSize, 0)]) fun s => Awake s ∧ Ops.rd s.dev Reg.lpeSampleSizeSize * 1024 = 0) ∧
    (∀ h ∈ [0, 1], ∀ fz ∈ [0, 1], At (let d := live [(Reg.lpeWdogEnEn, 0xF), (Reg.lpeHangStatHang, h), (Reg.lpeCfgFreezeOnHang, fz)]
        { d with grf := { d.grf with queue := [0] } }) fun s => Awake s ∧ Ops.lpeOn s.dev = true ∧
      Ops.bit (Ops.rd s.dev Reg.lpeWdogEnEn) 3 = true ∧ Ops.watchCond s.dev 3 = true ∧ Ops.rd s.dev Reg.lpeHangStatHang = h ∧
      Ops.rd s.dev Reg.lpeSnapSizeSize = 0 ∧ Ops.rd s.dev Reg.lpeFreezeStatState = 0) ∧
    (At (let d := live [(Reg.lpeSnapSizeSize, 1), (Reg.lpeCfgFreezeOnHang, 1)]; { d with lpe := { d.lpe with snap := some (3, 0) } }) fun s =>
      Awake s ∧ s.dev.lpe.snap = some (3, 0) ∧ Ops.lpeOn s.dev = true ∧ Ops.rd s.dev Reg.lpeFreezeStatState = 0 ∧
      (Ops.watchCond s.dev 3 = false)) := by
  refine ⟨?_, ?_, ?_, ?_, ?_⟩ <;> decide +kernel

theorem meets_FreezeFollowsItsMachine :
    (∀ st ∈ [0, 1, 2, 3, 4], At (live [(Reg.lpeFreezeStatState, st)]) fun s => Awake s ∧ Arrives s.dev 0 0x01600020 true ∧
      Ops.lpeOn s.dev = true ∧ Ops.rd s.dev Reg.lpeFreezeStatState = st) ∧
    (At Dev.reset fun s => Awake s ∧ Ops.lpeOn s.dev = false ∧ Ops.frozen s.dev = false) ∧
    (At (live [(Reg.lpeFreezeStatState, 2), (Reg.lpeFreezeStatDumpReady, 0)]) fun s => Awake s ∧ Ops.frozen s.dev = true ∧
      Ops.rdB s.dev Reg.lpeFreezeStatDumpReady = false ∧ Ops.tenantOf 64 = 0 ∧ Ops.tenantOf 1 ≠ 0 ∧ Arrives s.dev 64 0x01600038 false) := by
  refine ⟨?_, ?_, ?_⟩ <;> decide +kernel

theorem meets_TheBridgeReachesTheBus :
    (At Dev.reset fun s => Awake s ∧ Ops.jtagLock s.dev = false ∧ s.dev.pins.sysRstN = true ∧ Ops.locate s.dev 64 0x100010 = .reg 0x100010 0 ∧
      Arrives s.dev 64 0x100010 true ∧ Arrives s.dev 64 0x100010 false ∧ ownEffect 0x100010 = false ∧ Ops.latched 0x100010 = false ∧
      Ops.latched (0x100010 - 4) = false ∧ 4 * Ops.bits (2 * 0x40004 + 1) 1 23 = 0x100010 ∧
      Ops.locate s.dev 64 0x400000 = .reg 0x400000 0 ∧ Ops.blockCause s.dev (0x400000 / 0x100000) = some 0 ∧ Ops.frozen s.dev = false ∧
      s.dev.pins.freezeN = true) ∧
    (At (rst [(Reg.lpeCfgJtagLock, 1)]) fun s => Awake s ∧ Ops.jtagLock s.dev = true) ∧
    (At low fun s => s.dev.pins.railLost = false ∧ Ops.jtagLock s.dev = false ∧ s.dev.pins.sysRstN = false) ∧
    (∀ st ∈ [0, 2, 3], At (live [(Reg.lpeFreezeStatState, st)]) fun s => Ops.jtagLock s.dev = false ∧ Ops.rd s.dev Reg.lpeFreezeStatState = st ∧
      Ops.lpeOn s.dev = true ∧ Arrives s.dev 64 0x01600020 true) := by
  refine ⟨?_, ?_, ?_, ?_⟩ <;> decide +kernel


/-! ### Worked examples and rules of the spec, each in one evaluation -/

/-- A node word of R173 with its CHECK: feature, kind, DEF_LEFT, value, left and right. -/
def node (t i f k dl v l r : Nat) : Nat :=
  Esp.withCheck t i (f + k * 2 ^ 11 + dl * 2 ^ 14 + l * 2 ^ 16 + r * 2 ^ 32 + v * 2 ^ 48)

/-- A leaf word of R173 with its CHECK. -/
def leafNode (t i : Nat) (v : Int) : Nat := Esp.withCheck t i (2 ^ 15 + (v % 2 ^ 32).toNat * 2 ^ 48)

/-- The ensemble of 'Worked scoring' (07_espalier_trees.md). -/
def worked : Ensemble :=
  { (default : Ensemble) with
    k := 1, link := 2, leafExp := -8, base := [-32]
    trees := [
      { (default : Tree) with depth := 2, nodes := [node 0 0 3 2 0 0x3F000000 1 2, leafNode 0 1 96, node 0 2 7 0 1 443 3 4,
          leafNode 0 3 (-40), leafNode 0 4 180] },
      { (default : Tree) with depth := 1, nodes := [node 1 0 12 1 0 (2 ^ 32 - 5) 1 2, leafNode 1 1 (-200), leafNode 1 2 64] },
      { (default : Tree) with depth := 1, nodes := [node 2 0 20 3 1 6 1 2, leafNode 2 1 120, leafNode 2 2 (-24)] }] }

/-- The margins that features give, and the score. -/
def scored (fs : Map Nat) : Option (List Int × Option Nat) :=
  (Esp.leaves worked fs).map fun ls => (Esp.margins worked ls, (Esp.link worked (Esp.margins worked ls)).score)

/-- 'Worked scoring' of 07_espalier_trees.md: acc 68 and score 18,547; with f7 = 442, acc -152. -/
theorem test_worked_scoring : scored [(3, 0x3F000000), (7, 443), (12, 2 ^ 32 - 7)] = some ([68], some 18547) ∧
    (scored [(3, 0x3F000000), (7, 442), (12, 2 ^ 32 - 7)]).map (·.1) = some [-152] := by decide +kernel

/-- The refit example of 07_espalier_trees.md: leaf 180 becomes 214. -/
theorem test_refit_example : Esp.refitLeaf { worked with eta := 32768, lambda := 8388608, maxStep := 64, minLeafN := 3 }
    180 (-3837184) 6002432 3 = 214 := by decide +kernel

/-- The code of a conversion and which of saturation, flush and NaN-to-zero it counts. -/
def conv (fmt : Nat) (s : Int) (v : Machine.Num) : Nat × Bool × Bool × Bool :=
  let c := Fmt.convert fmt s v
  (c.code, c.sat, c.flush, c.nanZero)

/-- The integer rows of the conversion table of 06_number_formats.md. -/
theorem test_conversions_to_integers :
    conv 0 0 (.fin false 5 (-1)) = (2, false, false, false) ∧ conv 0 0 (.fin true 5 (-1)) = (254, false, false, false) ∧
    conv 0 0 (.fin false 7 (-1)) = (4, false, false, false) ∧ conv 0 (-3) (.fin false 21 (-4)) = (10, false, false, false) ∧
    conv 0 0 (.fin false 255 (-1)) = (127, true, false, false) ∧ conv 0 0 (.fin true 130 0) = (128, true, false, false) ∧
    conv 1 0 (.fin false 1 (-1)) = (0, false, true, false) ∧ conv 0 0 .nan = (0, false, false, true) ∧
    conv 0 1 (.fin false 1003520 (-12)) = (122, false, false, false) ∧
    conv 0 1 (.fin false 1011712 (-12)) = (124, false, false, false) := by decide +kernel

/-- The floating-point rows of the conversion table of 06_number_formats.md, by the values of the codes. -/
theorem test_conversions_to_floats :
    conv 2 0 (.fin false 17 0) = (0x58, false, false, false) ∧ conv 2 0 (.fin false 460 0) = (0x7E, false, false, false) ∧
    conv 2 0 (.fin false 470 0) = (0x7E, true, false, false) ∧ conv 2 0 (.fin false 1 (-10)) = (0, false, true, false) ∧
    conv 3 0 (.fin false 9 (-3)) = (0x3C, false, false, false) ∧ conv 4 0 (.fin false 65520 0) = (0x7BFF, true, false, false) := by
  decide +kernel

/-- The scale that an interval with this amax exponent and this many saturations gives an INT8 tensor (SLEW 1). -/
def scaleAfter (s e : Int) (sat : Nat) : Int :=
  (Fmt.endInterval { (default : TensorRec) with
    desc := { (default : TensorDesc) with adapt := true, slew := 1 }, scale := s, amax := some e, isat := sat }).1.scale

/-- The example of R163: -4 rises to -3, stays, then falls one octave an interval. -/
theorem test_adaptive_scale : scaleAfter (-4) 3 52 = -3 ∧ scaleAfter (-3) 3 0 = -3 ∧ scaleAfter (-3) 0 0 = -4 ∧
    scaleAfter (-4) 0 0 = -5 ∧ scaleAfter (-5) 0 0 = -6 := by decide +kernel

/-- Policer 17 of R301's example: the buckets in eighths of a millionth of a byte, and the colour. -/
def charged (tc tp last t : Nat) : Nat × Nat × Nat :=
  let r := Ops.polCharge ⟨tc, tp, last, true⟩ 1000000 2000000 3000 4000 false 1538 t 0
  (r.1.tc, r.1.tp, r.2)

/-- The four rows of R301's example. -/
theorem test_policer_example :
    charged (3000 * 8000000) (4000 * 8000000) 0 1000 = (1462 * 8000000, 2462 * 8000000, 0) ∧
    charged (1462 * 8000000) (2462 * 8000000) 1000 1100 = (14745 * 800000, 949 * 8000000, 1) ∧
    charged (14745 * 800000) (949 * 8000000) 1100 1200 = (1487 * 8000000, 974 * 8000000, 2) ∧
    charged (1487 * 8000000) (974 * 8000000) 1200 9000 = (924 * 8000000, 1386 * 8000000, 0) := by decide +kernel

/-- The example of R504: VF 5 owns slot 12; the PF reaches the same register at 0x00D1_0C34; through VF 6 it reads zero. -/
theorem test_vf_window_example :
    let d := put Dev.reset [(Reg.cfgSlotAssigned 12, 1), (Reg.cfgSlotOwner 12, 5)]
    Ops.locate d 5 0x10C34 = .reg 0xD10C34 5 ∧ Ops.locate d 6 0x10C34 = .none ∧ Ops.locate d 0 0xD10C34 = .reg 0xD10C34 0 := by
  decide +kernel

/-- The example of R101: a MOVE at 11,200, a FLAP under PIN at 30,000, and a SRC_CHANGE at 44,000 in its place. -/
theorem test_contest_example :
    let e : FlowEnt := { (default : FlowEnt) with valid := true, recent := true, src := 4, srcT := 10000 }
    let m := Ops.contest Dev.reset e 9 11200
    let f := Ops.contest Dev.reset m.1 9 30000
    let c := Ops.contest Dev.reset m.1 9 44000
    m.1.cstate = 1 ∧ m.1.contestT = 11200 ∧ m.1.src = 4 ∧ m.2.2 = some Ctr.flwMove ∧
    f.1.src = 4 ∧ f.2.2 = some Ctr.flwFlap ∧ c.1.src = 9 ∧ c.2.2 = some Ctr.flwSrcChange := by decide +kernel

end Sys2Proof.Tests
end

section
/-!
PROOFS. The register bus (00_scope): writes and reads by access code, the two halves of a 64-bit counter, the record of a bus error.
-/
namespace Sys2Proof.Machine
open Ops

/-! ### Where an access of a bus command leads -/

/-- Each of the commands that write a register runs `regWrite`. -/
theorem exec_eq_regWrite {c : Instr} (s : State) {fn : Fn} {addr : Nat} {data : Word} {stall : Bool}
    (h : (stall = false ∧ (c = .registerWrite fn addr data ∨ c = .gatedBlockAccess fn addr (some data))) ∨
      c = .rwsWrite fn addr ⟨data, stall⟩) :
    exec c s = run s fun d => regWrite d fn addr data.toNat stall := by
  rcases h with ⟨rfl, rfl | rfl⟩ | rfl <;> rfl

/-- Each of the commands that read a register by access code runs `regRead`. -/
theorem exec_eq_regRead {c : Instr} (s : State) {fn : Fn} {addr : Nat} (h : c = .rcRead fn addr ∨ c = .gatedBlockAccess fn addr none) :
    exec c s = run s fun d => regRead d fn fn addr := by
  rcases h with rfl | rfl <;> rfl

theorem regWrite_reg {d : Dev} {fn addr a copy : Nat} (data : Nat) (stall : Bool) (h : locate d fn addr = .reg a copy) :
    regWrite d fn addr data stall = access d fn a true fun d =>
      if 0 < fn ∧ fn < 64 ∧ vfReadOnly a then d
      else landWrite (tickIf (stall && hasRws a) d Ctr.grfHandoverStall) fn copy a data := by
  simp only [regWrite, h]

theorem regRead_reg {d : Dev} {fn addr a copy : Nat} (key : Nat) (h : locate d fn addr = .reg a copy) :
    regRead d fn key addr = access d fn a false fun d =>
      emit (landRead d fn key copy a).1 (.read fn addr (some (landRead d fn key copy a).2)) := by
  simp only [regRead, h]

/-- What two runs of one command say holds of one device. -/
theorem Does.and {c : Instr} {s : State} {P Q : Dev → Prop} (hp : Does c s P) (hq : Does c s Q) : ∃ d, P d ∧ Q d := by
  obtain ⟨t, ht, _, hP⟩ := hp
  obtain ⟨t', ht', _, hQ⟩ := hq
  cases ht.symm.trans ht'
  exact ⟨t.dev, hP, hQ⟩

/-- A read that arrives at a register completes with what `landRead` leaves and returns. -/
theorem does_read {c : Instr} {s : State} {P : Dev → Prop} {fn : Fn} {addr a copy : Nat} (ha : Awake s)
    (he : exec c s = run s fun d => regRead d fn fn addr) (hl : locate s.dev fn addr = .reg a copy) (hr : Arrives s.dev fn a false)
    {e : Dev} {v : Nat} (hv : landRead s.dev fn fn copy a = (e, v)) (h1 : e.straps = s.dev.straps) (h2 : e.pins = s.dev.pins)
    (h : P (emit e (.read fn addr (some v)))) : Does c s P := by
  have hf : regRead s.dev fn fn addr = emit e (.read fn addr (some v)) := by
    rw [regRead_reg _ hl, access_arrives _ _ _ _ _ hr, hv]
  exact does_run' _ ha he (by rw [hf, emit_straps, h1]) (by rw [hf, emit_pins, h2]) (by rwa [hf])

/-! ### Writes by access code -/

/-- A write of a register changes register fields and shadows alone. -/
theorem writeFlds_frame (e : Dev) (a copy data : Nat) :
    { writeFlds e a copy data with regs := e.regs, shadow := e.shadow } = e := by
  cases hr : rowAt a with
  | none => simp only [writeFlds, hr]
  | some r =>
    rw [writeFlds_spec e a copy data r hr]
    exact (writeAll_spec e a copy data r.flds (rowAt_apart hr)).2.2.2

theorem tickIf_frame (b : Bool) (d : Dev) (a : Nat) : { tickIf b d a with ctrs := d.ctrs } = d := by cases b <;> rfl

/-- A counter that stands within its 64 bits counts modulo 2^64 whether or not the event comes. -/
theorem ctr_tickIf_same (b : Bool) {d : Dev} {a : Nat} (h : ctr d a < 2 ^ 64) : ctr (tickIf b d a) a = (ctr d a + b2n b) % 2 ^ 64 := by
  cases b with
  | true => exact ctr_tick_same d a
  | false => exact (Nat.mod_eq_of_lt h).symm

/-- Selection of a field's copy reads register fields alone. -/
theorem homeFld_of_regs {d e : Dev} (h : d.regs = e.regs) (a copy : Nat) (f : Fld) : homeFld d a copy f = homeFld e a copy f := by
  have hs : selObj d a = selObj e a := by simp only [selObj, rd_of_regs h]
  simp only [homeFld, hs]

theorem hasRws_of_row {a : Nat} {r : Row} (h : rowAt a = some r) : hasRws a = r.flds.any fun g => g.acc == .rws := by
  simp only [hasRws, h]

/-- A write that arrives at a register with no effect of its own lands by the access codes, after the count of its stall (R5, R285). -/
theorem does_plainWrite {c : Instr} {s : State} {fn : Fn} {addr a copy : Nat} {data : Word} {stall : Bool}
    (he : exec c s = run s fun d => regWrite d fn addr data.toNat stall) (ha : Awake s) (hl : locate s.dev fn addr = .reg a copy)
    (hv : ¬(0 < fn.val ∧ fn.val < 64 ∧ vfReadOnly a = true)) (hr : Arrives s.dev fn a true) (ho : ownEffect a = false) :
    Does c s fun d => d = writeFlds (tickIf (stall && hasRws a) s.dev Ctr.grfHandoverStall) a copy data.toNat := by
  have hf : regWrite s.dev fn addr data.toNat stall =
      writeFlds (tickIf (stall && hasRws a) s.dev Ctr.grfHandoverStall) a copy data.toNat := by
    rw [regWrite_reg _ _ hl, access_arrives _ _ _ _ _ hr, if_neg hv, landWrite_plain _ _ _ _ _ ho]
  have frame := writeFlds_frame (tickIf (stall && hasRws a) s.dev Ctr.grfHandoverStall) a copy data.toNat
  have hstraps := congrArg Dev.straps frame
  have hpins := congrArg Dev.pins frame
  exact does_run' _ ha he (by rw [hf]; simpa using hstraps) (by rw [hf]; simpa using hpins) hf

/-- What a write by access code leaves on every device: each field and its shadow by the field's access code, the count of a stall,
everything else as it was (R5, R9, R285). -/
theorem plainWrite_leaves {c : Instr} {s : State} {fn : Fn} {addr a copy : Nat} {data : Word} {stall : Bool} {r : Row}
    (he : exec c s = run s fun d => regWrite d fn addr data.toNat stall) (ha : Awake s) (hl : locate s.dev fn addr = .reg a copy)
    (hv : ¬(0 < fn.val ∧ fn.val < 64 ∧ vfReadOnly a = true)) (hr : Arrives s.dev fn a true) (ho : ownEffect a = false)
    (hrow : rowAt a = some r) :
    let F := fun g : RFld => homeFld s.dev a copy (.at a g.lo g.w g.rst)
    let keys := r.flds.map fun g => (F g).key
    Does c s fun d =>
      (∀ g ∈ r.flds, rd d (F g) = fieldAfter g (rd s.dev (F g)) (bits data.toNat g.lo g.w) ∧
        find? d.shadow (F g).key = shadowAfter g (find? s.dev.shadow (F g).key) (bits data.toNat g.lo g.w)) ∧
      RegsKept s.dev d keys ∧ (∀ k, k ∉ keys → find? d.shadow k = find? s.dev.shadow k) ∧
      d.ctrs = (tickIf (stall && r.flds.any fun g => g.acc == .rws) s.dev Ctr.grfHandoverStall).ctrs ∧
      { d with regs := s.dev.regs, shadow := s.dev.shadow, ctrs := s.dev.ctrs } = s.dev := by
  obtain ⟨t, ht, hp, hd⟩ := does_plainWrite he ha hl hv hr ho
  refine ⟨t, ht, hp, ?_⟩
  rw [hasRws_of_row hrow, writeFlds_spec _ _ _ _ r hrow] at hd
  generalize (stall && r.flds.any fun g => g.acc == .rws) = counted at hd ⊢
  have home := homeFld_of_regs (tickIf_regs counted s.dev Ctr.grfHandoverStall) a copy
  obtain ⟨fields, regs, shadows, frame⟩ :=
    writeAll_spec (tickIf counted s.dev Ctr.grfHandoverStall) a copy data.toNat r.flds (rowAt_apart hrow)
  simp only [← hd, home, rd_tickIf, tickIf_shadow, tickIf_regs] at fields regs shadows frame
  refine ⟨fields, regs, shadows, by simpa using congrArg Dev.ctrs frame, ?_⟩
  calc { t.dev with regs := s.dev.regs, shadow := s.dev.shadow, ctrs := s.dev.ctrs }
      = { tickIf counted s.dev Ctr.grfHandoverStall with ctrs := s.dev.ctrs } := by rw [← frame]
    _ = s.dev := tickIf_frame counted s.dev _

/-- The device right after reset, but with `HANDOVER_STALL` at 2^64, which no 64-bit counter can hold. -/
def stallBeyond64 : State := { dev := { Dev.reset with ctrs := [(Ctr.grfHandoverStall, 2 ^ 64)] }, pending := [] }

/-- Refutes O8: the statement takes `HANDOVER_STALL` modulo 2^64 even where nothing is counted, and its states are not held to counters of
64 bits. On `stallBeyond64` a write of `CLK_SRC_STAT`, which has no RWS field, leaves the counter at 2^64, where the statement says 0.
`plainWrite_leaves` is what such a write does leave; by `ctr_tickIf_same` it is what the statement says where the counter is within its
64 bits. -/
theorem not_registerWriteFollowsItsAccessCodes : ¬ Obligations.RegisterWriteFollowsItsAccessCodes := by
  unfold Obligations.RegisterWriteFollowsItsAccessCodes
  rintro ⟨-, h⟩
  have ha : Awake stallBeyond64 := by decide +kernel
  have hl : locate stallBeyond64.dev (0 : Fn) 0x100008 = .reg 0x100008 0 := by decide +kernel
  have hv : ¬(0 < (0 : Fn).val ∧ (0 : Fn).val < 64 ∧ vfReadOnly 0x100008 = true) := by decide
  have hr : Arrives stallBeyond64.dev (0 : Fn) 0x100008 true := by decide +kernel
  have ho : ownEffect 0x100008 = false := by decide +kernel
  obtain ⟨r, hrow⟩ := Option.isSome_iff_exists.mp (by decide +kernel : (rowAt 0x100008).isSome = true)
  have stated := h (.registerWrite 0 0x100008 0) _ 0 0x100008 0 _ _ r false (.inl ⟨rfl, .inl rfl⟩) ha hl hv hr ho hrow
  have proved := plainWrite_leaves (exec_eq_regWrite (data := 0) _ (.inl ⟨rfl, .inl rfl⟩)) ha hl hv hr ho hrow
  obtain ⟨d, ⟨-, -, -, said, -, -⟩, -, -, -, kept, -⟩ := stated.and proved
  have beyond : ctr stallBeyond64.dev Ctr.grfHandoverStall = 2 ^ 64 := by decide +kernel
  have left : ctr d Ctr.grfHandoverStall = 2 ^ 64 := by
    rw [ctr, kept, Bool.false_and, ← ctr]
    exact beyond
  rw [left, beyond, Bool.false_and] at said
  exact absurd said (by decide)

/-! ### Reads by access code -/

/-- Away from the mailboxes and the dump port a read has no effect but `readAt`'s. -/
theorem landRead_eq_readAt (d : Dev) (fn key copy : Nat) {a : Nat} (hm : ¬(0xC02000 ≤ a ∧ a < 0xC02400 ∧ a % 16 = 12))
    (hd : a ≠ 0x1600038) : landRead d fn key copy a = readAt d key a copy := by
  unfold landRead
  rw [if_neg fun h => hm ⟨h.1, h.2.1, h.2.2.1⟩, if_neg fun h => hd h.1]

theorem readAt_unlatched (d : Dev) (key copy : Nat) {a : Nat} (h : latched a = false) (h4 : latched (a - 4) = false) :
    readAt d key a copy = (clearRc d a copy, readReg d a copy) := by
  simp [readAt, h, h4]

theorem clearRc_frozen {d : Dev} (a copy : Nat) (h : rd d Reg.lpeFreezeStatState ≠ 0) : clearRc d a copy = d := by
  rw [clearRc, if_pos h]

/-- Outside a freeze a read clears the RC fields of the register and changes nothing else (R5). -/
theorem clearRc_running {d : Dev} {a : Nat} (copy : Nat) {r : Row} (hrow : rowAt a = some r) (h : rd d Reg.lpeFreezeStatState = 0) :
    (∀ g ∈ r.flds, g.acc = .rc → rd (clearRc d a copy) (homeFld d a copy (.at a g.lo g.w g.rst)) = 0) ∧
    RegsKept d (clearRc d a copy) ((r.flds.filter fun g => g.acc == .rc).map fun g => (homeFld d a copy (.at a g.lo g.w g.rst)).key) ∧
    { clearRc d a copy with regs := d.regs } = d := by
  have he : clearRc d a copy =
      each r.flds d fun d f => if f.acc = .rc then wr d (homeFld d a copy (.at a f.lo f.w f.rst)) 0 else d := by
    simp only [clearRc, h, ne_eq, not_true_eq_false, if_false, hrow]
  rw [he]
  exact clearAll_spec d a copy r.flds (rowAt_apart hrow)

/-- In a freeze or not, a read clears at most the RC fields of the register (R5, R491). -/
theorem clearRc_keeps (d : Dev) {a : Nat} (copy : Nat) {r : Row} (hrow : rowAt a = some r) :
    RegsKept d (clearRc d a copy) ((r.flds.filter fun g => g.acc == .rc).map fun g => (homeFld d a copy (.at a g.lo g.w g.rst)).key) ∧
    { clearRc d a copy with regs := d.regs } = d := by
  by_cases h : rd d Reg.lpeFreezeStatState = 0
  · exact (clearRc_running copy hrow h).2
  · rw [clearRc_frozen a copy h]
    exact ⟨RegsKept.refl d _, rfl⟩

/-- A field that the device does not compute reads by its access code (R5, R285). -/
theorem readFld_kept (d : Dev) (a copy : Nat) (g : RFld) {v : List (Nat × Nat)} (h : v.find? (fun p => p.1 == g.lo) = none) :
    readFld d a copy g v = match g.acc with
      | .wo => 0
      | .rws => shd d (homeFld d a copy (.at a g.lo g.w g.rst))
      | _ => rd d (homeFld d a copy (.at a g.lo g.w g.rst)) := by
  cases hacc : g.acc <;> simp only [readFld, h, hacc]

/-- Settles O9: such a read is `readAt`, whose word is made of the fields and whose device is `clearRc`'s. -/
theorem registerReadFollowsItsAccessCodes : Obligations.RegisterReadFollowsItsAccessCodes := by
  unfold Obligations.RegisterReadFollowsItsAccessCodes
  intro c s fn addr a copy r hc ha hl hr hrow hlat hlat4 hview hmail hdump
  have hland : landRead s.dev fn fn copy a = (clearRc s.dev a copy, readReg s.dev a copy) := by
    rw [landRead_eq_readAt _ _ _ _ hmail hdump, readAt_unlatched _ _ _ hlat hlat4]
  obtain ⟨kept, frame⟩ := clearRc_keeps s.dev copy hrow
  have straps := congrArg Dev.straps frame
  have pins := congrArg Dev.pins frame
  have out := congrArg Dev.out frame
  refine does_read ha (exec_eq_regRead s hc) hl hr hland straps pins ⟨?_, ?_, ?_, ?_, ?_⟩
  · refine ⟨readReg s.dev a copy, congrArg (_ :: ·) out, ?_⟩
    intro g hg f hkept
    exact (readReg_fields s.dev a copy r hrow hview g hg).trans (congrArg (· % 2 ^ g.w) (readFld_kept s.dev a copy g hkept))
  · intro g hg hrc hrun
    rw [rd_emit]
    exact (clearRc_running copy hrow hrun).1 g hg hrc
  · exact kept.of_rd (rd_emit _ _)
  · intro hfrozen
    rw [emit_regs, clearRc_frozen a copy hfrozen]
  · exact congrArg (fun d : Dev => { d with out := s.dev.out }) frame

/-! ### The two halves of a counter -/

/-- The low half of a counter: its low 32 bits are returned, its high 32 bits latched (R10). -/
theorem landRead_counter_low (d : Dev) (fn key copy : Nat) {a : Nat} (h : isCtr a = true) :
    landRead d fn key copy a =
      ({ d with latch := setDef d.latch (latchKey key a) 0 (ctr d a / 2 ^ 32) }, ctr d a % 2 ^ 32) := by
  obtain ⟨hmail, hdump, -, -⟩ := isCtr_plain a h
  have hlat : latched a = true := by simp [latched, h]
  rw [landRead_eq_readAt _ _ _ _ hmail hdump, readAt, if_pos hlat]
  simp only [pair64, h, if_true]

/-- The high half of a counter: what the path latched last is returned, and nothing changes (R10). -/
theorem landRead_counter_high (d : Dev) (fn key copy : Nat) {a : Nat} (h : isCtr a = true) :
    landRead d fn key copy (a + 4) = (d, getD d.latch (latchKey key a) 0) := by
  obtain ⟨-, -, hmail, hdump⟩ := isCtr_plain a h
  have hlat : latched a = true := by simp [latched, h]
  rw [landRead_eq_readAt _ _ _ _ hmail hdump, readAt, latched_high a h, Nat.add_sub_cancel]
  simp [hlat]

/-- Settles O10: the low half writes one latch, the high half reads it. -/
theorem counterHalvesAreLatchedPerFunction : Obligations.CounterHalvesAreLatchedPerFunction := by
  unfold Obligations.CounterHalvesAreLatchedPerFunction
  refine ⟨fun s fn addr a copy ha hl hr hctr => ?_, fun s fn addr a copy ha hl hr hctr => ?_⟩
  · refine does_read ha rfl hl hr (landRead_counter_low s.dev fn fn copy hctr) rfl rfl ⟨rfl, ?_, fun k hk => ?_, rfl⟩
    · exact getD_setDef_same s.dev.latch _ _ _
    · exact getD_setDef_ne s.dev.latch _ _ _ hk
  · exact does_read ha rfl hl hr (landRead_counter_high s.dev fn fn copy hctr) rfl rfl ⟨rfl, rfl⟩

/-! ### The record of a bus error -/

/-- An access whose block does not answer is a bus error, whatever its effect would have been (R11, R431). -/
theorem access_blocked {d : Dev} {fn a cause : Nat} (w : Bool) (f : Dev → Dev) (hr : reaches d fn = true)
    (hb : blockCause d (a / 0x100000) = some cause) : access d fn a w f = busFail d fn (a / 0x100000) a w cause := by
  simp only [access, hr, hb, Bool.not_true, Bool.false_eq_true, if_false]

/-- A bus error while the record is VALID sets MORE (R422). -/
theorem busFail_again {d : Dev} (fn ap a : Nat) (w : Bool) (cause : Nat) (h : rdB d Reg.topBuserrLogValid = true) :
    busFail d fn ap a w cause = emit (wr d Reg.topBuserrLogMore 1) (.busError fn a) := by
  simp only [busFail, h, if_true]

/-- The fields of the record of a bus error and their values (R422). -/
def busErrRecord (fn ap a : Nat) (w : Bool) (cause : Nat) : List (Fld × Nat) :=
  [(Reg.topBuserrLogAperture, ap), (Reg.topBuserrLogFunc, fn), (Reg.topBuserrLogWrite, b2n w), (Reg.topBuserrLogCause, cause),
    (Reg.topBuserrLogValid, 1), (Reg.topBuserrAddrLoAddr, a % 2 ^ 32), (Reg.topBuserrAddrHiAddr, a / 2 ^ 32)]

/-- The first bus error writes the record (R422). -/
theorem busFail_first {d : Dev} (fn ap a : Nat) (w : Bool) (cause : Nat) (h : rdB d Reg.topBuserrLogValid = false) :
    busFail d fn ap a w cause = emit (wrs d (busErrRecord fn ap a w cause)) (.busError fn a) := by
  simp only [busFail, h, Bool.false_eq_true, if_false, busErrRecord]

/-- Fields written in turn, all of them among `ks`, leave the other fields as they were. -/
theorem RegsKept.wrs {d e : Dev} {ks : List Nat} (h : RegsKept d e ks) (l : List (Fld × Nat)) (hl : ∀ p ∈ l, p.1.key ∈ ks) :
    RegsKept d (Ops.wrs e l) ks := by
  induction l generalizing e with
  | nil => exact h
  | cons p l ih =>
    exact ih (h.wr p.1 p.2 (hl p (List.mem_cons_self ..))) fun q hq => hl q (List.mem_cons_of_mem _ hq)

theorem wrs_frame (d : Dev) (l : List (Fld × Nat)) : { wrs d l with regs := d.regs } = d := by
  induction l generalizing d with
  | nil => rfl
  | cons p l ih => exact congrArg (fun e : Dev => { e with regs := d.regs }) (ih (wr d p.1 p.2))

theorem rd_wrs_not_mem (d : Dev) (l : List (Fld × Nat)) (f : Fld) (h : ∀ p ∈ l, f.key ≠ p.1.key) : rd (wrs d l) f = rd d f := by
  induction l generalizing d with
  | nil => rfl
  | cons p l ih =>
    exact (ih (wr d p.1 p.2) fun q hq => h q (List.mem_cons_of_mem _ hq)).trans (rd_wr_ne _ _ _ _ (h p (List.mem_cons_self ..)))

/-- Of fields with keys apart that are written in turn each holds its value, cut to its width. -/
theorem rd_wrs_mem (d : Dev) (l : List (Fld × Nat)) (hl : l.Pairwise fun p q => p.1.key ≠ q.1.key) {p : Fld × Nat} (hp : p ∈ l) :
    rd (wrs d l) p.1 = p.2 % 2 ^ p.1.w := by
  induction l generalizing d with
  | nil => cases hp
  | cons q l ih =>
    obtain ⟨apart, hl⟩ := List.pairwise_cons.mp hl
    rcases List.mem_cons.mp hp with rfl | hp
    · exact (rd_wrs_not_mem _ l _ apart).trans (rd_wr_same d p.1 p.2)
    · exact ih (wr d q.1 q.2) hl hp

theorem busErrRecord_keys (fn ap a : Nat) (w : Bool) (cause : Nat) :
    (busErrRecord fn ap a w cause).map (·.1.key) = (busErrRecord 0 0 0 false 0).map (·.1.key) := rfl

/-- The fields of the record have keys apart. -/
theorem busErrRecord_apart (fn ap a : Nat) (w : Bool) (cause : Nat) :
    (busErrRecord fn ap a w cause).Pairwise fun p q => p.1.key ≠ q.1.key := by
  have h : ((busErrRecord fn ap a w cause).map (·.1.key)).Pairwise (· ≠ ·) := by
    rw [busErrRecord_keys]
    decide
  exact List.pairwise_map.mp h

/-- An access by one of the bus commands to a block that does not answer is a bus error and nothing else (R11, R431). -/
theorem exec_blocked {c : Instr} {s : State} {fn : Fn} {addr a copy cause : Nat} {wr : Option Word}
    (hc : c = .gatedBlockAccess fn addr wr ∨ (∃ w, wr = some w ∧ (c = .registerWrite fn addr w ∨ ∃ x, c = .rwsWrite fn addr ⟨w, x⟩)) ∨
      (wr = none ∧ c = .rcRead fn addr))
    (hl : locate s.dev fn addr = .reg a copy) (hr : reaches s.dev fn = true) (hb : blockCause s.dev (a / 0x100000) = some cause) :
    ∃ f, exec c s = run s f ∧ f s.dev = busFail s.dev fn (a / 0x100000) a wr.isSome cause := by
  have write : ∀ data stall, regWrite s.dev fn addr data stall = busFail s.dev fn (a / 0x100000) a true cause := fun data stall => by
    rw [regWrite_reg _ _ hl, access_blocked _ _ hr hb]
  have read : regRead s.dev fn fn addr = busFail s.dev fn (a / 0x100000) a false cause := by
    rw [regRead_reg _ hl, access_blocked _ _ hr hb]
  rcases hc with rfl | ⟨w, rfl, rfl | ⟨x, rfl⟩⟩ | ⟨rfl, rfl⟩
  · cases wr with
    | none => exact ⟨_, exec_eq_regRead s (.inr rfl), read⟩
    | some w => exact ⟨_, exec_eq_regWrite s (.inl ⟨rfl, .inr rfl⟩), write _ _⟩
  · exact ⟨_, exec_eq_regWrite s (.inl ⟨rfl, .inl rfl⟩), write _ _⟩
  · exact ⟨_, exec_eq_regWrite s (.inr rfl), write _ _⟩
  · exact ⟨_, exec_eq_regRead s (.inl rfl), read⟩

/-- A bus error changes register fields and the record of outputs alone. -/
theorem busFail_frame (d : Dev) (fn ap a : Nat) (w : Bool) (cause : Nat) :
    { busFail d fn ap a w cause with regs := d.regs, out := d.out } = d := by
  cases h : rdB d Reg.topBuserrLogValid with
  | true => rw [busFail_again _ _ _ _ _ h]; rfl
  | false =>
    rw [busFail_first _ _ _ _ _ h]
    exact congrArg (fun e : Dev => { e with out := d.out }) (wrs_frame d (busErrRecord fn ap a w cause))

/-- A bus error tells the function that made the access. -/
theorem busFail_out (d : Dev) (fn ap a : Nat) (w : Bool) (cause : Nat) : (busFail d fn ap a w cause).out = .busError fn a :: d.out := by
  cases h : rdB d Reg.topBuserrLogValid with
  | true => rw [busFail_again _ _ _ _ _ h]; rfl
  | false =>
    have out := congrArg Dev.out (wrs_frame d (busErrRecord fn ap a w cause))
    rw [busFail_first _ _ _ _ _ h]
    exact congrArg (_ :: ·) out

/-- After the first bus error each field of the record holds its value, cut to its width (R422). -/
theorem rd_busFail_first {d : Dev} {fn ap a : Nat} {w : Bool} {cause : Nat} (h : rdB d Reg.topBuserrLogValid = false) {p : Fld × Nat}
    (hp : p ∈ busErrRecord fn ap a w cause) : rd (busFail d fn ap a w cause) p.1 = p.2 % 2 ^ p.1.w := by
  rw [busFail_first _ _ _ _ _ h, rd_emit]
  exact rd_wrs_mem d _ (busErrRecord_apart fn ap a w cause) hp

/-- Settles O11: the access is `busFail`, whose record is MORE or the fields of the first bus error. -/
theorem gatedBlockAnswersWithABusError : Obligations.GatedBlockAnswersWithABusError := by
  unfold Obligations.GatedBlockAnswersWithABusError
  intro c s fn addr a copy cause wr hc ha hl hr hb
  obtain ⟨f, he, hf⟩ := exec_blocked hc hl hr hb
  have frame := busFail_frame s.dev fn (a / 0x100000) a wr.isSome cause
  have straps := congrArg Dev.straps frame
  have pins := congrArg Dev.pins frame
  refine does_run' f ha he (by rw [hf]; exact straps) (by rw [hf]; exact pins) ?_
  rw [hf]
  refine ⟨busFail_out .., fun hvalid => ?_, fun hvalid => ?_, frame⟩
  · rw [busFail_again _ _ _ _ _ hvalid]
    exact ⟨by rw [rd_emit, rd_wr_same]; rfl, ((RegsKept.refl _ _).wr _ _ (List.mem_singleton_self _)).of_rd (rd_emit _ _)⟩
  · have val := fun p hp => rd_busFail_first (fn := fn.val) (ap := a / 0x100000) (a := a) (w := wr.isSome) (cause := cause) hvalid (p := p) hp
    simp only [busErrRecord, List.forall_mem_cons] at val
    obtain ⟨aperture, func, write, cause', valid, lo, hi, -⟩ := val
    refine ⟨valid, aperture, func.trans (Nat.mod_eq_of_lt (Nat.lt_trans fn.isLt (by decide))),
      write.trans (by cases wr <;> rfl), cause', lo.trans (Nat.mod_mod _ _), hi, ?_⟩
    rw [busFail_first _ _ _ _ _ hvalid]
    refine ((RegsKept.refl _ _).wrs _ fun p hp => ?_).of_rd (rd_emit _ _)
    have among : ∀ k ∈ (busErrRecord 0 0 0 false 0).map (·.1.key), k ∈ [Reg.topBuserrLogValid, Reg.topBuserrLogAperture,
        Reg.topBuserrLogFunc, Reg.topBuserrLogWrite, Reg.topBuserrLogCause, Reg.topBuserrAddrLoAddr,
        Reg.topBuserrAddrHiAddr].map (·.key) := by decide
    exact among _ (busErrRecord_keys fn (a / 0x100000) a wr.isSome cause ▸ List.mem_map_of_mem hp)

end Sys2Proof.Machine
end

section
/-!
PROOFS. The architecture (01_architecture): every command completes on a device that runs.
-/
namespace Sys2Proof.Machine
open Ops

/-! ### Completion -/

/-- Every command but the edges of the resets has the form of `runAon`: an effect on the device, which the loss of a rail alone stops
(R515). -/
theorem exec_eq_runAon {c : Instr} (s : State) (h : resetEdge c = false) : ∃ f, exec c s = runAon s f := by
  cases c
  case sysRstAssert | sysRstRelease | aonReset | perstAssert | perstRelease => cases h
  all_goals exact ⟨_, by delta exec; exact rfl⟩

/-- The edges of the resets act on every device (R473, R474, R515, R516). -/
theorem exec_resetEdge {c : Instr} (s : State) (h : resetEdge c = true) : ∃ d, exec c s = .next { s with dev := d } := by
  cases c
  case sysRstAssert | sysRstRelease | aonReset | perstAssert | perstRelease => exact ⟨_, rfl⟩
  all_goals cases h

/-- Settles O6: an edge of a reset completes on every device, any other command where no rail is lost. -/
theorem everyCommandCompletes : Obligations.EveryCommandCompletes := by
  unfold Obligations.EveryCommandCompletes
  rintro c s ⟨-, hrail⟩
  cases h : resetEdge c with
  | true =>
    obtain ⟨d, hd⟩ := exec_resetEdge s h
    exact ⟨_, hd, rfl⟩
  | false =>
    obtain ⟨f, hf⟩ := exec_eq_runAon s h
    exact ⟨_, hf.trans (runAon_next s f hrail), rfl⟩

end Sys2Proof.Machine
end

section
/-!
PROOFS. The architecture (01_architecture): what the reports of faults, the messages, the codes of memory and the passes leave of the
traffic: the units in flight and the flow table stay as they are.
-/
namespace Sys2Proof.Machine.Ops

/-! ### What leaves the units in flight and the flow table as they are -/

/-- Effects folded over a list leave the traffic as it is where each of them does. -/
theorem foldl_traffic {α : Type} {f : Dev → α → Dev} (h : ∀ d a, (f d a).units = d.units ∧ (f d a).flw = d.flw)
    (l : List α) (d : Dev) :
    (l.foldl f d).units = d.units ∧ (l.foldl f d).flw = d.flw := by
  induction l generalizing d with
  | nil => exact ⟨rfl, rfl⟩
  | cons a l ih => simp only [List.foldl_cons, ih, h, and_self]

@[simp] theorem wrs_traffic (d : Dev) (l : List (Fld × Nat)) :
    (wrs d l).units = d.units ∧ (wrs d l).flw = d.flw := foldl_traffic (fun d p => by simp) l d

@[simp] theorem meter_traffic (d : Dev) (j n : Nat) : (meter d j n).units = d.units ∧ (meter d j n).flw = d.flw := by
  unfold meter; split <;> simp

@[simp] theorem meters_traffic (d : Dev) (l : List (Nat × Nat)) :
    (meters d l).units = d.units ∧ (meters d l).flw = d.flw := foldl_traffic (fun d p => by simp) l d

/-! The sending of messages on the links. -/

@[simp] theorem setLink_traffic (d : Dev) (l : Nat) (x : Link) : (setLink d l x).units = d.units ∧ (setLink d l x).flw = d.flw := by
  unfold setLink; split <;> simp

@[simp] theorem pump_traffic (l n : Nat) (d : Dev) : (pump l n d).units = d.units ∧ (pump l n d).flw = d.flw := by
  induction n generalizing d with
  | zero => exact ⟨rfl, rfl⟩
  | succ n ih =>
    simp only [pump]
    split
    · simp
    · split <;> simp [ih, emitFlit]

@[simp] theorem sendFrom_traffic (d : Dev) (l ty src dst handle : Nat) (res : Bool) (msg : Bytes) :
    (sendFrom d l ty src dst handle res msg).units = d.units ∧ (sendFrom d l ty src dst handle res msg).flw = d.flw := by
  unfold sendFrom; split <;> simp

@[simp] theorem sendOn_traffic (d : Dev) (l ty dst handle : Nat) (msg : Bytes) :
    (sendOn d l ty dst handle msg).units = d.units ∧ (sendOn d l ty dst handle msg).flw = d.flw :=
  sendFrom_traffic ..

@[simp] theorem sendTo_traffic (d : Dev) (id ty handle : Nat) (msg : Bytes) :
    (sendTo d id ty handle msg).units = d.units ∧ (sendTo d id ty handle msg).flw = d.flw := by
  unfold sendTo; split <;> simp

@[simp] theorem sendAll_traffic (d : Dev) (ty : Nat) (msg : Bytes) :
    (sendAll d ty msg).units = d.units ∧ (sendAll d ty msg).flw = d.flw :=
  foldl_traffic (fun d l => by simp) _ d

@[simp] theorem sendPartner_traffic (d : Dev) (ty : Nat) (msg : Bytes) :
    (sendPartner d ty msg).units = d.units ∧ (sendPartner d ty msg).flw = d.flw := by
  unfold sendPartner; split <;> simp

@[simp] theorem sendMates_traffic (d : Dev) (ty : Nat) (msg : Bytes) :
    (sendMates d ty msg).units = d.units ∧ (sendMates d ty msg).flw = d.flw := by
  unfold sendMates; dsimp only; split <;> split <;> simp

@[simp] theorem answerCoord_traffic (d : Dev) (msg : Bytes) : (answerCoord d msg).units = d.units ∧ (answerCoord d msg).flw = d.flw := by
  unfold answerCoord; split
  · simp
  · split <;> simp

/-! The end of the graft in progress, and the reports of faults. -/

@[simp] theorem countFail_traffic (d : Dev) (code : Nat) : (countFail d code).units = d.units ∧ (countFail d code).flw = d.flw := by
  unfold countFail; split
  · simp
  · split <;> simp

@[simp] theorem portIrq_traffic (d : Dev) (p : Nat) : (portIrq d p).units = d.units ∧ (portIrq d p).flw = d.flw := by
  unfold portIrq; split <;> simp

@[simp] theorem sendReport_traffic (d : Dev) (addr : Nat) (bytes : Bytes) :
    (sendReport d addr bytes).units = d.units ∧ (sendReport d addr bytes).flw = d.flw := by
  unfold sendReport; split <;> simp

@[simp] theorem graftFailed_traffic (d : Dev) (g : Graft) (code item member : Nat) (more : Bytes) :
    (graftFailed d g code item member more).units = d.units ∧ (graftFailed d g code item member more).flw = d.flw := by
  simp only [graftFailed, portIrq_traffic, sendReport_traffic]
  split
  · simp [portFailed]
  · split
    · simp
    · split
      · simp
      · split <;> simp

@[simp] theorem abortSoft_traffic (d : Dev) (code member : Nat) :
    (abortSoft d code member).units = d.units ∧ (abortSoft d code member).flw = d.flw := by
  unfold abortSoft; split
  · simp
  · simp only [clearCur, graftFailed_traffic, abortMates]
    split <;> simp

@[simp] theorem startRemap_traffic (d : Dev) (g : FltGraft) : (startRemap d g).units = d.units ∧ (startRemap d g).flw = d.flw := by
  simp [startRemap]

@[simp] theorem enterHold_traffic (d : Dev) (cls : Nat) : (enterHold d cls).units = d.units ∧ (enterHold d cls).flw = d.flw := by
  simp only [enterHold, tick_units, tick_flw, wrs_traffic]
  split <;> simp

@[simp] theorem degrade_traffic (d : Dev) : (degrade d).units = d.units ∧ (degrade d).flw = d.flw := by
  simp only [degrade]; split <;> simp

@[simp] theorem fltLog_traffic (d : Dev) (cls pool unit action epoch : Nat) :
    (fltLog d cls pool unit action epoch).units = d.units ∧ (fltLog d cls pool unit action epoch).flw = d.flw := by
  simp [fltLog]

@[simp] theorem poolFault_traffic (d : Dev) (code cls pool n unit : Nat) :
    (poolFault d code cls pool n unit).units = d.units ∧ (poolFault d code cls pool n unit).flw = d.flw := by
  simp only [poolFault]
  split
  · simp
  · split
    · simp
    · split <;> simp

@[simp] theorem mediumFault_traffic (d : Dev) (code cls unit : Nat) :
    (mediumFault d code cls unit).units = d.units ∧ (mediumFault d code cls unit).flw = d.flw := by
  simp only [mediumFault]
  split
  · simp
  · split
    · simp
    · split <;> simp

/-- A fault that does not lead to FAILED (R404) discards no unit. -/
theorem faultActs_traffic (d : Dev) (code unit : Nat) {cls : Nat} (h : cls ≤ 10) :
    (faultActs d code cls unit).units = d.units ∧ (faultActs d code cls unit).flw = d.flw := by
  unfold faultActs
  split
  · split <;> simp
  · split
    case h_6 | h_7 => omega
    all_goals simp
    all_goals split <;> simp

@[simp] theorem fault_traffic (d : Dev) (code unit : Nat) {cls : Nat} (h : cls ≤ 10) :
    (fault d code cls unit).units = d.units ∧ (fault d code cls unit).flw = d.flw := by
  unfold fault; split
  · simp
  · exact faultActs_traffic d code unit h

/-! Device memory under the codes. -/

@[simp] theorem startRepair_traffic (d : Dev) (u : Nat) (col : Bool) (idx : Nat) :
    (startRepair d u col idx).units = d.units ∧ (startRepair d u col idx).flw = d.flw := by
  unfold startRepair; split <;> simp

@[simp] theorem noteFix_traffic (d : Dev) (a : Nat) (x : Nat × Nat) : (noteFix d a x).units = d.units ∧ (noteFix d a x).flw = d.flw := by
  simp [noteFix, apply_ite Dev.units, apply_ite Dev.flw]

@[simp] theorem unitLost_traffic (d : Dev) (u : Nat) : (unitLost d u).units = d.units ∧ (unitLost d u).flw = d.flw := by
  unfold unitLost; split
  · simp
  · dsimp only; split <;> simp

@[simp] theorem noteUe_traffic (d : Dev) (a : Nat) : (noteUe d a).units = d.units ∧ (noteUe d a).flw = d.flw := by
  simp only [noteUe]; split <;> simp

@[simp] theorem recordUe_traffic (d : Dev) (a src ueWords : Nat) :
    (recordUe d a src ueWords).units = d.units ∧ (recordUe d a src ueWords).flw = d.flw := by
  simp only [recordUe]; split <;> simp

@[simp] theorem recordCe_traffic (d : Dev) (b src : Nat) (r : BlkRead) :
    (recordCe d b src r).units = d.units ∧ (recordCe d b src r).flw = d.flw := by
  have fixes := fun d => foldl_traffic (f := fun d x => noteFix d b x) (fun d x => by simp) r.fixes d
  simp only [recordCe, each, fixes]
  split <;> split <;> simp

@[simp] theorem readLines_traffic (d : Dev) (b src : Nat) (lines : List Nat) :
    (readLines d b src lines).1.units = d.units ∧ (readLines d b src lines).1.flw = d.flw := by
  unfold readLines; split
  · simp
  · split
    · simp
    · rename_i e _
      have ues := fun l d => foldl_traffic (f := fun d j => recordUe d (128 * b + 32 * j) src (blkDecode e).ueWords)
        (fun d j => by simp) l d
      dsimp only
      split <;> split <;> simp [each, ues]

@[simp] theorem writeBlock_traffic (d : Dev) (b a : Nat) (bs : Bytes) :
    (writeBlock d b a bs).1.units = d.units ∧ (writeBlock d b a bs).1.flw = d.flw := by
  have lost := fun l d => foldl_traffic (f := fun d j => tick d (unitCtr Ctr.memPartialUe (unitAt d (128 * b + 32 * j))))
    (fun d j => by simp) l d
  unfold writeBlock; dsimp only; split
  · simp
  · split <;> split <;> simp [each, lost]

@[simp] theorem codeWrite_traffic (d : Dev) (a : Nat) (bs : Bytes) :
    (codeWrite d a bs).1.units = d.units ∧ (codeWrite d a bs).1.flw = d.flw := by
  have h : ∀ (l : List Nat) (x : Dev × List (Nat × Bytes)),
      (l.foldl (fun x b => let r := writeBlock x.1 b a bs; (r.1, x.2 ++ r.2)) x).1.units = x.1.units ∧
      (l.foldl (fun x b => let r := writeBlock x.1 b a bs; (r.1, x.2 ++ r.2)) x).1.flw = x.1.flw := by
    intro l
    induction l with
    | nil => intro x; exact ⟨rfl, rfl⟩
    | cons b l ih => intro x; simp [ih]
  exact h _ _

/-! The conversions and the layers of a pass. -/

@[simp] theorem recordFault_traffic (d : Dev) (m : Model) (pipe : Nat) (f : Option PassFault) :
    (recordFault d m pipe f).units = d.units ∧ (recordFault d m pipe f).flw = d.flw := by
  unfold recordFault; split
  · unfold recordError; split <;> simp
  · simp

@[simp] theorem mirrorScale_traffic (d : Dev) (pipe slot t : Nat) (s : Int) :
    (mirrorScale d pipe slot t s).units = d.units ∧ (mirrorScale d pipe slot t s).flw = d.flw := by
  unfold mirrorScale; split <;> simp

@[simp] theorem scaleEnd_traffic (d : Dev) (pipe slot t : Nat) (r : TensorRec) :
    (scaleEnd d pipe slot t r).1.units = d.units ∧ (scaleEnd d pipe slot t r).1.flw = d.flw := by
  unfold scaleEnd; split
  · simp
  · split
    · simp
    · dsimp only; split <;> split <;> simp

@[simp] theorem convVec_traffic (d : Dev) (m : Model) (pipe slot t : Nat) (src : List (Option Num)) :
    (convVec d m pipe slot t src).1.units = d.units ∧ (convVec d m pipe slot t src).1.flw = d.flw := by
  simp [convVec]

@[simp] theorem convState_traffic (d : Dev) (m : Model) (pipe t : Nat) (src : List Num) :
    (convState d m pipe t src).1.units = d.units ∧ (convState d m pipe t src).1.flw = d.flw := by
  simp [convState]

@[simp] theorem inputVec_traffic (e : Env) (m : Model) (pipe slot : Nat) (fs : Map Nat) (st : StateIn) (t : Nat) (feats : List Nat) :
    (inputVec e m pipe slot fs st t feats).1.d.units = e.d.units ∧ (inputVec e m pipe slot fs st t feats).1.d.flw = e.d.flw := by
  simp only [inputVec]; split
  · simp
  · split
    · split <;> simp
    · split <;> simp

@[simp] theorem layerIn_traffic (e : Env) (m : Model) (pipe slot : Nat) (fs : Map Nat) (st : StateIn) (l : Layer) :
    (layerIn e m pipe slot fs st l).1.d.units = e.d.units ∧ (layerIn e m pipe slot fs st l).1.d.flw = e.d.flw := by
  unfold layerIn; dsimp only; split <;> simp

@[simp] theorem layerOut_traffic (e : Env) (l : Layer) (x : TVec) :
    (layerOut e l x).1.d.units = e.d.units ∧ (layerOut e l x).1.d.flw = e.d.flw := by
  simp [layerOut]

@[simp] theorem runLayer_traffic (e : Env) (m : Model) (pipe slot : Nat) (fs : Map Nat) (st : StateIn) (l : Layer) (o : Outcome) :
    (runLayer e m pipe slot fs st l o).1.d.units = e.d.units ∧ (runLayer e m pipe slot fs st l o).1.d.flw = e.d.flw := by
  unfold runLayer; dsimp only; split
  · split <;> simp
  · simp

@[simp] theorem runLayers_traffic (w : Work) (m : Model) (pipe slot : Nat) (fs : Map Nat) (st : StateIn) (idx : List Nat) :
    (runLayers w m pipe slot fs st idx).e.d.units = w.e.d.units ∧ (runLayers w m pipe slot fs st idx).e.d.flw = w.e.d.flw := by
  have h : ∀ (l : List Nat) (a : Env × Outcome),
      (l.foldl (fun (a : Env × Outcome) i =>
        let l := m.layers.getD i default
        if l.type ≠ 0 then a else runLayer a.1 m pipe slot fs st l a.2) a).1.d.units = a.1.d.units ∧
      (l.foldl (fun (a : Env × Outcome) i =>
        let l := m.layers.getD i default
        if l.type ≠ 0 then a else runLayer a.1 m pipe slot fs st l a.2) a).1.d.flw = a.1.d.flw := by
    intro l
    induction l with
    | nil => intro a; exact ⟨rfl, rfl⟩
    | cons i l ih =>
      intro a
      simp only [List.foldl_cons, ih]
      split <;> simp
  exact h idx (w.e, w.out)

@[simp] theorem runEnsemble_traffic (w : Work) (m : Model) (pipe slot : Nat) (e : Ensemble) (fs : Map Nat) (carried : List Int)
    (part : Bool) :
    (runEnsemble w m pipe slot e fs carried part).e.d.units = w.e.d.units ∧
      (runEnsemble w m pipe slot e fs carried part).e.d.flw = w.e.d.flw := by
  unfold runEnsemble; split
  · simp
  · dsimp only; split <;> simp

@[simp] theorem passStart_traffic (d : Dev) (m : Model) (pipe slot : Nat) (ps : PassSec) (fs : Map Nat) (st : StateIn) (carried : List Int)
    (part : Bool) (vecs : Map TVec) :
    (passStart d m pipe slot ps fs st carried part vecs).e.d.units = d.units ∧
      (passStart d m pipe slot ps fs st carried part vecs).e.d.flw = d.flw := by
  unfold passStart; dsimp only
  split
  · split <;> split <;> simp
  · simp

@[simp] theorem passRest_traffic (w : Work) (m : Model) (pipe slot : Nat) (ps : PassSec) (fs : Map Nat) (st : StateIn) :
    (passRest w m pipe slot ps fs st).e.d.units = w.e.d.units ∧ (passRest w m pipe slot ps fs st).e.d.flw = w.e.d.flw := by
  unfold passRest; split
  · split <;> simp
  · simp

@[simp] theorem runTurn_traffic (w : Work) (m : Model) (t : TurnDesc) (pipe slot : Nat) (fs : Map Nat) (old : Bytes) :
    (runTurn w m t pipe slot fs old).1.e.d.units = w.e.d.units ∧ (runTurn w m t pipe slot fs old).1.e.d.flw = w.e.d.flw := by
  unfold runTurn; split <;> simp

end Sys2Proof.Machine.Ops
end

section
/-!
PROOFS. The architecture (01_architecture): the step of one unit in flight, and the start of its turn (R106, R211).
-/
namespace Sys2Proof.Machine
open Ops

namespace Ops

/-! ### One unit in flight -/

theorem unit?_of_units {d e : Dev} (h : e.units = d.units) (u : Nat) : unit? e u = unit? d u := by simp only [unit?, h]

/-- A unit that is changed in place. -/
theorem unit?_modUnit {d : Dev} {u : Nat} {r : UnitRec} (f : UnitRec → UnitRec) (h : unit? d u = some r) :
    unit? (modUnit d u f) u = some (f r) := by
  have h' : find? d.units u = some r := h
  simp only [unit?, modUnit, modify, h', find?_set_same]

/-- The step of a unit in flight, with its charge. -/
theorem forUnit_eq {d : Dev} {u : Nat} {r : UnitRec} (f : Dev → UnitRec → Dev) (h : unit? d u = some r) :
    forUnit d u f = modUnit (f d r) u fun q => { q with energy := q.energy + ((f d r).sgn.d - d.sgn.d) } := by
  simp only [forUnit, chargedTo, withUnit, h]

theorem forUnit_flw {d : Dev} {u : Nat} {r : UnitRec} (f : Dev → UnitRec → Dev) (h : unit? d u = some r) :
    (forUnit d u f).flw = (f d r).flw := by
  rw [forUnit_eq f h, modUnit_flw]

/-- After its step a unit is as the step has left it, but for the charge (R442). -/
theorem unit?_forUnit {d : Dev} {u : Nat} {r q : UnitRec} (f : Dev → UnitRec → Dev) (h : unit? d u = some r)
    (hq : unit? (f d r) u = some q) : ∃ n, unit? (forUnit d u f) u = some { q with energy := q.energy + n } := by
  rw [forUnit_eq f h]
  exact ⟨_, unit?_modUnit _ hq⟩

/-- Two steps that do the same to the unit. -/
theorem forUnit_congr {d : Dev} {u : Nat} {r : UnitRec} {f g : Dev → UnitRec → Dev} (h : unit? d u = some r) (hf : f d r = g d r) :
    forUnit d u f = forUnit d u g := by
  rw [forUnit_eq f h, forUnit_eq g h, hf]

/-- A step that does nothing charges nothing. -/
theorem unit?_forUnit_idle {d : Dev} {u : Nat} {r : UnitRec} (f : Dev → UnitRec → Dev) (h : unit? d u = some r) (hf : f d r = d) :
    unit? (forUnit d u f) u = some r := by
  rw [forUnit_eq f h, hf, unit?_modUnit _ h, Nat.sub_self]
  rfl

/-- An entry of a map that a rewriting of the entries leaves as it is. -/
theorem find?_map_of_eq {α : Type} {m : Map α} {g : Nat × α → Nat × α} {k : Nat} {v : α}
    (key : ∀ p, (g p).1 = p.1) (h : find? m k = some v)
    (hv : g (k, v) = (k, v)) : find? (m.map g) k = some v := by
  induction m with
  | nil => exact h
  | cons p m ih =>
    obtain ⟨i, w⟩ := p
    have hi := key (i, w)
    by_cases hk : i = k
    · subst hk
      simp only [find?, if_true] at h
      cases h
      rw [List.map_cons, hv]
      simp only [find?, if_true]
    · simp only [find?, hk, if_false] at h
      rw [List.map_cons]
      simp only [find?, hi, hk, if_false]
      exact ih h

/-- A unit that waits for no state takes none (R106). -/
theorem unit?_settle {d : Dev} {u : Nat} {r : UnitRec} (i : Nat) (h : unit? d u = some r) (hr : r.readOf = none) :
    unit? (settle d i) u = some r := by
  refine find?_map_of_eq (fun p => ?_) h ?_
  · split
    · split <;> rfl
    · rfl
  · simp [hr]

theorem unit?_dropPend {d : Dev} {u v i : Nat} {r : UnitRec} (h : unit? d u = some r) (hr : r.readOf = none) :
    unit? (dropPend d i v) u = some r := unit?_settle i h hr

/-- No write of the unit is pending on the entry. -/
abbrev NonePending (d : Dev) (i u : Nat) : Prop := ∀ w ∈ getD d.flw.pend i [], w.unit ≠ u

theorem nonePending_dropPend (d : Dev) (i u : Nat) : NonePending (dropPend d i u) i u := by
  intro w hw
  have hw' : w ∈ getD (set d.flw.pend i ((getD d.flw.pend i []).filter fun w => w.unit != u)) i [] := hw
  rw [getD_set_same] at hw'
  simpa using (List.mem_filter.mp hw').2

/-! ### The turn of a unit -/

theorem noTurn_ents (d : Dev) (u : Nat) (r : UnitRec) : (noTurn d u r).flw.ents = d.flw.ents := by
  unfold noTurn; split <;> rfl

theorem unit?_noTurn {d : Dev} {u : Nat} {q : UnitRec} (r : UnitRec) (h : unit? d u = some q) (hq : q.readOf = none) :
    unit? (noTurn d u r) u = some q := by
  unfold noTurn; split
  · exact unit?_dropPend h hq
  · exact h

theorem nonePending_noTurn (d : Dev) (u : Nat) {r : UnitRec} {i g : Nat} (h : r.entry = some (i, g)) : NonePending (noTurn d u r) i u := by
  simp only [noTurn, h]
  exact nonePending_dropPend d i u

/-- The turn of a unit that stops before it computes: nothing will land (R223). -/
def stopTurn (d : Dev) (u : Nat) (r : UnitRec) (old : Bytes) : Dev :=
  modUnit (noTurn d u r) u fun q => { q with stage := .turning, failed := true, carry := old }

/-- The step of a turn whose read time has come, from the old state (R106, R211, R223). -/
def turnBegun (d : Dev) (u : Nat) (r : UnitRec) (m : Model) (t : TurnDesc) (old : Bytes) (f : Option PassFault) : Dev :=
  if (lost d r m).1 then stopTurn d u r old
  else match f with
    | some (.lane l) =>
      fault (stopTurn (tick d Ctr.mxtTurnFault) u r old) 4 4 (4 * r.pipe + physOf d (18 + r.pipe) (l % 4))
    | some (.unit k) => engineFault (stopTurn d u r old) m k
    | _ => turnRun (modUnit (recordFault d m r.pipe f) u fun q => { q with carry := old }) u r m t old

theorem turnStart_eq {d : Dev} {u x : Nat} {r : UnitRec} {granted : Bool} {m : Model} {t : TurnDesc} {old : Bytes} (f : Option PassFault)
    (hu : unit? d u = some r) (hx : r.turn = some (x, granted)) (hm : modelOf d r.epoch r.slot0 = some m) (ht : m.turn = some t)
    (hs : r.stage = .featured) (hp : r.pass = 0) (hmv : moving d = true) (hnow : x + turnDelay d ≤ now d)
    (ho : oldState d r x = some old) :
    turnStart d u f = forUnit d u fun _ _ => turnBegun d u r m t old f := by
  have begins : ¬(r.stage ≠ .featured ∨ r.pass ≠ 0 ∨ (!moving d) = true ∨ now d < x + turnDelay d) := by
    simp [hs, hp, hmv, hnow]
  refine forUnit_congr hu ?_
  simp only [hx, hm, ho, ht, if_neg begins, turnBegun]
  cases f with
  | none => simp only [recordFault, stopTurn]
  | some f => cases f <;> simp only [recordFault, stopTurn]

/-- A turn that stops leaves its unit failed, with the old state and no write to come. -/
theorem stopTurn_spec {d : Dev} {u : Nat} {r : UnitRec} (old : Bytes) (h : unit? d u = some r) (hr : r.readOf = none) :
    unit? (stopTurn d u r old) u = some { r with stage := .turning, failed := true, carry := old } ∧
      (stopTurn d u r old).flw.ents = d.flw.ents ∧ ∀ i g, r.entry = some (i, g) → NonePending (stopTurn d u r old) i u :=
  ⟨unit?_modUnit _ (unit?_noTurn r h hr), noTurn_ents d u r, fun _ _ he => nonePending_noTurn d u he⟩

@[simp] theorem engineFault_traffic (d : Dev) (m : Model) (k : Nat) :
    (engineFault d m k).units = d.units ∧ (engineFault d m k).flw = d.flw := by
  unfold engineFault; split
  · simp
  · split <;> simp

/-- What a pass has computed, in the unit (R21, R214). -/
theorem storeWork_spec {u : Nat} {r : UnitRec} (m : Model) {w : Work} (st : Stage) (h : unit? w.e.d u = some r) :
    (storeWork u m w st).flw = w.e.d.flw ∧ ∃ q, unit? (storeWork u m w st) u = some q ∧ q.stage = st ∧
      q.failed = (r.failed || w.broken) ∧ q.res = (if w.broken then .none else passRes m w) ∧ q.vecs = w.e.vecs ∧
      q.carry = r.carry ∧ q.readOf = r.readOf := by
  have stored : unit? (meters w.e.d w.e.evts) u = some r := (unit?_of_units (meters_traffic _ _).1 u).trans h
  refine ⟨by simp [storeWork], _, unit?_modUnit _ stored, ?_⟩
  cases w.e.sat <;> simp [flagOr]

theorem runTurn_broken (w : Work) (m : Model) (t : TurnDesc) (pipe slot : Nat) (fs : Map Nat) (old : Bytes) :
    (runTurn w m t pipe slot fs old).1.broken = w.broken := by
  unfold runTurn; split <;> rfl

/-- The write of a granted turn has its value (R211). -/
def grantTurn (d : Dev) (u i : Nat) (new : Bytes) : Dev :=
  settle { d with flw := { d.flw with pend := set d.flw.pend i ((getD d.flw.pend i []).map fun p =>
    if p.unit = u then { p with val := some new } else p) } } i

theorem pend_grantTurn {d : Dev} {u i : Nat} {new : Bytes} {p : PendWr} (hp : p ∈ getD (grantTurn d u i new).flw.pend i [])
    (hu : p.unit = u) : p.val = some new := by
  have hp' : p ∈ getD (set d.flw.pend i ((getD d.flw.pend i []).map fun p =>
      if p.unit = u then { p with val := some new } else p)) i [] := hp
  rw [getD_set_same] at hp'
  obtain ⟨w, -, rfl⟩ := List.mem_map.mp hp'
  split at hu <;> simp_all

/-- A unit with what its turn has computed (R211, R215). -/
def turned (r : UnitRec) (old new : Bytes) (poison : Bool) (q : UnitRec) : UnitRec :=
  { q with state := new, poisonState := poison, carry := if r.turn.any (·.2) then new else old }

/-- What a turn has computed in its unit, and in the write that lands where the turn was granted. -/
def endTurnRun (d : Dev) (u : Nat) (r : UnitRec) (old new : Bytes) (poison : Bool) : Dev :=
  match r.entry, r.turn.any (·.2) with
  | some (i, _), true => grantTurn (modUnit d u (turned r old new poison)) u i new
  | _, _ => modUnit d u (turned r old new poison)

theorem endTurnRun_spec {d : Dev} {u : Nat} {r q : UnitRec} (old new : Bytes) (poison : Bool) (h : unit? d u = some q)
    (hr : q.readOf = none) :
    (endTurnRun d u r old new poison).flw.ents = d.flw.ents ∧
    unit? (endTurnRun d u r old new poison) u = some (turned r old new poison q) ∧
    (r.turn.any (·.2) = true → ∀ i g, r.entry = some (i, g) →
      ∀ p ∈ getD (endTurnRun d u r old new poison).flw.pend i [], p.unit = u → p.val = some new) := by
  have hq := unit?_modUnit (turned r old new poison) h
  unfold endTurnRun
  split
  next i g he hg => exact ⟨rfl, unit?_settle i hq hr, fun _ j g' hj => by cases he.symm.trans hj; exact fun p => pend_grantTurn⟩
  next hno => exact ⟨rfl, hq, fun hg i g he => (hno i g he hg).elim⟩

theorem turnRun_computed {d : Dev} {u : Nat} {r : UnitRec} {m : Model} {t : TurnDesc} {old : Bytes} {w : Work}
    (hw : passStart d m r.pipe r.slot (passSec m r.pass) r.feats ⟨old, false⟩ r.carried (partMargins d r m) r.vecs = w)
    (hb : w.broken = false) :
    turnRun d u r m t old =
      let x := runTurn w m t r.pipe r.slot r.feats old
      endTurnRun (storeWork u m x.1 .turning) u r old x.2.1 x.2.2 := by
  simp only [turnRun, hw, hb, Bool.false_eq_true, if_false, endTurnRun, grantTurn]
  rfl

theorem turnRun_spec {d : Dev} {u : Nat} {r q : UnitRec} (m : Model) (t : TurnDesc) (old : Bytes)
    (h : unit? d u = some q) (hr : q.readOf = none) (hf : q.failed = false) :
    let w := passStart d m r.pipe r.slot (passSec m r.pass) r.feats ⟨old, false⟩ r.carried (partMargins d r m) r.vecs
    let new := (runTurn w m t r.pipe r.slot r.feats old).2.1
    (turnRun d u r m t old).flw.ents = d.flw.ents ∧ ∃ q, unit? (turnRun d u r m t old) u = some q ∧ q.stage = .turning ∧
      (w.broken = true → q.failed = true ∧ ∀ i g, r.entry = some (i, g) → NonePending (turnRun d u r m t old) i u) ∧
      (w.broken = false → q.failed = false ∧ q.state = new ∧ q.carry = (if r.turn.any (·.2) then new else old) ∧
        (r.turn.any (·.2) = true → ∀ i g, r.entry = some (i, g) →
          ∀ p ∈ getD (turnRun d u r m t old).flw.pend i [], p.unit = u → p.val = some new)) := by
  intro w new
  have hw : unit? w.e.d u = some q := (unit?_of_units (passStart_traffic ..).1 u).trans h
  cases hb : w.broken with
  | true =>
    have he : turnRun d u r m t old = noTurn (storeWork u m w .turning) u r := by
      simp only [turnRun]
      rw [if_pos hb]
    obtain ⟨flw, q', hq', stage, failed, -, -, -, readOf⟩ := storeWork_spec m .turning hw
    rw [he]
    refine ⟨by rw [noTurn_ents, flw]; simp [w], q', unit?_noTurn r hq' (readOf.trans hr), stage,
      fun _ => ⟨?_, fun _ _ h => nonePending_noTurn _ _ h⟩, nofun⟩
    rw [failed, hb, Bool.or_true]
  | false =>
    have hx : unit? (runTurn w m t r.pipe r.slot r.feats old).1.e.d u = some q := (unit?_of_units (runTurn_traffic ..).1 u).trans hw
    obtain ⟨flw, q', hq', stage, failed, -, -, -, readOf⟩ := storeWork_spec m .turning hx
    obtain ⟨ents, unit, lands⟩ := endTurnRun_spec (r := r) old new (runTurn w m t r.pipe r.slot r.feats old).2.2 hq' (readOf.trans hr)
    rw [turnRun_computed rfl hb]
    have sound : q'.failed = false := by rw [failed, hf, runTurn_broken, hb, Bool.or_false]
    exact ⟨by rw [ents, flw]; simp [w], _, unit, stage, nofun, fun _ => ⟨sound, rfl, rfl, lands⟩⟩

end Ops
end Sys2Proof.Machine
end

section
/-!
PROOFS. The architecture (01_architecture): a turn that stops and a turn that runs (R21, R177, R223).
-/
namespace Sys2Proof.Machine
open Ops
namespace Ops

/-! ### What the report of a fault leaves -/

/-- The fault log is kept in registers of FLT (R408): the group that the device belongs to stays. -/
theorem fltLog_group (d : Dev) (cls pool unit action epoch : Nat) :
    let e := fltLog d cls pool unit action epoch
    e.clk = d.clk ∧ e.cfg = d.cfg ∧ e.straps = d.straps ∧ rd e Reg.trlCfgEnable = rd d Reg.trlCfgEnable := by
  have frame := fun l => wrs_frame d l
  have clk := fun l => congrArg Dev.clk (frame l)
  have cfg := fun l => congrArg Dev.cfg (frame l)
  have straps := fun l => congrArg Dev.straps (frame l)
  dsimp only at clk cfg straps
  refine ⟨by simp [fltLog, clk], by simp [fltLog, cfg], by simp [fltLog, straps], ?_⟩
  simp only [fltLog, rd_irq, rd_tick]
  refine rd_wrs_not_mem d _ _ ?_
  simp [Fld.at, Reg.trlCfgEnable, Reg.fltLogWord, Reg.fltLogHeadSeq, Reg.fltStatFaultPend]
  omega

/-- An error in a tensor's record (R166) leaves the group that the device belongs to. -/
theorem recordFault_group (d : Dev) (m : Model) (pipe : Nat) (f : Option PassFault) :
    let e := recordFault d m pipe f
    e.clk = d.clk ∧ e.cfg = d.cfg ∧ e.straps = d.straps ∧ rd e Reg.trlCfgEnable = rd d Reg.trlCfgEnable := by
  unfold recordFault; split
  · unfold recordError; split
    · unfold fault; split
      · exact fltLog_group ..
      · exact fltLog_group ..
    · exact ⟨rfl, rfl, rfl, rfl⟩
  · exact ⟨rfl, rfl, rfl, rfl⟩

/-- Whether margins are a part depends on the member's place in the group alone (R378). -/
theorem partMargins_congr {d e : Dev} (r : UnitRec) (m : Model) (hclk : e.clk = d.clk) (hcfg : e.cfg = d.cfg)
    (hstraps : e.straps = d.straps) (hen : rd e Reg.trlCfgEnable = rd d Reg.trlCfgEnable) : partMargins e r m = partMargins d r m := by
  have group : inGroup e = inGroup d := by simp only [inGroup, gateOn, gate, rdB, hclk, hen]
  have id : ownId e = ownId d := by simp only [ownId, hstraps]
  have next : nextStage e r m = nextStage d r m := by simp only [nextStage, group, id, hcfg]
  simp only [partMargins, next]

theorem partMargins_recordFault (d : Dev) (r : UnitRec) (m : Model) (pipe : Nat) (f : Option PassFault) :
    partMargins (recordFault d m pipe f) r m = partMargins d r m := by
  obtain ⟨hclk, hcfg, hstraps, hen⟩ := recordFault_group d m pipe f
  exact partMargins_congr r m hclk hcfg hstraps hen

/-! ### The turn of a unit, stopped or run -/

/-- The turn of the unit has stopped: no result, the old state, no write to come (R223). -/
def TurnStopped (d e : Dev) (u : Nat) (r : UnitRec) (old : Bytes) : Prop :=
  e.flw.ents = d.flw.ents ∧ (∃ q, unit? e u = some q ∧ q.stage = .turning ∧ q.failed = true ∧ q.carry = old) ∧
    ∀ i g, r.entry = some (i, g) → NonePending e i u

theorem turnStopped_stopTurn {d e : Dev} {u : Nat} {r : UnitRec} (old : Bytes) (h : unit? d u = some r) (hr : r.readOf = none)
    (he : e.units = (stopTurn d u r old).units ∧ e.flw = (stopTurn d u r old).flw) : TurnStopped d e u r old := by
  obtain ⟨unit, ents, none'⟩ := stopTurn_spec old h hr
  obtain ⟨units, flw⟩ := he
  refine ⟨by rw [flw, ents], ⟨_, (unit?_of_units units u).trans unit, rfl, rfl, rfl⟩, ?_⟩
  unfold NonePending at none' ⊢
  rwa [flw]

/-- A turn stops where its result is lost, and where a turn lane or a scheduled unit fails (R21, R223). -/
theorem turnBegun_stops {d : Dev} {u : Nat} {r : UnitRec} {m : Model} (t : TurnDesc) (old : Bytes) {f : Option PassFault}
    (hu : unit? d u = some r) (hr : r.readOf = none)
    (h : (lost d r m).1 = true ∨ (∃ l, f = some (.lane l)) ∨ ∃ k, f = some (.unit k)) :
    TurnStopped d (turnBegun d u r m t old f) u r old := by
  unfold turnBegun
  split
  · exact turnStopped_stopTurn old hu hr ⟨rfl, rfl⟩
  next hl =>
    rcases h with h | ⟨l, rfl⟩ | ⟨k, rfl⟩
    · exact (hl h).elim
    · exact turnStopped_stopTurn (d := tick d Ctr.mxtTurnFault) old hu hr (fault_traffic _ _ _ (by decide))
    · exact turnStopped_stopTurn old hu hr (engineFault_traffic ..)

theorem turnBegun_runs {d : Dev} {u : Nat} {r : UnitRec} {m : Model} (t : TurnDesc) (old : Bytes) {f : Option PassFault}
    (h : ¬((lost d r m).1 = true ∨ (∃ l, f = some (.lane l)) ∨ ∃ k, f = some (.unit k))) :
    turnBegun d u r m t old f = turnRun (modUnit (recordFault d m r.pipe f) u fun q => { q with carry := old }) u r m t old := by
  simp only [not_or] at h
  obtain ⟨sound, lane, unit⟩ := h
  unfold turnBegun
  rw [if_neg sound]
  split
  next l => exact (lane ⟨l, rfl⟩).elim
  next k => exact (unit ⟨k, rfl⟩).elim
  next => rfl

/-- A failed unit has no result to wait for (R21). -/
theorem failed_of_lost {d : Dev} {r : UnitRec} {m : Model} (h : ¬(lost d r m).1 = true) : r.failed = false := by
  cases hf : r.failed with
  | false => rfl
  | true => exact (h (by simp [lost, hf])).elim

end Ops

theorem turnBegun_spec {d : Dev} {u : Nat} {f : Option PassFault} {r : UnitRec} {x : Nat} {granted : Bool} {m : Model}
    {t : TurnDesc} {old : Bytes} (hr : unit? d u = some r) (hx : r.turn = some (x, granted)) (hread : r.readOf = none) :
    let none' := fun d : Dev => ∀ i g, r.entry = some (i, g) → ∀ w ∈ Ops.getD d.flw.pend i [], w.unit ≠ u
    let stops := (Ops.lost d r m).1 = true ∨ (∃ l, f = some (.lane l)) ∨ ∃ k, f = some (.unit k)
    let y := Ops.modUnit (Ops.recordFault d m r.pipe f) u fun q => { q with carry := old }
    let w := Ops.passStart y m r.pipe r.slot (Ops.passSec m r.pass) r.feats ⟨old, false⟩ r.carried (Ops.partMargins d r m) r.vecs
    let new := (Ops.runTurn w m t r.pipe r.slot r.feats old).2.1
    let e := turnBegun d u r m t old f
    e.flw.ents = d.flw.ents ∧ ∃ q, unit? e u = some q ∧ q.stage = .turning ∧
      (stops → q.failed = true ∧ q.carry = old ∧ none' e) ∧ (¬stops → w.broken = true → q.failed = true ∧ none' e) ∧
      (¬stops → w.broken = false → q.failed = false ∧ q.state = new ∧
        q.carry = (if granted then new else old) ∧
        (granted = true → ∀ i g, r.entry = some (i, g) → ∀ p ∈ Ops.getD e.flw.pend i [], p.unit = u → p.val = some new)) := by
  intro none' stops y w new e
  by_cases h : stops
  · obtain ⟨ents, ⟨q, hq, stage, failed, carry⟩, none''⟩ := turnBegun_stops t old hr hread h
    exact ⟨ents, q, hq, stage, fun _ => ⟨failed, carry, none''⟩, fun hn => (hn h).elim, fun hn => (hn h).elim⟩
  · have hy : unit? y u = some { r with carry := old } :=
      unit?_modUnit _ ((unit?_of_units (recordFault_traffic d m r.pipe f).1 u).trans hr)
    have part : partMargins y r m = partMargins d r m := partMargins_recordFault d r m r.pipe f
    have hany : r.turn.any (·.2) = granted := by rw [hx]; rfl
    obtain ⟨ents, q, hq, stage, broke, ran⟩ := turnRun_spec (r := r) m t old hy hread (failed_of_lost fun hl => h (.inl hl))
    rw [part, hany] at ran
    rw [part] at broke
    rw [← turnBegun_runs t old h] at ents hq broke ran
    have same : y.flw.ents = d.flw.ents := congrArg Flw.ents (recordFault_traffic d m r.pipe f).2
    exact ⟨ents.trans same, q, hq, stage, fun hs => (h hs).elim, fun _ => broke, fun _ => ran⟩

end Sys2Proof.Machine
end

section
/-!
PROOFS. The architecture (01_architecture): the landing of a granted write (R106, R108), and the step of a pass that is ready (R21).
-/
namespace Sys2Proof.Machine
open Ops
namespace Ops

/-! ### Whole entries written where memory is served as it stands -/

theorem leBytes_length (n x : Nat) : (leBytes n x).length = n := by
  induction n generalizing x with
  | zero => rfl
  | succ n ih => rw [leBytes, List.length_cons, ih]

theorem padTo_length (n : Nat) (b : Bytes) : (padTo n b).length = n := by
  simp only [padTo, slice, List.drop_zero, List.length_append, List.length_replicate, List.length_take]
  omega

theorem entBytes_length (e : FlowEnt) : (entBytes e).length = 128 := by
  simp only [entBytes, List.length_append, leBytes_length, padTo_length, zeros, List.length_replicate]

/-- A write to memory that is served as it stands lands, and changes nothing in the codes (R327). -/
theorem codeWrite_plain {d : Dev} {a : Nat} {bs : Bytes} (h : Lands d a bs.length) (hb : 0 < bs.length) :
    (codeWrite d a bs).1 = d ∧ (codeWrite d a bs).2 ≠ [] := by
  obtain ⟨blocks, arm⟩ := h
  have code : ∀ (l : List Nat) (q : List (Nat × Bytes)), (∀ b ∈ l, served d (128 * b) = true ∧ find? d.mem.blk b = none) →
      l.foldl (fun x b => let r := writeBlock x.1 b a bs; (r.1, x.2 ++ r.2)) (d, q) =
        (d, q ++ l.flatMap fun b => (writeBlock d b a bs).2) := by
    intro l
    induction l with
    | nil => intro q _; simp
    | cons b l ih =>
      intro q hl
      obtain ⟨hs, hf⟩ := hl b List.mem_cons_self
      have same : (writeBlock d b a bs).1 = d := by rw [writeBlock_plain d b a bs hs hf arm]
      rw [List.foldl_cons]
      show List.foldl _ ((writeBlock d b a bs).1, q ++ (writeBlock d b a bs).2) l = _
      rw [same, ih _ fun c hc => hl c (List.mem_cons_of_mem _ hc), List.flatMap_cons, List.append_assoc]
  have first : a / 128 ∈ blocksOf a bs.length := by
    rw [blocksOf, if_neg (by omega)]
    exact List.mem_map.mpr ⟨0, List.mem_range.mpr (by omega), rfl⟩
  obtain ⟨hs, hf⟩ := blocks _ first
  have lands : (writeBlock d (a / 128) a bs).2 ≠ [] := by
    rw [writeBlock_plain d _ a bs hs hf arm]
    have line : a % 128 / 32 ∈ (List.range 4).filter fun j =>
        decide (128 * (a / 128) + 32 * j < a + bs.length ∧ a < 128 * (a / 128) + 32 * j + 32) := by
      simp only [List.mem_filter, List.mem_range, decide_eq_true_eq]
      omega
    exact List.ne_nil_of_mem (List.mem_map_of_mem line)
  rw [codeWrite, code _ _ blocks]
  refine ⟨rfl, fun hn => lands ?_⟩
  exact List.flatMap_eq_nil_iff.mp hn _ first

theorem putEnt_lands {d : Dev} {i : Nat} (e : FlowEnt) (h : EntLands d i) : putEnt d i e = setEnt d i e := by
  have land : Lands d (entAddr d i) (entBytes e).length := (entBytes_length e).symm ▸ h.1
  obtain ⟨same, pieces⟩ := codeWrite_plain land (by rw [entBytes_length]; decide)
  simp only [putEnt, same, List.isEmpty_eq_false_iff.mpr pieces, Bool.false_eq_true, if_false]

/-- The write of an entry changes that entry alone (R327). -/
theorem putEnt_frame (d : Dev) (i : Nat) (e : FlowEnt) :
    (putEnt d i e).flw.pend = d.flw.pend ∧ ∀ j, j ≠ i → ent? (putEnt d i e) j = ent? d j := by
  have flw := (codeWrite_traffic d (entAddr d i) (entBytes e)).2
  simp only [putEnt]
  split
  · rw [flw]; exact ⟨rfl, fun j _ => by simp only [ent?, flw]⟩
  · refine ⟨by simp only [setEnt, flw], fun j hj => ?_⟩
    simp only [ent?, setEnt, flw]
    exact find?_set_ne _ _ hj

theorem ent?_setEnt_same (d : Dev) (i : Nat) (e : FlowEnt) : ent? (setEnt d i e) i = some e := find?_set_same ..

/-- A change of state that is mirrored waits on the Clasp side, or is counted as coalesced (R389). -/
theorem mirrorState_frame (d : Dev) (i : Nat) :
    (mirrorState d i).flw = d.flw ∧ ∀ a, a ≠ Ctr.clpCoalesced → ctr (mirrorState d i) a = ctr d a := by
  unfold mirrorState; split
  · exact ⟨rfl, fun _ _ => rfl⟩
  · split
    · exact ⟨rfl, fun _ _ => rfl⟩
    · split
      · exact ⟨rfl, fun a ha => ctr_tick_ne d _ a ha⟩
      · exact ⟨rfl, fun _ _ => rfl⟩

/-! ### The landing of a granted write -/

/-- Where no lookup is due, none is served (R97). -/
theorem serveDue_noneDue {d : Dev} (h : NoneDue d) : serveDue d = d := by
  have none : nextDue d = none := by
    rw [nextDue, List.find?_eq_none.mpr fun p hp => by simp [h p hp], Option.map_none]
  unfold serveDue
  cases d.units.length with
  | zero => rfl
  | succ n => simp only [serveUpTo, none]

/-- A granted write of unit `u` on entry `i` leaves the pending ones; reads that rank before it keep the state as it was (R106). -/
def unpend (d : Dev) (i u land : Nat) : Dev :=
  let d := dropPend (keepCopies d i fun x => decide (x < land)) i u
  if (pendOf d i).isEmpty then { d with flw := { d.flw with busy := del d.flw.busy i } } else d

/-- It changes units and the record of what is pending. -/
theorem unpend_eq (d : Dev) (i u land : Nat) :
    ∃ us busy, unpend d i u land =
      { d with units := us, flw := { d.flw with
          busy, pend := set d.flw.pend i ((getD d.flw.pend i []).filter fun w => w.unit != u) } } := by
  unfold unpend; dsimp only
  split <;> exact ⟨_, _, rfl⟩

/-- The granted write `w` of unit `u` lands on entry `i`, unless the entry has gone or the device is STANDBY (R106, R108, R387). -/
def landWr (d : Dev) (i : Nat) (w : PendWr) (v : Bytes) : Dev :=
  match ent? d i with
  | none => d
  | some e => if w.gen ≠ genOf d i ∨ standby d then d
    else mirrorState (meter (tick (putEnt d i { e with state := v }) Ctr.mxtTurnWrite) 6 1) i

theorem turnLand_gated {d : Dev} (u : Nat) (h : ¬(moving d = true ∧ gateOn d 7 = true)) : turnLand d u = d := by
  have gated : (!moving d) = true ∨ (!gateOn d 7) = true := by
    cases hm : moving d <;> simp_all
  rw [turnLand, if_pos gated]

/-- The oldest granted write of a unit, with its entry. -/
def grantedWr (d : Dev) (u : Nat) : Option (Nat × PendWr) :=
  d.flw.pend.findSome? fun p => (p.2.find? fun w => w.unit == u).map fun w => (p.1, w)

theorem turnLand_open {d : Dev} (u : Nat) (hm : moving d = true) (hg : gateOn d 7 = true) (hd : NoneDue d) :
    turnLand d u = match grantedWr d u with
      | none => d
      | some (i, w) =>
        if now d < w.land + turnDelay d then d
        else match w.val with
          | none => d
          | some v => landWr (unpend d i u w.land) i w v := by
  have opens : ¬((!moving d) = true ∨ (!gateOn d 7) = true) := by simp [hm, hg]
  rw [turnLand, if_neg opens, serveDue_noneDue hd]
  rfl

/-- What lands changes the entry that it was granted on, and no pending write. -/
theorem landWr_frame (d : Dev) (i : Nat) (w : PendWr) (v : Bytes) :
    (landWr d i w v).flw.pend = d.flw.pend ∧ ∀ j, j ≠ i → ent? (landWr d i w v) j = ent? d j := by
  unfold landWr; split
  · exact ⟨rfl, fun _ _ => rfl⟩
  next e _ =>
    split
    · exact ⟨rfl, fun _ _ => rfl⟩
    · have flw : (mirrorState (meter (tick (putEnt d i { e with state := v }) Ctr.mxtTurnWrite) 6 1) i).flw =
          (putEnt d i { e with state := v }).flw := by
        simp [mirrorState_frame]
      obtain ⟨pend, others⟩ := putEnt_frame d i { e with state := v }
      exact ⟨by rw [flw, pend], fun j hj => by rw [← others j hj, ent?, flw]; rfl⟩

theorem landWr_discards {d : Dev} {i : Nat} {w : PendWr} (v : Bytes) (h : ent? d i = none ∨ w.gen ≠ genOf d i ∨ standby d = true) :
    landWr d i w v = d := by
  unfold landWr; split
  · rfl
  next e he =>
    rw [if_pos]
    rcases h with h | h
    · exact absurd (he.symm.trans h) nofun
    · exact h

theorem landWr_lands {d : Dev} {i : Nat} {w : PendWr} {e : FlowEnt} (v : Bytes) (he : ent? d i = some e) (hg : w.gen = genOf d i)
    (hs : standby d = false) (hl : EntLands d i) :
    ent? (landWr d i w v) i = some { e with state := v } ∧
      ctr (landWr d i w v) Ctr.mxtTurnWrite = (ctr d Ctr.mxtTurnWrite + 1) % 2 ^ 64 := by
  have land : landWr d i w v = mirrorState (meter (tick (setEnt d i { e with state := v }) Ctr.mxtTurnWrite) 6 1) i := by
    have stays : ¬(w.gen ≠ genOf d i ∨ standby d = true) := by simp [hg, hs]
    simp only [landWr, he, if_neg stays, putEnt_lands _ hl]
  obtain ⟨x, hx⟩ := meter_eq (tick (setEnt d i { e with state := v }) Ctr.mxtTurnWrite) 6 1
  obtain ⟨flw, ctrs⟩ := mirrorState_frame (meter (tick (setEnt d i { e with state := v }) Ctr.mxtTurnWrite) 6 1) i
  rw [land]
  refine ⟨?_, ?_⟩
  · rw [ent?, flw, (meter_traffic ..).2]
    exact ent?_setEnt_same d i _
  · rw [ctrs _ (by decide), hx]
    exact ctr_tick_same _ _

end Ops

theorem turnLand_spec {d : Dev} {u i : Nat} {w : PendWr} {v : Bytes} (hm : moving d = true) (hg : gateOn d 7 = true) (hd : NoneDue d)
    (hw : grantedWr d u = some (i, w)) (ht : w.land + turnDelay d ≤ now d) (hv : w.val = some v) :
    (∀ x ∈ getD (turnLand d u).flw.pend i [], x.unit ≠ u) ∧ (∀ j, j ≠ i → ent? (turnLand d u) j = ent? d j) ∧
      (ent? d i = none ∨ w.gen ≠ genOf d i ∨ standby d = true →
        (turnLand d u).flw.ents = d.flw.ents ∧ (turnLand d u).ctrs = d.ctrs) ∧
      (∀ e, ent? d i = some e → w.gen = genOf d i → standby d = false → EntLands d i →
        ent? (turnLand d u) i = some { e with state := v } ∧
          ctr (turnLand d u) Ctr.mxtTurnWrite = (ctr d Ctr.mxtTurnWrite + 1) % 2 ^ 64) := by
  have land : turnLand d u = landWr (unpend d i u w.land) i w v := by
    rw [turnLand_open u hm hg hd]
    simp only [hw, hv, if_neg (Nat.not_lt.mpr ht)]
  obtain ⟨us, busy, hun⟩ := unpend_eq d i u w.land
  obtain ⟨pend, others⟩ := landWr_frame (unpend d i u w.land) i w v
  rw [land]
  refine ⟨?_, fun j hj => ?_, fun h => ?_, fun e he hgen hs hl => ?_⟩
  · rw [pend, hun, getD_set_same]
    intro x hx
    simpa using (List.mem_filter.mp hx).2
  · rw [others j hj, hun]
    rfl
  · rw [landWr_discards v (by rw [hun]; exact h), hun]
    exact ⟨rfl, rfl⟩
  · rw [hun]
    exact landWr_lands v he hgen hs hl

/-! ### The inference of a pass -/

namespace Ops

/-- The pass of the unit is ready for its scheduled inference (R21, R106). -/
abbrev PassReady (r : UnitRec) : Prop :=
  r.stage = .turning ∨ (r.stage = .featured ∧ r.readOf = none ∧ (r.turn = none ∨ r.pass ≠ 0 ∨ infers r = false))

/-- A pass without a result (R21). -/
def passLost (d : Dev) (u : Nat) (r : UnitRec) : Dev :=
  setUnit d u { r with stage := .inferred, failed := true, res := .none, leafOut := none, headOut := none }

/-- What the engines compute of a pass (R21, R211). -/
def passWork (d : Dev) (r : UnitRec) (m : Model) (part : Bool) : Work :=
  let st : StateIn := ⟨r.state, r.poisonState⟩
  let a := if r.stage = .turning then workOf d r m
    else passStart d m r.pipe r.slot (passSec m r.pass) r.feats st r.carried part r.vecs
  if a.broken then a else passRest a m r.pipe r.slot (passSec m r.pass) r.feats st

/-- A pass that the engines compute; a failed check of a node is a fault (R177). -/
def passComputed (d : Dev) (u : Nat) (r : UnitRec) (m : Model) : Dev :=
  let w := passWork d r m (partMargins d r m)
  if w.broken then fault (storeWork u m w .inferred) 2 2 0 else storeWork u m w .inferred

/-- The step of a pass that is ready. -/
def passInferred (d : Dev) (u : Nat) (r : UnitRec) (f : Option PassFault) : Dev :=
  match unitModel d r with
  | none => setUnit d u { r with stage := .inferred }
  | some m =>
    if infers r = false then setUnit d u { r with stage := .inferred }
    else if (lost d r m).1 then passLost (match (lost d r m).2 with | some c => tick d c | none => d) u r
    else match f with
      | some (.unit k) => engineFault (passLost d u r) m k
      | _ => passComputed (recordFault d m r.pipe f) u r m

theorem passReady_iff (r : UnitRec) :
    (r.stage == .turning || (r.stage == .featured && r.readOf.isNone && (r.turn.isNone || r.pass != 0 || !infers r))) = true ↔
      PassReady r := by
  simp only [PassReady, Bool.or_eq_true, Bool.and_eq_true, beq_iff_eq, bne_iff_ne, Option.isNone_iff_eq_none, Bool.not_eq_true',
    and_assoc, or_assoc]

theorem inferenceStage_idle {d : Dev} {u : Nat} {r : UnitRec} (f : Option PassFault) (hu : unit? d u = some r)
    (h : ¬PassReady r ∨ moving d = false) : inferenceStage d u f = forUnit d u fun d _ => d := by
  refine forUnit_congr hu (if_pos ?_)
  rcases h with h | h
  · exact .inl (by simpa only [Bool.not_eq_true', ← Bool.not_eq_true, passReady_iff] using h)
  · exact .inr (by rw [h]; rfl)

theorem inferenceStage_eq {d : Dev} {u : Nat} {r : UnitRec} (f : Option PassFault) (hu : unit? d u = some r)
    (h : PassReady r) (hm : moving d = true) : inferenceStage d u f = forUnit d u fun d r => passInferred d u r f := by
  refine forUnit_congr hu ((if_neg ?_).trans ?_)
  · rw [(passReady_iff r).mpr h, hm]
    decide
  · unfold passInferred
    cases unitModel d r with
    | none => rfl
    | some m =>
      simp only [Bool.not_eq_true']
      cases f with
      | none => rfl
      | some f => cases f <;> rfl
end Ops

end Sys2Proof.Machine
end

section
/-!
PROOFS. The architecture (01_architecture): what the inference of a pass leaves (R21, R177, R215), and the three commands of turns and
inference.
-/
namespace Sys2Proof.Machine
open Ops
namespace Ops

@[simp] theorem passWork_traffic (d : Dev) (r : UnitRec) (m : Model) (part : Bool) :
    (passWork d r m part).e.d.units = d.units ∧ (passWork d r m part).e.d.flw = d.flw := by
  unfold passWork; dsimp only
  split
  · split <;> simp [workOf]
  · split <;> simp

/-- A ready pass leaves the flow table as it was and its unit inferred, with the property `P`. -/
def PassLeaves (d e : Dev) (u : Nat) (P : UnitRec → Prop) : Prop :=
  e.flw = d.flw ∧ ∃ q, unit? e u = some q ∧ q.stage = .inferred ∧ P q

theorem passLeaves_skip (d : Dev) (u : Nat) (r : UnitRec) :
    PassLeaves d (setUnit d u { r with stage := .inferred }) u fun q => q.res = r.res ∧ q.failed = r.failed :=
  ⟨rfl, _, find?_set_same .., rfl, rfl, rfl⟩

theorem passLeaves_lost {d e : Dev} {u : Nat} {r : UnitRec} (h : e.units = (passLost d u r).units ∧ e.flw = (passLost d u r).flw) :
    PassLeaves d e u fun q => q.failed = true ∧ q.res = .none :=
  ⟨h.2, _, (unit?_of_units h.1 u).trans (find?_set_same ..), rfl, rfl, rfl⟩

theorem passLeaves_computed {d : Dev} {u : Nat} {r : UnitRec} (m : Model) (hu : unit? d u = some r) :
    let w := passWork d r m (partMargins d r m)
    PassLeaves d (passComputed d u r m) u fun q =>
      q.res = (if w.broken then .none else passRes m w) ∧ q.failed = (r.failed || w.broken) ∧ q.vecs = w.e.vecs := by
  intro w
  have work := passWork_traffic d r m (partMargins d r m)
  obtain ⟨flw, q, hq, stage, failed, res, vecs, -⟩ := storeWork_spec m .inferred ((unit?_of_units work.1 u).trans hu)
  have ends : (passComputed d u r m).units = (storeWork u m w .inferred).units ∧
      (passComputed d u r m).flw = (storeWork u m w .inferred).flw := by
    unfold passComputed; dsimp only; split
    · exact fault_traffic _ _ _ (by decide)
    · exact ⟨rfl, rfl⟩
  exact ⟨ends.2.trans (flw.trans work.2), q, (unit?_of_units ends.1 u).trans hq, stage, res, failed, vecs⟩

theorem passInferred_skips {d : Dev} {u : Nat} {r : UnitRec} (f : Option PassFault) (h : unitModel d r = none ∨ infers r = false) :
    passInferred d u r f = setUnit d u { r with stage := .inferred } := by
  unfold passInferred
  split
  · rfl
  next m hm => rw [if_pos (h.resolve_left (by simp [hm]))]

theorem passInferred_loses {d : Dev} {u : Nat} {r : UnitRec} {f : Option PassFault} {m : Model} (hm : unitModel d r = some m)
    (hi : infers r = true) (h : (lost d r m).1 = true ∨ ∃ k, f = some (.unit k)) :
    (passInferred d u r f).units = (passLost d u r).units ∧ (passInferred d u r f).flw = (passLost d u r).flw := by
  have runs : ¬infers r = false := by simp [hi]
  simp only [passInferred, hm, if_neg runs]
  split
  · cases (lost d r m).2 <;> simp [passLost, setUnit]
  next sound =>
    obtain ⟨k, rfl⟩ := h.resolve_left sound
    exact engineFault_traffic ..

theorem passInferred_computes {d : Dev} {u : Nat} {r : UnitRec} {f : Option PassFault} {m : Model} (hm : unitModel d r = some m)
    (hi : infers r = true) (hl : (lost d r m).1 = false) (hf : ∀ k, f ≠ some (.unit k)) :
    passInferred d u r f = passComputed (recordFault d m r.pipe f) u r m := by
  have runs : ¬infers r = false := by simp [hi]
  simp only [passInferred, hm, if_neg runs, hl, Bool.false_eq_true, if_false]

end Ops

theorem passInferred_spec {d : Dev} {u : Nat} {r : UnitRec} (f : Option PassFault) (hu : unit? d u = some r) :
    let e := passInferred d u r f
    e.flw = d.flw ∧ ∃ q, unit? e u = some q ∧ q.stage = .inferred ∧
      (unitModel d r = none ∨ infers r = false → q.res = r.res ∧ q.failed = r.failed) ∧
      (∀ m, unitModel d r = some m → infers r = true → (lost d r m).1 = true ∨ (∃ k, f = some (.unit k)) →
        q.failed = true ∧ q.res = .none) ∧
      (∀ m, unitModel d r = some m → infers r = true → (lost d r m).1 = false → (∀ k, f ≠ some (.unit k)) →
        let w := passWork (recordFault d m r.pipe f) r m (partMargins d r m)
        q.res = (if w.broken then .none else passRes m w) ∧ q.failed = (r.failed || w.broken) ∧ q.vecs = w.e.vecs) := by
  intro e
  have idle_or : (unitModel d r = none ∨ infers r = false) ∨ ∃ m, unitModel d r = some m ∧ infers r = true := by
    cases unitModel d r <;> cases infers r <;> simp
  rcases idle_or with idle | ⟨m, hm, hi⟩
  · obtain ⟨flw, q, hq, stage, kept⟩ := passLeaves_skip d u r
    rw [← passInferred_skips f idle] at flw hq
    have runs {m : Model} (hm : unitModel d r = some m) (hi : infers r = true) : False := by
      simp [hm, hi] at idle
    exact ⟨flw, q, hq, stage, fun _ => kept, fun _ hm hi => (runs hm hi).elim, fun _ hm hi => (runs hm hi).elim⟩
  · have busy : ¬(unitModel d r = none ∨ infers r = false) := by simp [hm, hi]
    have model {m' : Model} (h : unitModel d r = some m') : m = m' := Option.some.inj (hm.symm.trans h)
    by_cases loses : (lost d r m).1 = true ∨ ∃ k, f = some (.unit k)
    · obtain ⟨flw, q, hq, stage, none'⟩ := passLeaves_lost (passInferred_loses hm hi loses)
      refine ⟨flw, q, hq, stage, fun h => (busy h).elim, fun _ _ _ _ => none', fun m' hm' _ sound unit => ?_⟩
      obtain rfl := model hm'
      rcases loses with h | ⟨k, h⟩
      · simp [sound] at h
      · exact (unit k h).elim
    · simp only [not_or, not_exists, Bool.not_eq_true] at loses
      have start : unit? (recordFault d m r.pipe f) u = some r := (unit?_of_units (recordFault_traffic ..).1 u).trans hu
      obtain ⟨flw, q, hq, stage, computed⟩ := passLeaves_computed m start
      rw [partMargins_recordFault] at computed
      rw [← passInferred_computes hm hi loses.1 loses.2] at flw hq
      refine ⟨flw.trans (recordFault_traffic ..).2, q, hq, stage, fun h => (busy h).elim,
        fun m' hm' _ lost => ?_, fun m' hm' _ _ _ => ?_⟩
      · obtain rfl := model hm'
        rcases lost with h | ⟨k, h⟩
        · simp [loses.1] at h
        · exact (loses.2 k h).elim
      · obtain rfl := model hm'
        exact computed

/-- Nothing lands where the unit has no granted write, or one before its landing time or without its value (R106). -/
theorem turnLand_waits {d : Dev} {u : Nat} (hd : NoneDue d)
    (h : ∀ i w, grantedWr d u = some (i, w) → now d < w.land + turnDelay d ∨ w.val = none) : turnLand d u = d := by
  by_cases may : moving d = true ∧ gateOn d 7 = true
  · rw [turnLand_open u may.1 may.2 hd]
    split
    · rfl
    next i w hw =>
      rcases h i w hw with early | empty
      · exact if_pos early
      · rw [empty]
        split <;> rfl
  · exact turnLand_gated u may

/-- A turn starts only after the features of its unit are taken (R211). -/
theorem turnStart_idle {d : Dev} {u : Nat} {r : UnitRec} (f : Option PassFault) (hu : unit? d u = some r) (h : r.stage ≠ .featured) :
    turnStart d u f = forUnit d u fun d _ => d := by
  refine forUnit_congr hu ?_
  dsimp only
  split
  · exact if_pos (.inl h)
  · rfl

/-- Settles O54, from the specification of each of the three commands: the start of a turn, the landing of its write, the inference. -/
theorem turnsAndInferenceRun : Obligations.TurnsAndInferenceRun := by
  unfold Obligations.TurnsAndInferenceRun
  refine ⟨fun s u f r ha hu hs => ?_, fun s u f r x granted m t old ha hu hx hm ht hs hp hread hmv hnow ho => ?_, fun s u ha => ?_,
    fun s u f r ha hu => ?_⟩
  · refine does_run (fun d => turnStart d u f) ha rfl ?_
    rw [unit?_sealed, sealed_flw, turnStart_idle f hu hs]
    exact ⟨unit?_forUnit_idle _ hu rfl, forUnit_flw _ hu⟩
  · refine does_run (fun d => turnStart d u f) ha rfl ?_
    simp only [unit?_sealed, sealed_flw, turnStart_eq f hu hx hm ht hs hp hmv hnow ho]
    obtain ⟨ents, q, hq, turn⟩ := turnBegun_spec (f := f) (m := m) (t := t) (old := old) hu hx hread
    obtain ⟨n, hn⟩ := unit?_forUnit (fun _ _ => turnBegun s.dev u r m t old f) hu hq
    simp only [forUnit_flw (fun _ _ => turnBegun s.dev u r m t old f) hu]
    exact ⟨ents, _, hn, turn⟩
  · refine does_run (fun d => turnLand d u) ha rfl ?_
    have idle (h : turnLand s.dev u = s.dev) : sealed s.dev (turnLand s.dev u) = s.dev := by rw [h]; exact sealed_of_eq _ _ rfl rfl
    refine ⟨fun h => idle (turnLand_gated u h), fun hd hnone => ?_, fun i w hd hw hwait => ?_, fun i w v may hd hw ht hv => ?_⟩
    · exact idle (turnLand_waits hd fun i w hw => absurd (hnone.symm.trans hw) nofun)
    · refine idle (turnLand_waits hd fun j x hx => ?_)
      cases hw.symm.trans hx
      exact hwait
    · exact turnLand_spec may.1 may.2 hd hw ht hv
  · refine does_run (fun d => inferenceStage d u f) ha rfl ?_
    simp only [unit?_sealed, sealed_flw]
    refine ⟨fun h => ?_, fun ready moves => ?_⟩
    · rw [inferenceStage_idle f hu h]
      exact unit?_forUnit_idle _ hu rfl
    · obtain ⟨flw, q, hq, pass⟩ := passInferred_spec f hu
      obtain ⟨n, hn⟩ := unit?_forUnit (fun d r => passInferred d u r f) hu hq
      rw [inferenceStage_eq f hu ready moves, forUnit_flw _ hu, flw]
      exact ⟨rfl, _, hn, pass⟩

end Sys2Proof.Machine
end

section
/-!
PROOFS. The architecture (01_architecture): what the walk of a unit (R87) and the end of a pass (R42) do where a number in the state is
past what the hardware holds.
-/
namespace Sys2Proof.Machine
open Ops

/-! ### A unit whose tenant is past the 64 -/

/-- A graph whose first header needs one byte: an empty block is malformed of class 0 (R74). -/
def oneByteGraph : Graph := { (default : Graph) with nodes := [{ (default : PNode) with fixedLen := 1 }] }

/-- A Stem request with an empty block that waits for stage 2. -/
def emptyRequest : UnitRec := newUnit (.stem 0 0 false) 0 [] 0 0 0 0

/-- A tenant whose malformed-action code would stand at the address of `MEM_ERR_STAT`. -/
def tenantOfErrStat : Nat := 0x11FFE0

/-- The device right after reset with every gate ON, `emptyRequest` in flight, SRAM up and its first line uncorrectable, and slot 0
owned by `tenantOfErrStat`, which the six bits of OWNER cannot hold. -/
def ownerPast64 : State :=
  { dev := { Dev.reset with
      regs := [((Reg.cfgSlotOwner 0).key, tenantOfErrStat), ((Reg.cfgSlotAssigned 0).key, 1), (Reg.memStatSramInit.key, 1),
        (Reg.memLayoutCount.key, 1)]
      clk := { Dev.reset.clk with gate := Vector.replicate 24 .on }
      mem := { Dev.reset.mem with layouts := [⟨0xFF, 0, []⟩], blk := [(0, { flips := [], ue := [0] })] }
      epochs := [⟨0, { (default : EpochCfg) with graphs := [oneByteGraph] }, none⟩]
      units := [(0, emptyRequest)] }
    pending := [] }

/-- Refutes O53: the statement takes the malformed-action code of the tenant (R87) from the device before the command, and its states are
not held to owners of six bits. On `ownerPast64` the rule's counter is read from the uncorrectable line, the error is recorded in
`MEM_ERR_STAT` (R336), and the code that the command then reads for `tenantOfErrStat` is that record: 1, where the statement says 0. -/
theorem not_unitsWalkTheirPass : ¬ Obligations.UnitsWalkTheirPass := by
  unfold Obligations.UnitsWalkTheirPass
  rintro ⟨-, h, -⟩
  have awake : Awake ownerPast64 := by decide +kernel
  have stated := h ownerPast64 0 emptyRequest (Reg.prsStartStemPHeaderNode 0) false awake (by decide +kernel) rfl
    (by decide +kernel) (by decide +kernel) (by decide +kernel) (by decide +kernel) (.inr ⟨rfl, 0, 0, false, rfl, rfl⟩)
  have ran : Does (.parseStart 0) ownerPast64 fun d => d = sealed ownerPast64.dev (parseStart ownerPast64.dev 0) :=
    does_run (fun d => parseStart d 0) awake rfl rfl
  obtain ⟨d, ⟨q, hq, -, -, -, -, -, -, -, -, -, -, -, said, -⟩, rfl⟩ := stated.and ran
  have walked : (unit? (sealed ownerPast64.dev (parseStart ownerPast64.dev 0)) 0).map (fun q => (q.tenant, q.parse.cls, q.malCode)) =
      some (tenantOfErrStat, some 0, some 1) := by decide +kernel
  simp only [hq, Option.map_some, Option.some.injEq, Prod.mk.injEq] at walked
  obtain ⟨tenant, cls, code⟩ := walked
  have before : malAct ownerPast64.dev tenantOfErrStat 0 = 0 := by decide +kernel
  have := said 0 cls
  rw [code, tenant, before] at this
  exact absurd this (by decide)

/-! ### A packet whose port is past the 32 -/

/-- A port whose RX_ERR would stand at the address of tenant 0's DEFAULT_USED. -/
def portOfDefaultUsed : Nat := 0x480C0

/-- A packet of `portOfDefaultUsed` with a failed FCS whose rule runs no model, in a unit that has DEFAULT_USED. -/
def badFcsPacket : UnitRec :=
  { newUnit (.inline portOfDefaultUsed) 0 [] 0 0 0 0 with stage := .looked, fcs := some false, flags := 2 }

/-- The device right after reset with every gate ON and `badFcsPacket` in flight. -/
def portPast32 : State :=
  { dev := { Dev.reset with clk := { Dev.reset.clk with gate := Vector.replicate 24 .on }, units := [(0, badFcsPacket)] }, pending := [] }

/-- Refutes O55: the statement counts one packet in RX_ERR of the unit's port (R42), and its states are not held to 32 ports. On
`portPast32` the counter of the port stands at the address of a Loupe counter of the tenant (R481), which counts the same verdict: it rises
by 2, where the statement says by 1. -/
theorem not_verdictsAreFormed : ¬ Obligations.VerdictsAreFormed := by
  unfold Obligations.VerdictsAreFormed
  intro h
  have awake : Awake portPast32 := by decide +kernel
  have stated := h portPast32 0 false badFcsPacket awake (by decide +kernel)
  have ran : Does (.verdictForm 0 false) portPast32 fun d => d = sealed portPast32.dev (verdictForm portPast32.dev 0 false) :=
    does_run (fun d => verdictForm d 0 false) awake rfl rfl
  obtain ⟨d, ⟨-, -, -, said⟩, rfl⟩ := stated.and ran
  have may : moving portPast32.dev = true ∧ gateOn portPast32.dev 13 = true := by decide +kernel
  obtain ⟨-, -, -, failed, -⟩ := said ⟨nofun, nofun, nofun, may⟩ nofun nofun (by decide +kernel)
  obtain ⟨-, -, counted⟩ := failed (ruleVerdict portPast32.dev badFcsPacket 0) 0 portOfDefaultUsed
    (.inr (.inr (.inl ⟨rfl, rfl, .inl ⟨⟨rfl, .inl rfl⟩, rfl, rfl⟩⟩))) rfl rfl
  exact absurd counted (by decide +kernel)

end Sys2Proof.Machine
end

section
/-!
PROOFS. The time base (05_feature_windows): the step that runs the front command or lets one CLK_TIME cycle pass, and what that cycle adds
to the time base.
-/
namespace Sys2Proof.Machine
namespace Ops

/-! ### One CLK_TIME cycle -/

/-- A one-bit field that is written with a condition reads 1 where the condition holds. -/
theorem rd_wr_flag (d : Dev) {f : Fld} (hw : f.w = 1) (p : Prop) [Decidable p] : rd (wr d f (b2n (decide p))) f = 1 ↔ p := by
  rw [rd_wr_same, hw]
  by_cases h : p <;> simp [h, b2n]

theorem sigmaOf_of_gt {r : Int} (h : 4294967 < r) : sigmaOf r = 4294967 := if_pos h

theorem sigmaOf_of_lt {r : Int} (h : r < -4294967) : sigmaOf r = -4294967 := by
  have not_above : ¬ r > slewStep := by unfold slewStep; omega
  exact (if_neg not_above).trans (if_pos h)

theorem sigmaOf_of_within {r : Int} (hlo : -4294967 ≤ r) (hhi : r ≤ 4294967) : sigmaOf r = r :=
  (if_neg (Int.not_lt.mpr hhi)).trans (if_neg (Int.not_lt.mpr hlo))

theorem sigmaOf_bounds (r : Int) : -4294967 ≤ sigmaOf r ∧ sigmaOf r ≤ 4294967 := by
  rcases Int.lt_or_le 4294967 r with above | below
  · simp [sigmaOf_of_gt above]
  · rcases Int.lt_or_le r (-4294967) with under | within
    · simp [sigmaOf_of_lt under]
    · rw [sigmaOf_of_within within below]
      exact ⟨within, below⟩

theorem timeTick_slew (d : Dev) : (timeTick d).tb.slew = d.tb.slew - sigmaOf d.tb.slew := rfl

theorem timeTick_slewActive (d : Dev) : rd (timeTick d) Reg.clkTbStatSlewActive = 1 ↔ (timeTick d).tb.slew ≠ 0 :=
  rd_wr_flag d rfl (d.tb.slew - sigmaOf d.tb.slew ≠ 0)

/-- The flag that the cycle writes first leaves ADJ as it is. -/
theorem timeTick_t_mod (d : Dev) : (timeTick d).tb.t = (d.tb.t + (2 ^ 32 + tbAdj d + sigmaOf d.tb.slew).toNat) % 2 ^ 96 := by
  have adj (v : Nat) : tbAdj (wr d Reg.clkTbStatSlewActive v) = tbAdj d := by
    simp only [tbAdj, rd_wr_ne d Reg.clkTbStatSlewActive Reg.clkTbAdjRate v (by decide)]
  simp only [timeTick, adj, wr_tb]

/-- T advances by 2^32 + ADJ + σ, which is positive, where it is not at the end of its 96 bits (R139). -/
theorem timeTick_t {d : Dev} (room : d.tb.t + 2 ^ 33 < 2 ^ 96) (hlo : -4294967 ≤ tbAdj d) (hhi : tbAdj d ≤ 4294967) :
    ((timeTick d).tb.t : Int) = d.tb.t + 2 ^ 32 + tbAdj d + sigmaOf d.tb.slew ∧ d.tb.t ≤ (timeTick d).tb.t := by
  obtain ⟨sigma_lo, sigma_hi⟩ := sigmaOf_bounds d.tb.slew
  rw [timeTick_t_mod]
  omega

end Ops

open Ops

/-! ### The step -/

theorem step_front (c : Instr) (rest : List Instr) (d : Dev) :
    step { dev := d, pending := c :: rest } = exec c { dev := d, pending := rest } := rfl

theorem step_idle {d : Dev} (h : d.pins.sysRstN = true) : step { dev := d, pending := [] } = .next { dev := timeTick d, pending := [] } := by
  simp only [step, h, if_true]

theorem step_idle_inReset {d : Dev} (h : d.pins.sysRstN = false) : step { dev := d, pending := [] } = .next { dev := d, pending := [] } := by
  simp only [step, h, Bool.false_eq_true, if_false]

/-- Settles O1: the two forms of the queue, and `SYS_RST_N` at either level. -/
theorem stepTakesTheFrontCommand : Obligations.StepTakesTheFrontCommand :=
  ⟨step_front, fun _ => step_idle, fun _ => step_idle_inReset⟩

/-- Settles O20: the cycle of an empty queue is `timeTick`, and σ is `sigmaOf` of the remaining slew. -/
theorem timeBaseAdvancesByAdjAndSlew : Obligations.TimeBaseAdvancesByAdjAndSlew := by
  unfold Obligations.TimeBaseAdvancesByAdjAndSlew
  intro d awake room hlo hhi
  obtain ⟨advance, rises⟩ := timeTick_t room hlo hhi
  exact ⟨timeTick d, sigmaOf d.tb.slew, step_idle awake, advance, timeTick_slew d, sigmaOf_of_gt, sigmaOf_of_lt, sigmaOf_of_within, rises,
    timeTick_slewActive d⟩

end Sys2Proof.Machine
end

section
/-!
PROOFS. The time base (05_feature_windows): the steps, slews and PPS captures, and what the close of a Signet interval leaves of the time
base, as a step may bring it.
-/
namespace Sys2Proof.Machine
namespace Ops

/-! ### What a message to the Clasp partner leaves -/

/-- An effect folded over a list leaves what each of its steps leaves. -/
theorem foldl_keeps {α β : Type} (g : Dev → β) {f : Dev → α → Dev} (h : ∀ d a, g (f d a) = g d) (l : List α) (d : Dev) :
    g (l.foldl f d) = g d := by
  induction l generalizing d with
  | nil => rfl
  | cons a l ih => exact (ih (f d a)).trans (h d a)

theorem setLink_tb_regs (d : Dev) (l : Nat) (x : Link) : (setLink d l x).tb = d.tb ∧ (setLink d l x).regs = d.regs := by
  unfold setLink
  split <;> exact ⟨rfl, rfl⟩

theorem emitFlit_tb_regs (d : Dev) (l : Nat) (b : Bytes) : (emitFlit d l b).tb = d.tb ∧ (emitFlit d l b).regs = d.regs := by
  obtain ⟨x, hx⟩ := meter_eq d 21 1
  simp only [emitFlit, hx, emit_tb, emit_regs, and_self]

theorem pump_tb_regs (l n : Nat) (d : Dev) : (pump l n d).tb = d.tb ∧ (pump l n d).regs = d.regs := by
  induction n generalizing d with
  | zero => exact ⟨rfl, rfl⟩
  | succ n ih =>
    simp only [pump]
    split
    · exact ⟨rfl, rfl⟩
    · split
      · exact ⟨rfl, rfl⟩
      · simp only [ih, emitFlit_tb_regs, setLink_tb_regs, and_self]

theorem sendPartner_tb_regs (d : Dev) (ty : Nat) (msg : Bytes) :
    (sendPartner d ty msg).tb = d.tb ∧ (sendPartner d ty msg).regs = d.regs := by
  unfold sendPartner
  split
  · unfold sendOn sendFrom
    split
    · exact ⟨rfl, rfl⟩
    · simp only [pump_tb_regs, setLink_tb_regs, and_self]
  · exact ⟨rfl, rfl⟩

theorem sendHeads_tb_regs (d : Dev) (i : Nat) (cs : Map Chain) : (sendHeads d i cs).tb = d.tb ∧ (sendHeads d i cs).regs = d.regs := by
  unfold sendHeads
  split
  · exact ⟨rfl, rfl⟩
  · exact ⟨foldl_keeps Dev.tb (fun d _ => (sendPartner_tb_regs d ..).1) cs d,
      foldl_keeps Dev.regs (fun d _ => (sendPartner_tb_regs d ..).2) cs d⟩

/-! ### What the close of an interval leaves -/

/-- The time base is as before, and so is every register field below SGN's block. -/
def BelowSgnKept (d e : Dev) : Prop := e.tb = d.tb ∧ ∀ f : Fld, f.key < 0x01500000 * 32 → rd e f = rd d f

theorem BelowSgnKept.trans {d e g : Dev} (h1 : BelowSgnKept d e) (h2 : BelowSgnKept e g) : BelowSgnKept d g :=
  ⟨h2.1.trans h1.1, fun f hf => (h2.2 f hf).trans (h1.2 f hf)⟩

theorem BelowSgnKept.of_regs {d e : Dev} (h : e.tb = d.tb ∧ e.regs = d.regs) : BelowSgnKept d e :=
  ⟨h.1, fun f _ => rd_of_regs h.2 f⟩

theorem BelowSgnKept.wr {d e : Dev} (h : BelowSgnKept d e) (g : Fld) (v : Nat) (hg : 0x01500000 * 32 ≤ g.key) :
    BelowSgnKept d (Ops.wr e g v) :=
  h.trans ⟨rfl, fun f hf => rd_wr_ne e g f v (Nat.ne_of_lt (Nat.lt_of_lt_of_le hf hg))⟩

theorem BelowSgnKept.wr64 {d e : Dev} (h : BelowSgnKept d e) (lo hi : Fld) (v : Nat) (hlo : 0x01500000 * 32 ≤ lo.key)
    (hhi : 0x01500000 * 32 ≤ hi.key) : BelowSgnKept d (Ops.wr64 e lo hi v) :=
  (h.wr lo _ hlo).wr hi _ hhi

theorem sgnLastWord_key (n : Nat) : 0x01500000 * 32 ≤ (Reg.sgnLastWord n).key := by
  simp only [Reg.sgnLastWord, Fld.at]
  omega

theorem BelowSgnKept.lastWords {d e : Dev} (h : BelowSgnKept d e) (js last : List Nat) : BelowSgnKept d
    (each js e fun d j => Ops.wr64 d (Reg.sgnLastWord (2 * j)) (Reg.sgnLastWord (2 * j + 1)) (last.getD j 0)) := by
  induction js generalizing e with
  | nil => exact h
  | cons j js ih => exact ih (h.wr64 _ _ _ (sgnLastWord_key _) (sgnLastWord_key _))

theorem BelowSgnKept.calSwap {d e : Dev} (h : BelowSgnKept d e) : BelowSgnKept d (calSwap e) := by
  unfold Ops.calSwap
  split
  · exact h
  · exact ((h.trans (.of_regs ⟨rfl, rfl⟩)).wr Reg.sgnStatCalPend _ (by decide)).wr Reg.sgnCalVerVersion _ (by decide)

theorem closeInterval_belowSgn (d : Dev) (fin next : Nat) (step frozen : Bool) (skipped : Nat) :
    BelowSgnKept d (closeInterval d fin next step frozen skipped) := by
  unfold closeInterval
  extract_lets timed sums i k flags chains partners recs batch reported last listed clamped scaled sigma renewed clp sgn closed
  have kept_sent : BelowSgnKept d (sendHeads (tick timed Ctr.sgnIntervals) i chains) := .of_regs (sendHeads_tb_regs _ i chains)
  have kept_reported : BelowSgnKept d reported := kept_sent.wr64 _ _ _ (by decide) (by decide)
  have kept_listed : BelowSgnKept d listed := kept_reported.lastWords _ last
  have kept_clamped : BelowSgnKept d clamped := by
    unfold clamped
    split
    · exact kept_listed.wr _ _ (by decide)
    · exact kept_listed
  have kept_scaled : BelowSgnKept d scaled := kept_clamped.wr _ _ (by decide)
  have kept_closed : BelowSgnKept d closed := kept_scaled.trans (.of_regs ⟨rfl, rfl⟩)
  exact kept_closed.calSwap

theorem signetStep_belowSgn (d : Dev) (old : Nat) : BelowSgnKept d (signetStep d old) := by
  simp only [signetStep]
  split
  · exact .of_regs ⟨rfl, rfl⟩
  · exact closeInterval_belowSgn ..

theorem signetStep_noSession {d : Dev} (old : Nat) (h : sgnOn d = false) : signetStep d old = d := by
  simp only [signetStep, h, Bool.not_false, true_or, if_true]

/-! ### Steps and slews -/

theorem regsKept_tb_wr (d : Dev) (x : TimeBase) (f : Fld) (v : Nat) : RegsKept d (wr { d with tb := x } f v) [f.key] :=
  (RegsKept.of_regs [f.key] rfl).wr f v (List.mem_singleton.mpr rfl)

/-- What the addition of `ns` to the remaining slew leaves: the slew, its flag, and everything else as it was (R140). -/
theorem addSlew_spec (d : Dev) (ns : Int) :
    (addSlew d ns).tb = { d.tb with slew := d.tb.slew + ns * 2 ^ 32 } ∧
    (rd (addSlew d ns) Reg.clkTbStatSlewActive = 1 ↔ (addSlew d ns).tb.slew ≠ 0) ∧
    RegsKept d (addSlew d ns) [Reg.clkTbStatSlewActive.key] ∧ { addSlew d ns with tb := d.tb, regs := d.regs } = d :=
  ⟨rfl, rd_wr_flag _ rfl (d.tb.slew + ns * 2 ^ 32 ≠ 0), regsKept_tb_wr d _ _ _, rfl⟩

/-- The device with `n` ns armed for the next super-cycle boundary, beside what waits there already. -/
def arm (d : Dev) (n : Int) : Dev := wr { d with tb := { d.tb with step := some (d.tb.step.getD 0 + n) } } Reg.clkTbStatStepPend 1

theorem arm_spec (d : Dev) (n : Int) :
    (arm d n).tb = { d.tb with step := some (d.tb.step.getD 0 + n) } ∧ rd (arm d n) Reg.clkTbStatStepPend = 1 ∧
    RegsKept d (arm d n) [Reg.clkTbStatStepPend.key] ∧ { arm d n with tb := d.tb, regs := d.regs } = d :=
  ⟨rfl, rd_wr_same .., regsKept_tb_wr d _ _ _, rfl⟩

/-- The step in ns that a write of `hi` completes. -/
def stepNs (d : Dev) (hi : Nat) : Int := sgn 64 (rd d Reg.clkTbStepLoNs + 2 ^ 32 * hi)

theorem stepWrite_pos {d : Dev} {hi : Nat} (h : 0 < stepNs d hi) : stepWrite d hi = arm d (stepNs d hi) :=
  (if_neg (Int.not_lt.mpr (Int.le_of_lt h))).trans (if_neg (Int.ne_of_gt h))

theorem stepWrite_neg {d : Dev} {hi : Nat} (h : stepNs d hi < 0) : stepWrite d hi = addSlew d (stepNs d hi) := if_pos h

theorem stepWrite_zero {d : Dev} {hi : Nat} (h : stepNs d hi = 0) : stepWrite d hi = d :=
  (if_neg (Int.not_lt.mpr (Int.le_of_eq h.symm))).trans (if_pos h)

/-- A write of a step changes the time base and register fields alone. -/
theorem stepWrite_frame (d : Dev) (hi : Nat) : { stepWrite d hi with tb := d.tb, regs := d.regs } = d := by
  rcases Int.lt_trichotomy (stepNs d hi) 0 with neg | zero | pos
  · rw [stepWrite_neg neg]; rfl
  · rw [stepWrite_zero zero]
  · rw [stepWrite_pos pos]; rfl

/-- The device with an armed step of `n` ns added to its time base, before Signet closes an interval. -/
def stepped (d : Dev) (n : Int) : Dev :=
  wr { d with tb := { d.tb with t := (d.tb.t + n.toNat * 2 ^ 32) % 2 ^ 96, step := none } } Reg.clkTbStatStepPend 0

theorem stepApply_armed {d : Dev} {n : Int} (h : d.tb.step = some n) : stepApply d = signetStep (stepped d n) (now d) := by
  simp only [stepApply, h, stepped]

theorem stepped_regsKept (d : Dev) (n : Int) : RegsKept d (stepped d n) [Reg.clkTbStatStepPend.key] :=
  regsKept_tb_wr d _ _ _

/-- The two readings of a word as two's complement agree. -/
theorem sgn_toNat (w : Word) : sgn 32 w.toNat = w.toInt := by
  have word := w.isLt
  simp only [sgn, BitVec.toInt_eq_toNat_cond]
  omega

/-! ### PPS captures -/

/-- The time base captured into the PPS registers (R141). -/
def captured (d : Dev) : Dev := wr64 (wr d Reg.clkTbStatPpsValid 1) Reg.clkTbPpsLoNs Reg.clkTbPpsHiNs (now64 d)

theorem ppsEdge_taken {d : Dev} {pin : Nat} (en : rdB d Reg.clkTbCtlPpsEn = true) (at_pin : rd d Reg.clkTbCtlPpsGpio = pin) :
    ppsEdge d pin = captured d := if_pos ⟨en, at_pin⟩

theorem ppsEdge_ignored {d : Dev} {pin : Nat} (h : rdB d Reg.clkTbCtlPpsEn = false ∨ rd d Reg.clkTbCtlPpsGpio ≠ pin) :
    ppsEdge d pin = d := by
  refine if_neg ?_
  rintro ⟨en, at_pin⟩
  rcases h with off | other
  · exact Bool.false_ne_true (off.symm.trans en)
  · exact other at_pin

/-- Two 32-bit halves hold a 64-bit value. -/
theorem rd64_wr64 (d : Dev) {lo hi : Fld} {v : Nat} (apart : lo.key ≠ hi.key) (hlo : lo.w = 32) (hhi : hi.w = 32) (hv : v < 2 ^ 64) :
    rd64 (wr64 d lo hi v) lo hi = v := by
  rw [rd64, wr64, rd_wr_ne _ _ _ _ apart, rd_wr_same, rd_wr_same, hlo, hhi]
  omega

theorem captured_spec (d : Dev) :
    rd (captured d) Reg.clkTbStatPpsValid = 1 ∧ rd64 (captured d) Reg.clkTbPpsLoNs Reg.clkTbPpsHiNs = now64 d ∧
    RegsOnly d (captured d) [Reg.clkTbStatPpsValid.key, Reg.clkTbPpsLoNs.key, Reg.clkTbPpsHiNs.key] := by
  refine ⟨?_, rd64_wr64 _ (by decide) rfl rfl (Nat.mod_lt _ (by decide)), ?_⟩
  · simp (disch := decide) only [captured, wr64, rd_wr_ne, rd_wr_same]
    rfl
  · exact (((RegsOnly.refl d _).wr _ _ (by decide)).wr _ _ (by decide)).wr _ _ (by decide)

theorem ppsEdge_regsOnly (d : Dev) (pin : Nat) :
    RegsOnly d (ppsEdge d pin) [Reg.clkTbStatPpsValid.key, Reg.clkTbPpsLoNs.key, Reg.clkTbPpsHiNs.key] := by
  unfold ppsEdge
  split
  · exact (captured_spec d).2.2
  · exact .refl d _

end Ops

open Ops

/-! ### The commands -/

/-- TB_STEP_WRITE arms a positive step and adds a negative one to the remaining slew (R140). -/
theorem does_tbStepWrite {s : State} (hi : Word) (awake : Awake s) (arrives : Arrives s.dev 0 0x00100814 true) :
    Does (.tbStepWrite hi) s fun d => d = stepWrite s.dev hi.toNat := by
  have frame := stepWrite_frame s.dev hi.toNat
  have straps := congrArg Dev.straps frame
  have pins := congrArg Dev.pins frame
  exact does_access' 0 0x00100814 true (stepWrite · hi.toNat) awake arrives rfl straps pins rfl

/-- TB_STEP_APPLY adds the armed step to the time base, and closes the Signet interval that the step ends (R140, R454). -/
theorem stepApply_spec {s : State} {n : Int} (awake : Awake s) (waits : s.dev.tb.step = some n) :
    Does .tbStepApply s fun d =>
      d.tb = { s.dev.tb with t := (s.dev.tb.t + n.toNat * 2 ^ 32) % 2 ^ 96, step := none } ∧ rd d Reg.clkTbStatStepPend = 0 ∧
      (sgnOn s.dev = false → RegsKept s.dev d [Reg.clkTbStatStepPend.key] ∧ { d with tb := s.dev.tb, regs := s.dev.regs } = s.dev) := by
  refine does_run stepApply awake rfl ?_
  rw [stepApply_armed waits]
  obtain ⟨time, fields⟩ := signetStep_belowSgn (stepped s.dev n) (now s.dev)
  refine ⟨by rw [sealed_tb, time]; rfl, ?_, fun off => ?_⟩
  · rw [rd_sealed, fields _ (by decide)]
    exact rd_wr_same ..
  · rw [signetStep_noSession _ (show sgnOn (stepped s.dev n) = false from off), sealed_of_eq s.dev (stepped s.dev n) rfl rfl]
    exact ⟨stepped_regsKept s.dev n, rfl⟩

/-- TB_SLEW_WRITE adds its signed value to the remaining slew (R140). -/
theorem does_tbSlewWrite {s : State} (ns : Word) (awake : Awake s) (arrives : Arrives s.dev 0 0x00100818 true) :
    Does (.tbSlewWrite ns) s fun d => d = addSlew s.dev ns.toInt := by
  rw [← sgn_toNat]
  exact does_access' 0 0x00100818 true (addSlew · (sgn 32 ns.toNat)) awake arrives rfl rfl rfl rfl

theorem does_ppsEdge {s : State} (pin : Nat) (awake : Awake s) : Does (.ppsEdge pin) s fun d => d = ppsEdge s.dev pin := by
  obtain ⟨-, frame⟩ := ppsEdge_regsOnly s.dev pin
  have straps := congrArg Dev.straps frame
  have pins := congrArg Dev.pins frame
  exact does_run' (ppsEdge · pin) awake rfl straps pins rfl

/-- A command that leaves one device leaves what holds of that device. -/
theorem Does.leaves {c : Instr} {s : State} {e : Dev} {P : Dev → Prop} (h : Does c s fun d => d = e) (he : P e) : Does c s P := by
  obtain ⟨t, ran, queue, rfl⟩ := h
  exact ⟨t, ran, queue, he⟩

/-- Settles O21, one clause for each of the four commands. -/
theorem timeBaseStepsAndSlews : Obligations.TimeBaseStepsAndSlews := by
  unfold Obligations.TimeBaseStepsAndSlews
  refine ⟨fun s hi awake arrives => ?_, fun s n awake waits _ => stepApply_spec awake waits, fun s ns awake arrives => ?_,
    fun s pin awake => ?_⟩
  · refine (does_tbStepWrite hi awake arrives).leaves ⟨fun pos => ?_, fun neg => ?_, stepWrite_zero, stepWrite_frame s.dev hi.toNat⟩
    · rw [stepWrite_pos pos]
      obtain ⟨time, pending, kept, -⟩ := arm_spec s.dev (stepNs s.dev hi.toNat)
      exact ⟨time, pending, kept⟩
    · rw [stepWrite_neg neg]
      obtain ⟨time, active, kept, -⟩ := addSlew_spec s.dev (stepNs s.dev hi.toNat)
      exact ⟨time, active, kept⟩
  · exact (does_tbSlewWrite ns awake arrives).leaves (addSlew_spec s.dev ns.toInt)
  · refine (does_ppsEdge pin awake).leaves ⟨fun en at_pin => ?_, ppsEdge_ignored⟩
    rw [ppsEdge_taken en at_pin]
    exact captured_spec s.dev

end Sys2Proof.Machine
end

section
/-!
PROOFS. The architecture (01_architecture): which fields of the device the messages on the links, the reports of faults and the accesses to
device memory change. Labels, records and banks are none of them, nor the pins, the straps and the epochs.
-/
namespace Sys2Proof.Machine.Ops

/-! ### Messages on the links -/

/-- The device beside the link layers, Signet's sums and the record of outputs: what the sending of messages leaves. -/
def besideLinks (d : Dev) : Dev :=
  { d with trl := Dev.reset.trl, clp := Dev.reset.clp, sgn := Dev.reset.sgn, out := [] }

@[simp] theorem besideLinks_meter (d : Dev) (j n : Nat) : besideLinks (meter d j n) = besideLinks d := by
  obtain ⟨x, hx⟩ := meter_eq d j n
  rw [hx]
  rfl

@[simp] theorem besideLinks_setLink (d : Dev) (l : Nat) (x : Link) : besideLinks (setLink d l x) = besideLinks d := by
  unfold setLink; split <;> rfl

@[simp] theorem besideLinks_emitFlit (d : Dev) (l : Nat) (b : Bytes) : besideLinks (emitFlit d l b) = besideLinks d :=
  besideLinks_meter d 21 1

@[simp] theorem besideLinks_pump (l n : Nat) (d : Dev) : besideLinks (pump l n d) = besideLinks d := by
  induction n generalizing d with
  | zero => rfl
  | succ n ih =>
    simp only [pump]
    split
    · rfl
    · split <;> simp only [ih, besideLinks_emitFlit, besideLinks_setLink]

@[simp] theorem besideLinks_sendFrom (d : Dev) (l ty src dst handle : Nat) (res : Bool) (msg : Bytes) :
    besideLinks (sendFrom d l ty src dst handle res msg) = besideLinks d := by
  unfold sendFrom
  split
  · rfl
  · simp only [besideLinks_pump, besideLinks_setLink]

@[simp] theorem besideLinks_sendOn (d : Dev) (l ty dst handle : Nat) (msg : Bytes) :
    besideLinks (sendOn d l ty dst handle msg) = besideLinks d := besideLinks_sendFrom ..

@[simp] theorem besideLinks_sendTo (d : Dev) (id ty handle : Nat) (msg : Bytes) :
    besideLinks (sendTo d id ty handle msg) = besideLinks d := by
  unfold sendTo; split <;> simp only [besideLinks_sendOn]

@[simp] theorem besideLinks_sendAll (d : Dev) (ty : Nat) (msg : Bytes) : besideLinks (sendAll d ty msg) = besideLinks d :=
  foldl_keeps besideLinks (fun d l => besideLinks_sendOn d l ty 15 0 msg) _ d

@[simp] theorem besideLinks_sendPartner (d : Dev) (ty : Nat) (msg : Bytes) : besideLinks (sendPartner d ty msg) = besideLinks d := by
  unfold sendPartner; split <;> simp only [besideLinks_sendOn]

@[simp] theorem besideLinks_sendMates (d : Dev) (ty : Nat) (msg : Bytes) : besideLinks (sendMates d ty msg) = besideLinks d := by
  unfold sendMates
  dsimp only
  split <;> split <;> simp only [besideLinks_sendPartner, besideLinks_sendAll]

@[simp] theorem besideLinks_answerCoord (d : Dev) (msg : Bytes) : besideLinks (answerCoord d msg) = besideLinks d := by
  unfold answerCoord
  split
  · exact besideLinks_sendTo ..
  · split <;> simp only [besideLinks_sendPartner]

/-- What does not read what the sending of messages changes is as before. -/
theorem keeps_of_links {β : Type} (g : Dev → β) (hg : ∀ d, g (besideLinks d) = g d) {d e : Dev} (h : besideLinks e = besideLinks d) :
    g e = g d := (hg e).symm.trans ((congrArg g h).trans (hg d))

/-! ### Reports of faults -/

/-- The device beside what messages, interrupts, reports of faults and accesses to device memory change: the link layers, Signet's sums, the
outputs, register fields, counters, the vectors that wait, the graft in progress, the refit policies, the fault manager, memory itself. -/
def besideFaults (d : Dev) : Dev :=
  { besideLinks d with
    regs := [], ctrs := [], hif := Dev.reset.hif, grf := Dev.reset.grf, refit := [], flt := Dev.reset.flt, mem := Dev.reset.mem }

theorem besideFaults_of_links {d e : Dev} (h : besideLinks e = besideLinks d) : besideFaults e = besideFaults d :=
  keeps_of_links besideFaults (fun _ => rfl) h

/-- What does not read what messages, faults and accesses to memory change is as before. -/
theorem keeps_of_faults {β : Type} (g : Dev → β) (hg : ∀ d, g (besideFaults d) = g d) {d e : Dev} (h : besideFaults e = besideFaults d) :
    g e = g d := (hg e).symm.trans ((congrArg g h).trans (hg d))

@[simp] theorem besideFaults_wr (d : Dev) (f : Fld) (v : Nat) : besideFaults (wr d f v) = besideFaults d := rfl
@[simp] theorem besideFaults_wrs (d : Dev) (l : List (Fld × Nat)) : besideFaults (wrs d l) = besideFaults d :=
  foldl_keeps besideFaults (f := fun d (p : Fld × Nat) => wr d p.1 p.2) (fun _ _ => rfl) l d
@[simp] theorem besideFaults_count (d : Dev) (a n : Nat) : besideFaults (count d a n) = besideFaults d := rfl
@[simp] theorem besideFaults_tick (d : Dev) (a : Nat) : besideFaults (tick d a) = besideFaults d := rfl
@[simp] theorem besideFaults_tickIf (b : Bool) (d : Dev) (a : Nat) : besideFaults (tickIf b d a) = besideFaults d := by cases b <;> rfl
@[simp] theorem besideFaults_emit (d : Dev) (o : Out) : besideFaults (emit d o) = besideFaults d := rfl
@[simp] theorem besideFaults_mem (d : Dev) (x : Mem) : besideFaults { d with mem := x } = besideFaults d := rfl
@[simp] theorem besideFaults_flt (d : Dev) (x : Flt) : besideFaults { d with flt := x } = besideFaults d := rfl

@[simp] theorem besideFaults_meter (d : Dev) (j n : Nat) : besideFaults (meter d j n) = besideFaults d :=
  besideFaults_of_links (besideLinks_meter ..)

@[simp] theorem besideFaults_msix (d : Dev) (fn vec : Nat) : besideFaults (msix d fn vec) = besideFaults d := by
  unfold msix
  split
  · rfl
  · split <;> rfl

@[simp] theorem besideFaults_irq (d : Dev) (en vec : Fld) : besideFaults (irq d en vec) = besideFaults d := by
  unfold irq; split <;> simp only [besideFaults_msix]

@[simp] theorem besideFaults_countFail (d : Dev) (code : Nat) : besideFaults (countFail d code) = besideFaults d := by
  unfold countFail
  split
  · rfl
  · split <;> simp only [besideFaults_tickIf, besideFaults_tick]

@[simp] theorem besideFaults_portIrq (d : Dev) (p : Nat) : besideFaults (portIrq d p) = besideFaults d := by
  unfold portIrq; split <;> simp only [besideFaults_msix]

@[simp] theorem besideFaults_sendReport (d : Dev) (addr : Nat) (bytes : Bytes) : besideFaults (sendReport d addr bytes) = besideFaults d := by
  unfold sendReport; split <;> rfl

/-- A graft that fails tells its port, its policy, CFG or its coordinator (R271, R263, R472, R283). -/
@[simp] theorem besideFaults_graftFailed (d : Dev) (g : Graft) (code item member : Nat) (more : Bytes) :
    besideFaults (graftFailed d g code item member more) = besideFaults d := by
  simp only [graftFailed, besideFaults_portIrq, besideFaults_sendReport]
  split
  · simp only [portFailed, besideFaults_wrs, besideFaults_countFail]
  · split
    · exact besideFaults_countFail d code
    · split
      · simp only [besideFaults_wr, besideFaults_countFail]
      · split
        · exact (besideFaults_of_links (besideLinks_answerCoord ..)).trans (besideFaults_countFail d code)
        · exact besideFaults_countFail d code

@[simp] theorem besideFaults_abortMates (d : Dev) (g : Graft) : besideFaults (abortMates d g) = besideFaults d := by
  unfold abortMates
  split
  · exact besideFaults_of_links (besideLinks_sendMates ..)
  · rfl

@[simp] theorem besideFaults_abortSoft (d : Dev) (code member : Nat) : besideFaults (abortSoft d code member) = besideFaults d := by
  unfold abortSoft
  split
  · rfl
  · exact (besideFaults_graftFailed ..).trans (besideFaults_abortMates ..)

@[simp] theorem besideFaults_startRemap (d : Dev) (g : FltGraft) : besideFaults (startRemap d g) = besideFaults d := by
  simp only [startRemap, besideFaults_wrs, besideFaults_flt, besideFaults_abortSoft]

@[simp] theorem besideFaults_enterHold (d : Dev) (cls : Nat) : besideFaults (enterHold d cls) = besideFaults d := by
  simp only [enterHold, besideFaults_tick, besideFaults_wrs]
  split <;> rfl

@[simp] theorem besideFaults_degrade (d : Dev) : besideFaults (degrade d) = besideFaults d := by
  unfold degrade
  dsimp only
  split <;> rfl

@[simp] theorem besideFaults_fltLog (d : Dev) (cls pool unit action epoch : Nat) :
    besideFaults (fltLog d cls pool unit action epoch) = besideFaults d := by
  simp only [fltLog, besideFaults_irq, besideFaults_tick, besideFaults_wrs]

@[simp] theorem besideFaults_mediumFault (d : Dev) (code cls unit : Nat) : besideFaults (mediumFault d code cls unit) = besideFaults d := by
  simp only [mediumFault]
  split
  · exact besideFaults_fltLog ..
  · split
    · simp only [besideFaults_fltLog, besideFaults_startRemap]
    · split <;> simp only [besideFaults_fltLog, besideFaults_enterHold, besideFaults_degrade]

/-- A fault of device memory: a codeword (7), a die (8), a stack (9) (R397, R402). -/
theorem besideFaults_fault (d : Dev) (code unit : Nat) {cls : Nat} (h : cls = 7 ∨ cls = 8 ∨ cls = 9) :
    besideFaults (fault d code cls unit) = besideFaults d := by
  have acts : besideFaults (faultActs d code cls unit) = besideFaults d := by
    rcases h with rfl | rfl | rfl
    · simp only [faultActs, poolOf, besideFaults_fltLog]
    · simp only [faultActs, poolOf, besideFaults_mediumFault]
    · simp only [faultActs, poolOf, besideFaults_mediumFault]
  unfold fault
  split
  · simp only [besideFaults_flt, besideFaults_fltLog]
  · exact acts

/-! ### Accesses to device memory -/

@[simp] theorem besideFaults_startRepair (d : Dev) (u : Nat) (col : Bool) (idx : Nat) :
    besideFaults (startRepair d u col idx) = besideFaults d := by
  unfold startRepair; split <;> rfl

@[simp] theorem besideFaults_noteFix (d : Dev) (a : Nat) (x : Nat × Nat) : besideFaults (noteFix d a x) = besideFaults d := by
  simp only [noteFix, apply_ite besideFaults, besideFaults_startRepair, besideFaults_mem, ite_self]

@[simp] theorem besideFaults_unitLost (d : Dev) (u : Nat) : besideFaults (unitLost d u) = besideFaults d := by
  unfold unitLost
  split
  · rfl
  · dsimp only
    split
    · exact besideFaults_fault _ _ _ (.inr (.inl rfl))
    · exact besideFaults_fault _ _ _ (.inr (.inr rfl))

@[simp] theorem besideFaults_noteUe (d : Dev) (a : Nat) : besideFaults (noteUe d a) = besideFaults d := by
  simp only [noteUe]
  split
  · exact besideFaults_unitLost ..
  · rfl

@[simp] theorem besideFaults_recordUe (d : Dev) (a src ueWords : Nat) : besideFaults (recordUe d a src ueWords) = besideFaults d := by
  simp only [recordUe, besideFaults_noteUe]
  refine (besideFaults_fault _ _ _ (.inl rfl)).trans ?_
  split
  · rfl
  · simp only [besideFaults_irq, besideFaults_wrs, besideFaults_tick]

@[simp] theorem besideFaults_recordCe (d : Dev) (b src : Nat) (r : BlkRead) : besideFaults (recordCe d b src r) = besideFaults d := by
  have fixes := fun d => foldl_keeps besideFaults (fun d x => besideFaults_noteFix d b x) r.fixes d
  simp only [recordCe, each, fixes]
  split <;> split <;> simp only [besideFaults_irq, besideFaults_wr, besideFaults_wrs, besideFaults_count]

@[simp] theorem besideFaults_readLines (d : Dev) (b src : Nat) (lines : List Nat) :
    besideFaults (readLines d b src lines).1 = besideFaults d := by
  unfold readLines
  split
  · rfl
  · split
    · rfl
    · rename_i e _
      have ues := fun (l : List Nat) (d : Dev) => foldl_keeps besideFaults
        (fun d j => besideFaults_recordUe d (128 * b + 32 * j) src (blkDecode e).ueWords) l d
      dsimp only
      split <;> split <;> simp only [each, ues, besideFaults_mem, besideFaults_recordCe]

@[simp] theorem besideFaults_readBlock (d : Dev) (a src : Nat) : besideFaults (readBlock d a src).1 = besideFaults d := by
  simp only [readBlock]
  split <;> simp only [besideFaults_startRepair, besideFaults_readLines]

/-- Reads folded over blocks leave what each of them leaves. -/
theorem foldl_fst_keeps {α β γ : Type} (g : Dev → γ) {f : Dev × β → α → Dev × β} (h : ∀ x a, g (f x a).1 = g x.1) (l : List α)
    (x : Dev × β) : g (l.foldl f x).1 = g x.1 := by
  induction l generalizing x with
  | nil => rfl
  | cons a l ih => exact (ih (f x a)).trans (h x a)

@[simp] theorem besideFaults_memRead (d : Dev) (a n : Nat) : besideFaults (memRead d a n).1 = besideFaults d := by
  simp only [memRead]
  refine (foldl_fst_keeps besideFaults (fun x b => ?_) _ _).trans (besideFaults_meter d _ _)
  exact besideFaults_readBlock x.1 (b * 128) 0

@[simp] theorem besideFaults_injectInto (d : Dev) (b : Nat) : besideFaults (injectInto d b) = besideFaults d := by
  unfold injectInto; split <;> rfl

@[simp] theorem besideFaults_writeBlock (d : Dev) (b a : Nat) (bs : Bytes) : besideFaults (writeBlock d b a bs).1 = besideFaults d := by
  have lost := fun (l : List Nat) (d : Dev) => foldl_keeps besideFaults
    (fun d j => besideFaults_tick d (unitCtr Ctr.memPartialUe (unitAt d (128 * b + 32 * j)))) l d
  unfold writeBlock
  dsimp only
  split
  · rfl
  · split <;> split <;> simp only [each, lost, besideFaults_injectInto, besideFaults_mem, besideFaults_readLines]

@[simp] theorem besideFaults_memWrite (d : Dev) (a : Nat) (bs : Bytes) : besideFaults (memWrite d a bs) = besideFaults d := by
  have puts := fun (l : List (Nat × Bytes)) (d : Dev) => foldl_keeps besideFaults
    (f := fun d p => memPut d p.1 p.2) (fun _ _ => rfl) l d
  refine (puts _ _).trans ?_
  simp only [codeWrite]
  refine (foldl_fst_keeps besideFaults (fun x b => ?_) _ _).trans (besideFaults_meter d _ _)
  exact besideFaults_writeBlock x.1 b a bs

@[simp] theorem besideFaults_memUpdate (d : Dev) (a n : Nat) (f : Nat → Nat) : besideFaults (memUpdate d a n f) = besideFaults d :=
  (besideFaults_memWrite ..).trans (besideFaults_memRead ..)

@[simp] theorem besideFaults_memClear (d : Dev) (a n : Nat) : besideFaults (memClear d a n) = besideFaults d := by
  simp only [memClear]
  split
  · exact besideFaults_injectInto ..
  · rfl

end Sys2Proof.Machine.Ops
end

section
/-!
PROOFS. The tree ensembles (07_espalier_trees): labels in the queue, the records that they reach, the accumulator banks.
-/
namespace Sys2Proof.Machine
namespace Ops

/-! ### Bytes of a region that is zeroed -/

/-- A map filtered by a property of its keys. -/
theorem find?_filter_key {α : Type} (p : Nat → Bool) (m : Map α) (k : Nat) :
    find? (m.filter fun c => p c.1) k = if p k then find? m k else none := by
  induction m with
  | nil => cases p k <;> rfl
  | cons c r ih =>
    obtain ⟨i, v⟩ := c
    by_cases hi : i = k
    · subst hi
      cases hp : p i <;> simp [find?, hp, ih]
    · cases hp : p i <;> simp [find?, hp, ih, hi]

theorem byteGet_bytesClear (m : List Host.Cell) (a n x : Nat) :
    byteGet (bytesClear m a n) x = if a ≤ x ∧ x < a + n then 0 else byteGet m x := by
  have h := find?_filter_key (fun k => !(decide (a ≤ k) && decide (k < a + n))) m x
  simp only [byteGet, getD, bytesClear, h]
  by_cases hx : a ≤ x ∧ x < a + n
  · simp [hx, Memory.unlisted]
  · rw [if_neg hx, if_pos (by simp only [Bool.not_eq_true', Bool.and_eq_false_iff, decide_eq_false_iff_not]; omega)]

/-- A region that is zeroed reads zero. -/
theorem memClear_zero (d : Dev) {a n x : Nat} (lo : a ≤ x) (hi : x < a + n) : byteGet (memClear d a n).mem.cells x = 0 := by
  rw [memClear_cells, byteGet_bytesClear, if_pos ⟨lo, hi⟩]

theorem memClear_kept (d : Dev) (a n : Nat) : MemKept d (memClear d a n) a n := fun x hx => by
  rw [memClear_cells, byteGet_bytesClear, if_neg (by omega)]

/-! ### Labels that arrive (R189, R261, R262, R384) -/

/-- A label that a ring may deliver: 32 bytes with the reserved ones zero, of a slot of the ring's tenant, which has LABEL_EN (R261, R262). -/
def LabelAllowed (d : Dev) (t : Nat) (raw : Bytes) : Prop :=
  raw.length = 32 ∧ labelZeros raw = true ∧ ownsSlot d t (le raw 8 1) = true ∧ rdB d (Reg.cfgTenantMdlLabelEn t) = true

/-- A label of this device's own goes to the group while its slot is ACTIVE (R384). -/
def forwardLabel (d : Dev) (slot : Nat) (raw : Bytes) : Dev :=
  if inGroup d && !(groupLinks d).isEmpty && getD (curCfg d).active slot 0 != 0 then sendAll (tick d Ctr.trlLabelFwd) 10 raw else d

theorem labelIntake_rejected {d : Dev} {t : Nat} {raw : Bytes} (h : ¬LabelAllowed d t raw) :
    labelIntake d (.ring t) raw = tick d Ctr.cfgLabelRej := by
  simp only [labelIntake]
  refine if_pos (Classical.byContradiction fun taken => h ?_)
  simp only [not_or, ne_eq, Classical.not_not, Bool.not_eq_true', Bool.not_eq_false] at taken
  exact taken

theorem labelIntake_allowed {d : Dev} {t : Nat} {raw : Bytes} (h : LabelAllowed d t raw) :
    labelIntake d (.ring t) raw = forwardLabel (queueLabel d { tenant := t, fwd := false, raw, t := now d }) (le raw 8 1) raw := by
  obtain ⟨hlen, hzeros, howns, hen⟩ := h
  simp only [labelIntake]
  exact if_neg (by simp [hlen, hzeros, howns, hen])

/-- Forwarding counts in LABEL_FWD and leaves the rest to the links. -/
theorem forwardLabel_keeps {β : Type} (g : Dev → β) (links : ∀ d, g (besideLinks d) = g d) (counts : ∀ d a, g (tick d a) = g d) (d : Dev)
    (slot : Nat) (raw : Bytes) : g (forwardLabel d slot raw) = g d := by
  unfold forwardLabel
  split
  · exact (keeps_of_links g links (besideLinks_sendAll ..)).trans (counts d _)
  · rfl

theorem ctr_forwardLabel (d : Dev) (slot : Nat) (raw : Bytes) {a : Nat} (h : a ≠ Ctr.trlLabelFwd) :
    ctr (forwardLabel d slot raw) a = ctr d a := by
  unfold forwardLabel
  split
  · have ctrs := keeps_of_links Dev.ctrs (fun _ => rfl) (besideLinks_sendAll (tick d Ctr.trlLabelFwd) 10 raw)
    exact (congrArg (getD · a 0) ctrs).trans (ctr_tick_ne d _ _ h)
  · rfl

theorem queueLabel_room {d : Dev} (l : Label) (h : d.labels.length < 65536) : queueLabel d l = { d with labels := d.labels ++ [l] } :=
  if_neg (by omega)

theorem queueLabel_full {d : Dev} (l : Label) (h : 65536 ≤ d.labels.length) : queueLabel d l = tick d Ctr.espLabelDrop := if_pos h

theorem queueLabel_pins_straps (d : Dev) (l : Label) : (queueLabel d l).straps = d.straps ∧ (queueLabel d l).pins = d.pins := by
  unfold queueLabel; split <;> exact ⟨rfl, rfl⟩

theorem labelIntake_pins_straps (d : Dev) (src : LabelSrc) (raw : Bytes) :
    (labelIntake d src raw).straps = d.straps ∧ (labelIntake d src raw).pins = d.pins := by
  cases src with
  | member => exact queueLabel_pins_straps ..
  | ring t =>
    by_cases allowed : LabelAllowed d t raw
    · obtain ⟨straps, pins⟩ := queueLabel_pins_straps d { tenant := t, fwd := false, raw, t := now d }
      rw [labelIntake_allowed allowed]
      exact ⟨(forwardLabel_keeps Dev.straps (fun _ => rfl) (fun _ _ => rfl) ..).trans straps,
        (forwardLabel_keeps Dev.pins (fun _ => rfl) (fun _ _ => rfl) ..).trans pins⟩
    · rw [labelIntake_rejected allowed]
      exact ⟨rfl, rfl⟩

/-! ### Labels that are applied to leaf-path records (R189, R190) -/

/-- The leaf-path record of the pass that a label names (R261). -/
def leafNamed (raw : Bytes) (r : LeafRec) : Bool :=
  decide (r.evT = le raw 0 8 ∧ r.tag = le raw 12 3 ∧ r.src = le raw 10 1 ∧ r.slot = le raw 8 1 ∧ r.pass = le raw 9 1 % 4)

theorem labelNames_leaf {raw : Bytes} (h : bit (le raw 9 1) 2 = false) (r : LeafRec) :
    labelNames raw false r.evT r.tag r.src r.slot r.pass = leafNamed raw r := by
  simp only [labelNames, leafNamed, h, beq_self_eq_true, Bool.true_and]

@[simp] theorem besideFaults_addLeaf (d : Dev) (a : Nat) (g : Int) (h : Nat) : besideFaults (addLeaf d a g h) = besideFaults d := by
  simp only [addLeaf, besideFaults_memUpdate]

/-- The sums of a label go to memory (R190). -/
@[simp] theorem besideFaults_applyLeaf (d : Dev) (e : Ensemble) (a : Nat) (r : LeafRec) (w : Nat) (gh : List (Int × Nat)) :
    besideFaults (applyLeaf d e a r w gh) = besideFaults d := by
  simp only [applyLeaf, bumpLabels, besideFaults_memUpdate]
  exact foldl_keeps besideFaults (fun d t => besideFaults_addLeaf d _ _ _) _ d

@[simp] theorem lpsHorizon_labels (d : Dev) (q : List Label) : lpsHorizon { d with labels := q } = lpsHorizon d := rfl
@[simp] theorem curCfg_labels (d : Dev) (q : List Label) : curCfg { d with labels := q } = curCfg d := rfl

theorem labels_labelMiss (d : Dev) (l : Label) (c : Nat) : (labelMiss d l c).labels = d.labels := by
  unfold labelMiss; split <;> rfl

section
variable {d : Dev} {l : Label} {rest : List Label} (queue : d.labels = l :: rest) (leaf : bit (le l.raw 9 1) 2 = false)
include queue leaf

theorem labelApply_unnamed (own : l.fwd = false) (unnamed : firstIdx (leafNamed l.raw) d.leafRecs = none) :
    labelApply d = tick { d with labels := rest } Ctr.espLabelMiss := by
  simp [labelApply, queue, leaf, labelNames_leaf leaf, unnamed, labelMiss, own]

/-- Whatever becomes of a label, it leaves the queue. -/
theorem labels_labelApply : (labelApply d).labels = rest := by
  simp only [labelApply, queue, leaf, Bool.not_false, if_true]
  split
  · exact labels_labelMiss ..
  · split
    · exact labels_labelMiss ..
    · split
      · rfl
      · split
        · split
          · rfl
          · split
            · rfl
            · exact keeps_of_faults Dev.labels (fun _ => rfl) (besideFaults_applyLeaf ..)
        · split <;> rfl
        · rfl

variable {i : Nat} {r : LeafRec} (idx : firstIdx (leafNamed l.raw) d.leafRecs = some i) (found : d.leafRecs[i]? = some r)
include idx found

theorem labelApply_late (own : l.fwd = false) (late : r.evT + lpsHorizon d ≤ l.t) :
    labelApply d = tick { d with labels := rest } Ctr.espLabelMiss := by
  simp [labelApply, queue, leaf, labelNames_leaf leaf, idx, found, late, labelMiss, own]

variable (timely : l.t < r.evT + lpsHorizon d)
include timely

theorem labelApply_dup (used : r.used = true) : labelApply d = tick { d with labels := rest } Ctr.espLabelDup := by
  simp [labelApply, queue, leaf, labelNames_leaf leaf, idx, found, Nat.not_le.mpr timely, used]

variable {m : Model} {e : Ensemble} (unused : r.used = false) (model : find? (curCfg d).models (le l.raw 8 1) = some m)
  (ens : m.ens = some e)
include unused model ens

theorem labelApply_stale (other : e.structId ≠ r.structId) : labelApply d = tick { d with labels := rest } Ctr.espLabelStale := by
  cases bank : activeBank { d with labels := rest } (le l.raw 8 1) 0 <;>
    simp [labelApply, queue, leaf, labelNames_leaf leaf, idx, found, Nat.not_le.mpr timely, unused, model, ens, bank, other]

/-- A label that reaches its record marks it; its sums go to memory (R189, R190). -/
theorem labelApply_reaches (same : e.structId = r.structId) :
    besideFaults (labelApply d) =
      besideFaults { d with labels := rest, leafRecs := d.leafRecs.set i { r with used := true } } := by
  cases bank : activeBank { d with labels := rest } (le l.raw 8 1) 0 with
  | none => simp [labelApply, queue, leaf, labelNames_leaf leaf, idx, found, Nat.not_le.mpr timely, unused, model, ens, bank, same]
  | some a =>
    cases grads : Esp.gradHess e r.margins (if e.loss = 0 then sgn 32 (le l.raw 20 4) else le l.raw 20 4) <;>
      simp [labelApply, queue, leaf, labelNames_leaf leaf, idx, found, Nat.not_le.mpr timely, unused, model, ens, bank, same, grads]
end

/-! ### Records that expire (R188, R189) -/

/-- A record stays while its horizon has not come, and past it where a label in the queue has reached it in time (R188, R189). -/
def leafStays (d : Dev) (r : LeafRec) : Bool :=
  decide (now d < r.evT + lpsHorizon d) || (!r.used && labelWaits d false r.evT r.tag r.src r.slot r.pass)
def headStays (d : Dev) (r : HeadRec) : Bool :=
  decide (now d < r.evT + lpsHorizon d) || (!r.used && labelWaits d true r.evT r.tag r.src r.slot r.pass)

theorem expireRecords_eq (d : Dev) :
    expireRecords d = count { d with leafRecs := d.leafRecs.filter (leafStays d), headRecs := d.headRecs.filter (headStays d) }
      Ctr.espLpsExpire (((d.leafRecs.filter (!leafStays d ·)).filter (!·.used)).length +
        ((d.headRecs.filter (!headStays d ·)).filter (!·.used)).length) := by
  simp only [expireRecords, List.partition_eq_filter_filter]
  rfl

/-! ### The accumulator banks (R191, R221, R264) -/

theorem wrs_pins_straps (d : Dev) (l : List (Fld × Nat)) : (wrs d l).straps = d.straps ∧ (wrs d l).pins = d.pins :=
  ⟨keeps_of_faults Dev.straps (fun _ => rfl) (besideFaults_wrs d l), keeps_of_faults Dev.pins (fun _ => rfl) (besideFaults_wrs d l)⟩

theorem bankReg_busy_ne_bank (part fn : Nat) : (bankReg part fn).1.key ≠ (bankReg part fn).2.2.1.key := by
  unfold bankReg
  split <;> simp only [portF, ne_eq, Nat.add_right_cancel_iff] <;> decide

theorem bankReg_rej_width (part fn : Nat) : (bankReg part fn).2.1.w = 1 := by unfold bankReg; split <;> rfl
theorem bankReg_busy_width (part fn : Nat) : (bankReg part fn).1.w = 1 := by unfold bankReg; split <;> rfl

/-- A SWAP or CLEAR is carried out: the slot has a refit part, the function owns the slot, no policy holds it (R191, R264). -/
def BankAllowed (d : Dev) (fn slot part : Nat) : Prop :=
  (refitPart d slot part).isSome = true ∧ ownsSlot d fn slot = true ∧ polOn d slot = false

/-- The exchange of the banks: the frozen one becomes active and starts from zero (R191). -/
theorem swapBanks_spec {d : Dev} {slot part : Nat} {b : Bank} (bank : bank? d slot part = some b)
    (refits : (refitPart d slot part).isSome = true) :
    (swapBanks d slot part).banks = set d.banks (2 * slot + part) { b with active := !b.active } ∧
      ∀ x, bankAddr b (!b.active) ≤ x → x < bankAddr b (!b.active) + b.size →
        byteGet (swapBanks d slot part).mem.cells x = 0 := by
  obtain ⟨⟨sid, pl⟩, hp⟩ := Option.isSome_iff_exists.mp refits
  simp only [swapBanks, bank, hp]
  refine ⟨?_, fun x lo hi => memClear_zero _ lo hi⟩
  rw [memClear_banks, keeps_of_faults Dev.banks (fun _ => rfl) (besideFaults_memWrite ..)]

/-- The exchange touches neither straps nor pins. -/
theorem swapBanks_pins_straps (d : Dev) (slot part : Nat) :
    (swapBanks d slot part).straps = d.straps ∧ (swapBanks d slot part).pins = d.pins := by
  unfold swapBanks
  split
  · dsimp only
    simp only [memClear_straps, memClear_pins]
    exact ⟨keeps_of_faults Dev.straps (fun _ => rfl) (besideFaults_memWrite ..),
      keeps_of_faults Dev.pins (fun _ => rfl) (besideFaults_memWrite ..)⟩
  · exact ⟨rfl, rfl⟩

theorem clearFrozen_pins_straps (d : Dev) (slot part : Nat) :
    (clearFrozen d slot part).straps = d.straps ∧ (clearFrozen d slot part).pins = d.pins := by
  unfold clearFrozen
  split
  · exact ⟨memClear_straps .., memClear_pins ..⟩
  · exact ⟨rfl, rfl⟩

theorem clearFrozen_bank {d : Dev} {slot part : Nat} {b : Bank} (bank : bank? d slot part = some b) :
    clearFrozen d slot part = memClear d (bankAddr b (!b.active)) b.size := by
  simp only [clearFrozen, bank]

/-- BUSY is set in the function's copy, and BANK names the active bank (R191, R504). -/
def bankBusy (d : Dev) (fn slot part : Nat) : Dev :=
  wrs d [((bankReg part (copyNo fn)).1, 1),
    ((bankReg part (copyNo fn)).2.2.1, b2n (match bank? d slot part with | some b => b.active | none => false))]

theorem rd_bankBusy (d : Dev) (fn slot part : Nat) : rd (bankBusy d fn slot part) (bankReg part (copyNo fn)).1 = 1 := by
  refine (rd_wr_ne _ _ _ _ (bankReg_busy_ne_bank part _)).trans ((rd_wr_same ..).trans ?_)
  exact congrArg (fun w => 1 % 2 ^ w) (bankReg_busy_width ..)

theorem bankCmd_refused {d : Dev} {fn slot part : Nat} {swap clear : Bool} (idle : rdB d (bankReg part (copyNo fn)).1 = false)
    (asked : swap = true ∨ clear = true) (h : ¬BankAllowed d fn slot part) :
    bankCmd d fn slot part swap clear = wr d (bankReg part (copyNo fn)).2.1 1 := by
  have refused : (refitPart d slot part).isNone = true ∨ (!ownsSlot d fn slot) = true ∨ polOn d slot = true := by
    refine Classical.byContradiction fun carried => h ?_
    simp only [not_or, Bool.not_eq_true', Bool.not_eq_true, Bool.not_eq_false, Option.isNone_eq_false_iff] at carried
    exact carried
  simp only [bankCmd]
  rw [if_neg (by rcases asked with rfl | rfl <;> simp [idle]), if_pos refused]

section
variable {d : Dev} {fn slot part : Nat} (idle : rdB d (bankReg part (copyNo fn)).1 = false) (allowed : BankAllowed d fn slot part)
include idle allowed

theorem bankCmd_swap : bankCmd d fn slot part true false =
    bankBusy (wr64 (swapBanks d slot part) (bankReg part (copyNo fn)).2.2.2.1 (bankReg part (copyNo fn)).2.2.2.2
      (frozenAddr (swapBanks d slot part) slot part)) fn slot part := by
  obtain ⟨refits, owns, free⟩ := allowed
  simp only [bankCmd]
  rw [if_neg (by simp [idle]), if_neg (by simp [owns, free, Option.isNone_eq_false_iff.mpr refits])]
  rfl

theorem bankCmd_clear : bankCmd d fn slot part false true = bankBusy (clearFrozen d slot part) fn slot part := by
  obtain ⟨refits, owns, free⟩ := allowed
  simp only [bankCmd]
  rw [if_neg (by simp [idle]), if_neg (by simp [owns, free, Option.isNone_eq_false_iff.mpr refits])]
  rfl
end

theorem bankBusy_frame (d : Dev) (fn slot part : Nat) : { bankBusy d fn slot part with regs := d.regs } = d := wrs_frame d _

theorem bankCmd_pins_straps {d : Dev} {fn slot part : Nat} (idle : rdB d (bankReg part (copyNo fn)).1 = false) (swap : Bool) :
    (bankCmd d fn slot part swap (!swap)).straps = d.straps ∧ (bankCmd d fn slot part swap (!swap)).pins = d.pins := by
  by_cases allowed : BankAllowed d fn slot part
  · cases swap with
    | true =>
      obtain ⟨straps, pins⟩ := swapBanks_pins_straps d slot part
      rw [Bool.not_true, bankCmd_swap idle allowed]
      exact ⟨(wrs_pins_straps ..).1.trans straps, (wrs_pins_straps ..).2.trans pins⟩
    | false =>
      obtain ⟨straps, pins⟩ := clearFrozen_pins_straps d slot part
      rw [Bool.not_false, bankCmd_clear idle allowed]
      exact ⟨(wrs_pins_straps ..).1.trans straps, (wrs_pins_straps ..).2.trans pins⟩
  · rw [bankCmd_refused idle (by cases swap <;> simp) allowed]
    exact ⟨rfl, rfl⟩

section
variable {d : Dev} {fn slot part : Nat} {b : Bank} (idle : rdB d (bankReg part (copyNo fn)).1 = false)
  (allowed : BankAllowed d fn slot part) (bank : bank? d slot part = some b)
include idle allowed

theorem rd_bankCmd_busy (swap : Bool) : rd (bankCmd d fn slot part swap (!swap)) (bankReg part (copyNo fn)).1 = 1 := by
  cases swap with
  | true => rw [Bool.not_true, bankCmd_swap idle allowed]; exact rd_bankBusy ..
  | false => rw [Bool.not_false, bankCmd_clear idle allowed]; exact rd_bankBusy ..

include bank

/-- After a SWAP the frozen bank is the active one and zero; the banks of the other slots and parts are as before (R191). -/
theorem bankCmd_swap_spec :
    bank? (bankCmd d fn slot part true false) slot part = some { b with active := !b.active } ∧
      (∀ x, bankAddr b (!b.active) ≤ x → x < bankAddr b (!b.active) + b.size →
        byteGet (bankCmd d fn slot part true false).mem.cells x = 0) ∧
      ∀ k, k ≠ 2 * slot + part → find? (bankCmd d fn slot part true false).banks k = find? d.banks k := by
  obtain ⟨banks, zero⟩ := swapBanks_spec bank allowed.1
  have frame := bankBusy_frame (wr64 (swapBanks d slot part) (bankReg part (copyNo fn)).2.2.2.1 (bankReg part (copyNo fn)).2.2.2.2
    (frozenAddr (swapBanks d slot part) slot part)) fn slot part
  rw [← bankCmd_swap idle allowed] at frame
  have mem := congrArg Dev.mem frame
  have banks' : (bankCmd d fn slot part true false).banks = _ := (congrArg Dev.banks frame).trans banks
  refine ⟨?_, fun x lo hi => ?_, fun k hk => ?_⟩
  · rw [bank?, banks']
    exact find?_set_same ..
  · exact (congrArg (fun m : Mem => byteGet m.cells x) mem).trans (zero x lo hi)
  · rw [banks']
    exact find?_set_ne _ _ hk

/-- After a CLEAR the frozen bank is zero, and memory beside it and the banks' roles are as before (R191). -/
theorem bankCmd_clear_spec :
    (bankCmd d fn slot part false true).banks = d.banks ∧
      (∀ x, bankAddr b (!b.active) ≤ x → x < bankAddr b (!b.active) + b.size →
        byteGet (bankCmd d fn slot part false true).mem.cells x = 0) ∧
      MemKept d (bankCmd d fn slot part false true) (bankAddr b (!b.active)) b.size := by
  have frame := bankBusy_frame (memClear d (bankAddr b (!b.active)) b.size) fn slot part
  rw [← clearFrozen_bank bank, ← bankCmd_clear idle allowed, clearFrozen_bank bank] at frame
  have banks := congrArg Dev.banks frame
  have mem := congrArg Dev.mem frame
  refine ⟨banks.trans (memClear_banks ..), fun x lo hi => ?_, fun x outside => ?_⟩
  · exact (congrArg (fun m : Mem => byteGet m.cells x) mem).trans (memClear_zero d lo hi)
  · exact (congrArg (fun m : Mem => byteGet m.cells x) mem).trans (memClear_kept d _ _ x outside)
end

/-- BUSY clears in every copy (R191). -/
theorem bankDone_eq (d : Dev) (part : Nat) : bankDone d part = wrs d ((List.range 65).map fun fn => ((bankReg part fn).1, 0)) := by
  simp only [bankDone, wrs, each, List.foldl_map]

theorem bankDone_pins_straps (d : Dev) (part : Nat) : (bankDone d part).straps = d.straps ∧ (bankDone d part).pins = d.pins := by
  rw [bankDone_eq]
  exact wrs_pins_straps ..

theorem bankReg_busy_inj {part m n : Nat} (h : (bankReg part m).1.key = (bankReg part n).1.key) : m = n := by
  unfold bankReg at h
  split at h <;> simp only [portF] at h <;> omega

theorem bankDone_spec (d : Dev) (part : Nat) :
    (∀ fn, fn < 65 → rd (bankDone d part) (bankReg part fn).1 = 0) ∧
      RegsOnly d (bankDone d part) ((List.range 65).map fun fn => (bankReg part fn).1.key) := by
  rw [bankDone_eq]
  refine ⟨fun fn hfn => ?_, (RegsKept.refl d _).wrs _ ?_, wrs_frame d _⟩
  · have apart : ((List.range 65).map fun fn => ((bankReg part fn).1, 0)).Pairwise fun p q => p.1.key ≠ q.1.key :=
      List.pairwise_map.mpr (List.nodup_range.imp fun ne h => ne (bankReg_busy_inj h))
    exact (rd_wrs_mem d _ apart (List.mem_map_of_mem (List.mem_range.mpr hfn))).trans (Nat.zero_mod _)
  · simp only [List.forall_mem_map]
    exact fun fn hfn => List.mem_map_of_mem hfn

end Ops

open Ops

/-! ### The commands -/

theorem does_labelIntake {s : State} (src : LabelSrc) (raw : Bytes) (awake : Awake s) :
    Does (.labelIntake src raw) s fun d => d = labelIntake s.dev src raw := by
  obtain ⟨straps, pins⟩ := labelIntake_pins_straps s.dev src raw
  exact does_run' (labelIntake · src raw) awake rfl straps pins rfl

theorem does_labelForwardReceive {s : State} (raw : Bytes) (awake : Awake s) :
    Does (.labelForwardReceive raw) s fun d => d = if inGroup s.dev then labelIntake s.dev .member raw else s.dev := by
  obtain ⟨straps, pins⟩ := labelIntake_pins_straps s.dev .member raw
  refine does_run' (fun d => if inGroup d then labelIntake d .member raw else d) awake rfl ?_ ?_ rfl
  · split
    · exact straps
    · rfl
  · split
    · exact pins
    · rfl

/-- The intake of a label from a ring: refused and counted, queued, or dropped from a full queue (R189, R261, R262). -/
theorem labelIntake_ring (d : Dev) (t : Nat) (raw : Bytes) :
    (¬LabelAllowed d t raw → RegsCtrsOnly d (labelIntake d (.ring t) raw) [] [Ctr.cfgLabelRej] ∧
      ctr (labelIntake d (.ring t) raw) Ctr.cfgLabelRej = (ctr d Ctr.cfgLabelRej + 1) % 2 ^ 64) ∧
    (LabelAllowed d t raw → d.labels.length < 65536 →
      (labelIntake d (.ring t) raw).labels = d.labels ++ [{ tenant := t, fwd := false, raw, t := now d }] ∧
        (labelIntake d (.ring t) raw).mem = d.mem) ∧
    (LabelAllowed d t raw → 65536 ≤ d.labels.length → (labelIntake d (.ring t) raw).labels = d.labels ∧
      ctr (labelIntake d (.ring t) raw) Ctr.espLabelDrop = (ctr d Ctr.espLabelDrop + 1) % 2 ^ 64) := by
  refine ⟨fun refused => ?_, fun allowed room => ?_, fun allowed full => ?_⟩
  · rw [labelIntake_rejected refused]
    exact ⟨(RegsCtrsOnly.refl ..).tick _ (List.mem_singleton_self _), ctr_tick_same ..⟩
  · rw [labelIntake_allowed allowed, queueLabel_room _ room]
    exact ⟨forwardLabel_keeps Dev.labels (fun _ => rfl) (fun _ _ => rfl) .., forwardLabel_keeps Dev.mem (fun _ => rfl) (fun _ _ => rfl) ..⟩
  · rw [labelIntake_allowed allowed, queueLabel_full _ full]
    exact ⟨forwardLabel_keeps Dev.labels (fun _ => rfl) (fun _ _ => rfl) .., (ctr_forwardLabel _ _ _ (by decide)).trans (ctr_tick_same ..)⟩

/-- A label that is only counted touches nothing that the resets alone change. -/
theorem sealed_tick_labels (d : Dev) (rest : List Label) (c : Nat) :
    sealed d (tick { d with labels := rest } c) = tick { d with labels := rest } c := sealed_of_eq _ _ rfl rfl

theorem expireRecords_frame (d : Dev) :
    CtrsKept d (expireRecords d) [Ctr.espLpsExpire] ∧
      { expireRecords d with leafRecs := d.leafRecs, headRecs := d.headRecs, ctrs := d.ctrs } = d := by
  rw [expireRecords_eq]
  exact ⟨fun a ha => (ctr_count_ne _ _ _ _ (List.ne_of_not_mem_cons ha)).trans rfl, rfl⟩

/-- The commands that exchange the banks of a slot; the others of the kind zero the frozen one (R191, R221). -/
def bankSwaps : Instr → Bool
  | .espRefitSwap _ _ | .hrfSwap _ _ => true
  | _ => false

/-- A command on the banks of a part reaches its register. -/
def BankCommand (s : State) (i : Instr) (fn : Fn) (slot : Slot) (part : Nat) : Prop :=
  (part = 0 ∧ (i = .espRefitSwap fn slot ∨ i = .espRefitClear fn slot) ∧ Arrives s.dev fn 0x00A00200 true) ∨
    (part = 1 ∧ (i = .hrfSwap fn slot ∨ i = .hrfClear fn slot) ∧ Arrives s.dev fn 0x00B00200 true)

theorem does_bankCmd {s : State} {i : Instr} {fn : Fn} {slot : Slot} {part : Nat} (awake : Awake s)
    (command : BankCommand s i fn slot part) (idle : rdB s.dev (bankReg part (copyNo fn)).1 = false) :
    Does i s fun d => d = bankCmd s.dev fn slot part (bankSwaps i) (!bankSwaps i) := by
  obtain ⟨straps, pins⟩ := bankCmd_pins_straps (slot := slot.val) idle (bankSwaps i)
  rcases command with ⟨rfl, rfl | rfl, arrives⟩ | ⟨rfl, rfl | rfl, arrives⟩
  all_goals exact does_access' fn _ true (fun d => bankCmd d fn slot _ _ _) awake arrives rfl straps pins rfl

theorem does_bankDone {s : State} {i : Instr} {part : Nat} (awake : Awake s)
    (command : (part = 0 ∧ i = .espRefitDone) ∨ (part = 1 ∧ i = .hrfDone)) : Does i s fun d => d = bankDone s.dev part := by
  obtain ⟨straps, pins⟩ := bankDone_pins_straps s.dev part
  rcases command with ⟨rfl, rfl⟩ | ⟨rfl, rfl⟩
  · exact does_run' (bankDone · 0) awake rfl straps pins rfl
  · exact does_run' (bankDone · 1) awake rfl straps pins rfl

/-- Settles O48, one clause for each kind of command; for a label that is applied, one case for each thing that can become of it. -/
theorem labelsReachTheirRecords : Obligations.LabelsReachTheirRecords := by
  unfold Obligations.LabelsReachTheirRecords
  refine ⟨?_, ?_, ?_, ?_, ?_, ?_, ?_⟩
  · exact fun s t raw awake => (does_labelIntake (.ring t) raw awake).leaves (labelIntake_ring s.dev t raw)
  · exact fun s raw awake room => (does_labelForwardReceive raw awake).leaves ⟨fun member => by
      rw [if_pos member]; exact queueLabel_room _ room, fun alone => if_neg (by simp [alone])⟩
  · intro s l rest awake queue leaf own
    refine does_run labelApply awake rfl ⟨labels_labelApply queue leaf, fun unnamed => ?_, fun i r idx found =>
      ⟨fun late => ?_, fun timely used => ?_, fun m e timely unused model ens => ⟨fun other => ?_, fun same => ?_⟩⟩⟩
    · rw [labelApply_unnamed queue leaf own unnamed, sealed_tick_labels]
      exact ⟨rfl, ctr_tick_same ..⟩
    · rw [labelApply_late queue leaf idx found own late]
      exact ⟨rfl, rfl, ctr_tick_same ..⟩
    · rw [labelApply_dup queue leaf idx found timely used]
      exact ⟨rfl, rfl, ctr_tick_same ..⟩
    · rw [labelApply_stale queue leaf idx found timely unused model ens other]
      exact ⟨rfl, rfl, ctr_tick_same ..⟩
    · exact keeps_of_faults Dev.leafRecs (fun _ => rfl) (labelApply_reaches queue leaf idx found timely unused model ens same)
  · intro s awake empty
    have idle : labelApply s.dev = s.dev := by simp only [labelApply, empty]
    exact does_run' labelApply awake rfl (by rw [idle]) (by rw [idle]) idle
  · intro s awake
    obtain ⟨ctrs, frame⟩ := expireRecords_frame s.dev
    have straps := congrArg Dev.straps frame
    have pins := congrArg Dev.pins frame
    refine does_run' expireRecords awake rfl straps pins ⟨?_, ?_, ctrs, frame⟩ <;> rw [expireRecords_eq] <;> rfl
  · intro s i fn slot part awake command idle
    refine (does_bankCmd awake command idle).leaves ⟨fun refused => ?_, fun b allowed bank =>
      ⟨rd_bankCmd_busy idle allowed _, fun swap => ?_, fun clear => ?_⟩⟩
    · rw [bankCmd_refused idle (by cases bankSwaps i <;> simp) refused]
      exact ⟨(rd_wr_same ..).trans (congrArg (fun w => 1 % 2 ^ w) (bankReg_rej_width ..)), (RegsOnly.refl _ _).wr _ _ (List.mem_singleton_self _)⟩
    · have swaps : bankSwaps i = true := by rcases swap with rfl | rfl <;> rfl
      rw [swaps]
      exact bankCmd_swap_spec idle allowed bank
    · have clears : bankSwaps i = false := by rcases clear with rfl | rfl <;> rfl
      rw [clears]
      exact bankCmd_clear_spec idle allowed bank
  · rintro s i part awake (⟨rfl, rfl⟩ | ⟨rfl, rfl⟩)
    · exact (does_bankDone awake (.inl ⟨rfl, rfl⟩)).leaves (bankDone_spec s.dev 0)
    · exact (does_bankDone awake (.inr ⟨rfl, rfl⟩)).leaves (bankDone_spec s.dev 1)

end Sys2Proof.Machine
end

section
/-!
PROOFS. The sprig cores (09_sprig_cores): where a core's load or store leads, and what it does in local SRAM, in the register window and
at the timer.
-/
namespace Sys2Proof.Machine
namespace Ops

/-! ### The state of a core -/

@[simp] theorem core_setCore_same (d : Dev) (c : Nat) (x : Core) : core (setCore d c x) c = x := getD_set_same ..

theorem core_setCore_ne (d : Dev) {c k : Nat} (x : Core) (h : k ≠ c) : core (setCore d c x) k = core d k := getD_set_ne _ _ _ h

/-- An access fault is counted and held in its core, and changes nothing else (R232, log entry 151). -/
theorem accessFault_spec (d : Dev) (c a : Nat) (w : Bool) :
    ctr (accessFault d c a w) Ctr.sprAccessFault = (ctr d Ctr.sprAccessFault + 1) % 2 ^ 64 ∧
    CtrsKept d (accessFault d c a w) [Ctr.sprAccessFault] ∧
    core (accessFault d c a w) c = { core d c with trap := some (.access a w) } ∧
    (∀ k, k ≠ c → core (accessFault d c a w) k = core d k) ∧
    { accessFault d c a w with ctrs := d.ctrs, spr := { (accessFault d c a w).spr with cores := d.spr.cores } } = d :=
  ⟨ctr_tick_same .., (CtrsKept.of_ctrs _ rfl).tick _ (List.mem_singleton_self _), core_setCore_same .., fun _ => core_setCore_ne d _, rfl⟩

/-! ### Local SRAM -/

theorem byteAt_eq (bs : Bytes) (x : Nat) : byteAt bs x = (bs[x]?.getD 0).toNat := by
  rw [byteAt, List.getD_eq_getElem?_getD]

theorem byteAt_append (u v : Bytes) (x : Nat) :
    byteAt (u ++ v) x = if x < u.length then byteAt u x else byteAt v (x - u.length) := by
  rw [byteAt_eq, List.getElem?_append]
  split
  · rw [byteAt_eq]
  · rw [byteAt_eq]

theorem byteAt_past {bs : Bytes} {x : Nat} (h : bs.length ≤ x) : byteAt bs x = 0 := by
  rw [byteAt_eq, List.getElem?_eq_none h]
  rfl

theorem byteAt_zeros (n x : Nat) : byteAt (zeros n) x = 0 := by
  rw [byteAt_eq, zeros, List.getElem?_replicate]
  split
  · rfl
  · rfl

theorem byteAt_take (bs : Bytes) {n x : Nat} (h : x < n) : byteAt (bs.take n) x = byteAt bs x := by
  rw [byteAt_eq, byteAt_eq, List.getElem?_take_of_lt h]

theorem byteAt_drop (bs : Bytes) (n x : Nat) : byteAt (bs.drop n) x = byteAt bs (n + x) := by
  rw [byteAt_eq, byteAt_eq, List.getElem?_drop]

theorem byteAt_append_zeros (bs : Bytes) (n x : Nat) : byteAt (bs ++ zeros n) x = byteAt bs x := by
  rw [byteAt_append]
  split
  · rfl
  · next past => rw [byteAt_zeros, byteAt_past (Nat.le_of_not_lt past)]

/-- Bytes written within a string read back there, and the rest as before. -/
theorem byteAt_splice {bs : Bytes} {off : Nat} {v : Bytes} (h : off + v.length ≤ bs.length) (x : Nat) :
    byteAt (splice bs off v) x = if off ≤ x ∧ x < off + v.length then byteAt v (x - off) else byteAt bs x := by
  have front : (bs.take off).length = off := List.length_take_of_le (by omega)
  rw [splice, List.append_assoc, byteAt_append, byteAt_append, front]
  rcases Nat.lt_or_ge x off with before | inside
  · rw [if_pos before, if_neg (by omega), byteAt_take bs before]
  rcases Nat.lt_or_ge x (off + v.length) with within | past
  · rw [if_neg (by omega), if_pos (by omega), if_pos ⟨inside, within⟩]
  · rw [if_neg (by omega), if_neg (by omega), if_neg (by omega), byteAt_drop]
    congr 1
    omega

/-- A store to local SRAM reads back, and the bytes around it read as before (R234, R238). -/
theorem byteAt_sramStore (d : Dev) (c a : Nat) (b : Bytes) (x : Nat) :
    byteAt (core (sramStore d c a b) c).sram x =
      if a ≤ x ∧ x < a + b.length then byteAt b (x - a) else byteAt (core d c).sram x := by
  have long : a + b.length ≤ ((core d c).sram ++ zeros (a + b.length - (core d c).sram.length)).length := by
    rw [List.length_append, zeros, List.length_replicate]
    omega
  rw [sramStore, core_setCore_same, byteAt_splice long, byteAt_append_zeros]

/-! ### The address map of a core (R232) -/

theorem corePlace_sram {a : Nat} (h : a < 0x100000) : corePlace a = .sram a := if_pos h

theorem corePlace_window {a : Nat} (h : a < 0x1800000) : corePlace (0x40000000 + a) = .window a := by
  rw [corePlace, if_neg (by omega), if_neg (by omega), if_pos (by omega), Nat.add_sub_cancel_left]

/-- Neither the mailboxes nor the dump port lies in an aperture of the window (R232). -/
theorem landRead_of_coreReaches (d : Dev) (fn key copy : Nat) {a : Nat} (h : coreReaches a = true) :
    landRead d fn key copy a = readAt d key a copy := by
  refine landRead_eq_readAt d fn key copy ?mailbox ?dump
  case mailbox =>
    rintro ⟨lo, hi, -⟩
    have aperture : a / 0x100000 = 12 := by omega
    rw [coreReaches, aperture] at h
    exact absurd h (by decide)
  case dump =>
    rintro rfl
    exact absurd h (by decide)

/-- The registers of a DMA channel have effects of their own. -/
theorem foreignChan_of_plain (d : Dev) {a : Nat} (h : ownEffect a = false) : foreignChan d a = false := by
  by_cases channel : 0x1010000 ≤ a ∧ a < 0x1050000
  · simp [ownEffect, channel] at h
  · simp only [foreignChan, channel, decide_false, Bool.false_and]

/-! ### What an access to the register window does -/

theorem coreWindow_fault (d : Dev) (c : Nat) {a : Nat} (w : Option Nat) (h : coreReaches a = false) :
    coreWindow d c a w = accessFault d c (0x40000000 + a) w.isSome := by
  simp only [coreWindow, h, Bool.not_false, if_true]

/-- Where no field of a register clears when read, a read clears nothing (R5). -/
theorem clearRc_of_noRc (d : Dev) {a : Nat} (copy : Nat) (h : ∀ r, rowAt a = some r → ∀ g ∈ r.flds, g.acc ≠ .rc) :
    clearRc d a copy = d := by
  unfold clearRc
  split
  · rfl
  split
  · rfl
  · next r row =>
    refine List.foldlRecOn r.flds _ (motive := (· = d)) rfl fun e same g mem => ?_
    rw [if_neg (h r row g mem), same]

section
variable {d : Dev} {c a : Nat} (reached : coreReaches a = true) (port : portReg a = false)
include reached port

/-- A read of a register beside the second command port returns what `landRead` gives the core's path. -/
theorem coreWindow_load (arrives : Arrives d 64 a false) :
    coreWindow d c a none =
      emit (landRead d 64 (66 + c) 0 a).1 (.core c (0x40000000 + a) (landRead d 64 (66 + c) 0 a).2) := by
  simp only [coreWindow, reached, access_arrives d 64 a false _ arrives, port, Bool.not_true, Bool.false_eq_true, if_false]

theorem coreWindow_load_plain (arrives : Arrives d 64 a false) (low : latched a = false) (high : latched (a - 4) = false)
    (noRc : ∀ r, rowAt a = some r → ∀ g ∈ r.flds, g.acc ≠ .rc) :
    coreWindow d c a none = emit d (.core c (0x40000000 + a) (readReg d a 0)) := by
  rw [coreWindow_load reached port arrives, landRead_of_coreReaches _ _ _ _ reached, readAt_unlatched _ _ _ low high,
    clearRc_of_noRc d 0 noRc]

/-- A write beside the second command port lands as the management path's, unless it is to a channel that is not SPR's (R232). -/
theorem coreWindow_store (data : Nat) (arrives : Arrives d 64 a true) :
    coreWindow d c a (some data) = if foreignChan d a then d else landWrite d 64 0 a data := by
  have notCmd : a ≠ 0x700100 := by
    rintro rfl
    exact absurd port (by decide)
  simp only [coreWindow, reached, access_arrives d 64 a true _ arrives, notCmd, port, Bool.not_true, Bool.false_eq_true, if_false]

theorem coreWindow_store_plain (data : Nat) (arrives : Arrives d 64 a true) (plain : ownEffect a = false) :
    coreWindow d c a (some data) = writeFlds d a 0 data := by
  rw [coreWindow_store reached port data arrives, foreignChan_of_plain d plain, if_neg Bool.false_ne_true,
    landWrite_plain _ _ _ _ _ plain]

theorem coreWindow_store_foreign (data : Nat) (arrives : Arrives d 64 a true) (foreign : foreignChan d a = true) :
    coreWindow d c a (some data) = d := by
  rw [coreWindow_store reached port data arrives, if_pos foreign]

end

/-! ### What a core that runs does -/

theorem coreOp_stopped {d : Dev} {c : Nat} (addr : Nat) (op : CoreOp) (h : coreRuns d c = false) : coreOp d c addr op = d := by
  simp only [coreOp, h, Bool.not_false, if_true]

section
variable {d : Dev} {c : Nat} (runs : coreRuns d c = true)
include runs

theorem coreOp_load (addr n : Nat) : coreOp d c addr (.load n) = coreLoad d c addr n := by
  rw [coreOp, runs]; rfl

theorem coreOp_store (addr : Nat) (b : Bytes) : coreOp d c addr (.store b) = coreStore d c addr b := by
  rw [coreOp, runs]; rfl

theorem coreOp_mtime (addr : Nat) : coreOp d c addr .mtime = emit d (.mtime c (now64 d)) := by
  rw [coreOp, runs]; rfl

theorem coreOp_irq (addr : Nat) : coreOp d c addr .irq = coreTimer d c := by
  rw [coreOp, runs]; rfl

theorem coreOp_load_sram {a : Nat} (n : Nat) (h : a < 0x100000) :
    coreOp d c a (.load n) = emit d (.core c a (le (core d c).sram a n)) := by
  rw [coreOp_load runs, coreLoad, corePlace_sram h]

theorem coreOp_store_sram {a : Nat} (b : Bytes) (h : a < 0x100000) : coreOp d c a (.store b) = sramStore d c a b := by
  rw [coreOp_store runs, coreStore, corePlace_sram h]

theorem coreOp_load_window {a : Nat} (n : Nat) (h : a < 0x1800000) :
    coreOp d c (0x40000000 + a) (.load n) = coreWindow d c a none := by
  rw [coreOp_load runs, coreLoad, corePlace_window h]

theorem coreOp_store_window {a : Nat} (b : Bytes) (h : a < 0x1800000) :
    coreOp d c (0x40000000 + a) (.store b) = coreWindow d c a (some (le b 0 4)) := by
  rw [coreOp_store runs, coreStore, corePlace_window h]

end

/-- The timer interrupt waits for the compare value (R234). -/
theorem coreTimer_set {d : Dev} {c t : Nat} (h : (core d c).timer = some t) :
    coreTimer d c = if t ≤ now64 d then coreTrap d c .timer else d := by
  simp only [coreTimer, h]

end Ops

open Ops

/-! ### The statement -/

/-- A core's access completes with what `coreOp` leaves, where that leaves the pins and the straps. -/
theorem does_coreOp {s : State} {core : CoreNo} {addr : Nat} {op : CoreOp} {e : Dev} (awake : Awake s)
    (effect : coreOp s.dev core addr op = e) (straps : e.straps = s.dev.straps) (pins : e.pins = s.dev.pins) :
    Does (.registerWindowAccess core addr op) s fun d => d = e :=
  does_run' (fun d => coreOp d core addr op) awake rfl (by rw [effect, straps]) (by rw [effect, pins]) effect

/-- A load or a store of the window outside the apertures is an access fault (R232). -/
theorem does_coreFault {s : State} {core : CoreNo} {op : CoreOp} {addr : Nat} (awake : Awake s) (runs : coreRuns s.dev core = true)
    (window : addr < 0x1800000) (out : coreReaches addr = false) (kind : (∃ n, op = .load n) ∨ ∃ b, op = .store b) :
    ∃ w : Bool, (w = true ↔ ∃ b, op = .store b) ∧
      Does (.registerWindowAccess core (0x40000000 + addr) op) s fun d => d = accessFault s.dev core (0x40000000 + addr) w := by
  rcases kind with ⟨n, rfl⟩ | ⟨b, rfl⟩
  · exact ⟨false, by simp, does_coreOp awake ((coreOp_load_window runs n window).trans (coreWindow_fault _ _ none out)) rfl rfl⟩
  · exact ⟨true, by simp, does_coreOp awake ((coreOp_store_window runs b window).trans (coreWindow_fault _ _ (some _) out)) rfl rfl⟩

/-- Settles O12, one clause for each kind of access: each is one equation of `coreOp`. -/
theorem coreWindowReachesItsApertures : Obligations.CoreWindowReachesItsApertures := by
  unfold Obligations.CoreWindowReachesItsApertures
  refine ⟨?fault, ?load, ?store, ?sramLoad, ?sramStore, ?mtime, ?irq, ?stopped⟩
  case fault =>
    intro s core op addr awake runs window out kind
    obtain ⟨w, isStore, does⟩ := does_coreFault awake runs window out kind
    obtain ⟨count, counts, trap, others, frame⟩ := accessFault_spec s.dev core (0x40000000 + addr) w
    exact does.leaves ⟨count, counts, ⟨w, isStore, trap⟩, others, frame⟩
  case load =>
    intro s core addr n awake runs window reached port arrives low high noRc
    exact does_coreOp awake
      ((coreOp_load_window runs n window).trans (coreWindow_load_plain reached port arrives low high noRc)) rfl rfl
  case store =>
    intro s core addr b awake runs window reached port arrives
    have effect := coreOp_store_window runs b window
    refine does_run (fun d => coreOp d core (0x40000000 + addr) (.store b)) awake rfl ⟨fun plain => ?_, fun foreign => ?_⟩
    · have frame := writeFlds_frame s.dev addr 0 (le b 0 4)
      have straps := congrArg Dev.straps frame
      have pins := congrArg Dev.pins frame
      rw [effect, coreWindow_store_plain reached port _ arrives plain]
      exact sealed_of_eq _ _ straps pins
    · rw [effect, coreWindow_store_foreign reached port _ arrives foreign, sealed_of_eq _ _ rfl rfl]
  case sramLoad =>
    intro s core a n awake runs sram
    exact does_coreOp awake (coreOp_load_sram runs n sram) rfl rfl
  case sramStore =>
    intro s core a b awake runs sram
    exact (does_coreOp awake (coreOp_store_sram runs b sram) rfl rfl).leaves
      ⟨byteAt_sramStore s.dev core a b, fun _ => core_setCore_ne s.dev _, rfl⟩
  case mtime =>
    intro s core awake runs
    exact does_coreOp awake (coreOp_mtime runs 0) rfl rfl
  case irq =>
    intro s core t awake runs set
    have effect := (coreOp_irq runs 0).trans (coreTimer_set set)
    rcases Nat.lt_or_ge (now64 s.dev) t with early | due
    · rw [if_neg (Nat.not_le.mpr early)] at effect
      exact (does_coreOp awake effect rfl rfl).leaves ⟨fun reached => absurd reached (Nat.not_le.mpr early), fun _ => rfl⟩
    · rw [if_pos due] at effect
      exact (does_coreOp awake effect rfl rfl).leaves
        ⟨fun _ => congrArg Core.trap (core_setCore_same ..), fun early => absurd due (Nat.not_le.mpr early)⟩
  case stopped =>
    intro s core addr op awake stopped
    exact does_coreOp awake (coreOp_stopped addr op stopped) rfl rfl

end Sys2Proof.Machine
end

section
/-!
PROOFS. The model admission (10_model_admission): the parts of the device that an access to memory does not read,
the refit policies among them.
-/
namespace Sys2Proof.Machine.Ops

/-- The device beside what an access to memory does not read: the link layers, Signet's sums, the outputs, counters, the vectors that wait, the
refit policies. -/
def readSide (d : Dev) : Dev := { besideLinks d with ctrs := [], hif := Dev.reset.hif, refit := [] }

theorem readSide_of_links {d e : Dev} (h : besideLinks e = besideLinks d) : readSide e = readSide d :=
  keeps_of_links readSide (fun _ => rfl) h

@[simp] theorem readSide_readSide (d : Dev) : readSide (readSide d) = readSide d := rfl
@[simp] theorem readSide_wr (d : Dev) (f : Fld) (v : Nat) : readSide (wr d f v) = wr (readSide d) f v := rfl
@[simp] theorem readSide_count (d : Dev) (a n : Nat) : readSide (count d a n) = readSide d := rfl
@[simp] theorem readSide_tick (d : Dev) (a : Nat) : readSide (tick d a) = readSide d := rfl
@[simp] theorem readSide_tickIf (b : Bool) (d : Dev) (a : Nat) : readSide (tickIf b d a) = readSide d := by cases b <;> rfl
@[simp] theorem readSide_wrs (d : Dev) (l : List (Fld × Nat)) : readSide (wrs d l) = wrs (readSide d) l := by
  induction l generalizing d with
  | nil => rfl
  | cons p l ih => exact ih _
@[simp] theorem readSide_meter (d : Dev) (j n : Nat) : readSide (meter d j n) = readSide d := readSide_of_links (besideLinks_meter ..)

@[simp] theorem readSide_msix (d : Dev) (fn vec : Nat) : readSide (msix d fn vec) = readSide d := by
  unfold msix
  split
  · rfl
  · split <;> rfl

@[simp] theorem readSide_irq (d : Dev) (en vec : Fld) : readSide (irq d en vec) = readSide d := by
  unfold irq; split <;> simp only [readSide_msix]

@[simp] theorem readSide_countFail (d : Dev) (code : Nat) : readSide (countFail d code) = readSide d := by
  unfold countFail
  split
  · rfl
  · split <;> simp only [readSide_tickIf, readSide_tick]

@[simp] theorem readSide_portIrq (d : Dev) (p : Nat) : readSide (portIrq d p) = readSide d := by
  unfold portIrq; split <;> simp only [readSide_msix]

@[simp] theorem readSide_sendReport (d : Dev) (addr : Nat) (bytes : Bytes) : readSide (sendReport d addr bytes) = readSide d := by
  unfold sendReport; split <;> rfl

@[simp] theorem readSide_answerCoord (d : Dev) (msg : Bytes) : readSide (answerCoord d msg) = readSide d :=
  readSide_of_links (besideLinks_answerCoord ..)

@[simp] theorem readSide_abortMates (d : Dev) (g : Graft) : readSide (abortMates d g) = readSide d := by
  unfold abortMates
  split
  · exact readSide_of_links (besideLinks_sendMates ..)
  · rfl

theorem readSide_graftFailed (d : Dev) (g : Graft) (code item member : Nat) (more : Bytes) :
    readSide (graftFailed d g code item member more) = readSide (graftFailed (readSide d) g code item member more) := by
  simp only [graftFailed, readSide_portIrq, readSide_sendReport]
  split
  · simp only [portFailed, readSide_wrs, readSide_countFail, readSide_readSide]
  · split
    · show wr (readSide _) _ _ = wr (readSide _) _ _
      simp only [readSide_countFail, readSide_readSide]
    · split
      · simp only [readSide_wr, readSide_countFail, readSide_readSide]
      · split <;> simp only [readSide_answerCoord, readSide_countFail, readSide_readSide]

theorem readSide_abortSoft (d : Dev) (code member : Nat) : readSide (abortSoft d code member) = readSide (abortSoft (readSide d) code member) := by
  have clear : ∀ d, readSide (clearCur d) = clearCur (readSide d) := fun _ => rfl
  have grf : (readSide d).grf = d.grf := rfl
  simp only [abortSoft, grf]
  split
  · rfl
  · rw [clear, clear, readSide_graftFailed, readSide_abortMates, readSide_graftFailed (abortMates _ _), readSide_abortMates, readSide_readSide]

/-- Where each step of a fold reads the device through `g` only, so does the fold. -/
theorem foldl_through {α : Type} {g : Dev → Dev} {f : Dev → α → Dev} (idem : ∀ d, g (g d) = g d) (step : ∀ d a, g (f d a) = g (f (g d) a))
    (l : List α) (d : Dev) : g (l.foldl f d) = g (l.foldl f (g d)) := by
  induction l generalizing d with
  | nil => exact (idem d).symm
  | cons a l ih =>
    calc g (l.foldl f (f d a)) = g (l.foldl f (g (f (g d) a))) := by rw [ih, step]
      _ = g (l.foldl f (f (g d) a)) := (ih _).symm

/-- Effects that read the device through `readSide` only take devices alike to devices alike. -/
theorem readSide_congr {f : Dev → Dev} (through : ∀ d, readSide (f d) = readSide (f (readSide d))) {d e : Dev} (h : readSide d = readSide e) :
    readSide (f d) = readSide (f e) := by rw [through d, h, ← through e]

theorem readSide_startRemap (d : Dev) (g : FltGraft) : readSide (startRemap d g) = readSide (startRemap (readSide d) g) := by
  have abort := readSide_abortSoft d 0x30 0xFF
  have flt := congrArg Dev.flt abort
  simp only [startRemap, readSide_wrs]
  exact congrArg (fun e : Dev => wrs { e with flt := { e.flt with grafts := e.flt.grafts ++ [g] } }
    [(Reg.fltStatState, 1), (Reg.fltStatRemaps, min (e.flt.grafts ++ [g]).length 2)]) abort

theorem readSide_enterHold (d : Dev) (cls : Nat) : readSide (enterHold d cls) = readSide (enterHold (readSide d) cls) := by
  simp only [enterHold, readSide_tick, readSide_wrs, apply_ite readSide, readSide_wr]
  rfl

theorem readSide_degrade (d : Dev) : readSide (degrade d) = readSide (degrade (readSide d)) := by
  simp only [degrade, apply_ite readSide, readSide_wr, readSide_readSide]
  rfl

theorem readSide_fltLog (d : Dev) (cls pool unit action epoch : Nat) :
    readSide (fltLog d cls pool unit action epoch) = readSide (fltLog (readSide d) cls pool unit action epoch) := by
  simp only [fltLog, readSide_irq, readSide_tick, readSide_wrs]
  rfl

/-- The report of a fault after an effect on it. -/
theorem readSide_fltLog_after {f : Dev → Dev} (through : ∀ d, readSide (f d) = readSide (f (readSide d)))
    (d : Dev) (cls pool unit action epoch : Nat) :
    readSide (fltLog (f d) cls pool unit action epoch) = readSide (fltLog (f (readSide d)) cls pool unit action epoch) :=
  readSide_congr (fun d => readSide_fltLog d cls pool unit action epoch) (through d)

theorem readSide_mediumFault (d : Dev) (code cls unit : Nat) :
    readSide (mediumFault d code cls unit) = readSide (mediumFault (readSide d) code cls unit) := by
  have state : fltState (readSide d) = fltState d := rfl
  have lays : layoutFor (readSide d) unit = layoutFor d unit := rfl
  have lost : lostBesides (readSide d) unit = lostBesides d unit := rfl
  have now' : now (readSide d) = now d := rfl
  simp only [mediumFault, state, lays, lost, now']
  split
  · exact readSide_fltLog ..
  · split
    · exact readSide_congr (fun d => readSide_fltLog d code 0xFF unit 3 (fltEpoch d)) (readSide_startRemap ..)
    · split
      · exact readSide_fltLog_after (readSide_enterHold · cls) ..
      · exact readSide_fltLog_after readSide_degrade ..

/-- A fault of device memory: a codeword (7), a die (8), a stack (9) (R397, R402). -/
theorem readSide_fault (code unit : Nat) {cls : Nat} (h : cls = 7 ∨ cls = 8 ∨ cls = 9) (d : Dev) :
    readSide (fault d code cls unit) = readSide (fault (readSide d) code cls unit) := by
  have acts : readSide (faultActs d code cls unit) = readSide (faultActs (readSide d) code cls unit) := by
    rcases h with rfl | rfl | rfl
    · exact readSide_fltLog ..
    · exact readSide_mediumFault ..
    · exact readSide_mediumFault ..
  have held : frozen (readSide d) = frozen d := rfl
  simp only [fault, held]
  split
  · exact congrArg (fun e : Dev => ({ e with flt := { e.flt with frozen := e.flt.frozen ++ [(⟨cls, unit, code == 0x0D⟩ : FaultRep)] } } : Dev))
      (readSide_fltLog ..)
  · exact acts

/-! ### Accesses to device memory -/

theorem readSide_startRepair (d : Dev) (u : Nat) (col : Bool) (idx : Nat) :
    readSide (startRepair d u col idx) = startRepair (readSide d) u col idx := by
  simp only [startRepair, apply_ite readSide]
  rfl

/-- A correction in a row counts; at the threshold `th` the row is repaired (R329). -/
def noteRow (d : Dev) (u th row : Nat) : Dev :=
  let rows := getD d.mem.rowCorr u []
  let n := getD rows row 0 + 1
  let full := decide (th ≤ n)
  let d := { d with mem := { d.mem with rowCorr := set d.mem.rowCorr u (if full then del rows row else set rows row n) } }
  if full then startRepair d u false row else d

/-- A correction in a column of a die counts once for each row; at the threshold `th` the column is repaired (R330). -/
def noteColumn (d : Dev) (u th row col : Nat) : Dev :=
  let cols := getD d.mem.colCorr u []
  let rows := if (getD cols col []).contains row then getD cols col [] else row :: getD cols col []
  let full := decide (th ≤ rows.length)
  let d := { d with mem := { d.mem with colCorr := set d.mem.colCorr u (if full then del cols col else set cols col rows) } }
  if full then startRepair d u true col else d

theorem noteFix_eq (d : Dev) (a : Nat) (x : Nat × Nat) : noteFix d a x =
    let u := unitAt d a
    let off := unitOff d a / 128 * 128
    let th := rd d Reg.memRepairCfgThresh
    let e := noteRow d u th (Config.memRow u off)
    if 4 ≤ u then e else noteColumn e u th (Config.memRow u off) (Config.memColumn u off x.1 x.2) := rfl

theorem readSide_noteRow (d : Dev) (u th row : Nat) : readSide (noteRow d u th row) = noteRow (readSide d) u th row := by
  simp only [noteRow, apply_ite readSide, readSide_startRepair]
  rfl

theorem readSide_noteColumn (d : Dev) (u th row col : Nat) : readSide (noteColumn d u th row col) = noteColumn (readSide d) u th row col := by
  simp only [noteColumn, apply_ite readSide, readSide_startRepair]
  rfl

theorem readSide_noteFix (d : Dev) (a : Nat) (x : Nat × Nat) : readSide (noteFix d a x) = readSide (noteFix (readSide d) a x) := by
  simp only [noteFix_eq, apply_ite readSide, readSide_noteRow, readSide_noteColumn]
  rfl

theorem readSide_unitLost (u : Nat) (d : Dev) : readSide (unitLost d u) = readSide (unitLost (readSide d) u) := by
  have gone : unitGone (readSide d) u = unitGone d u := rfl
  simp only [unitLost, gone]
  split
  · rfl
  · split
    · exact readSide_congr (readSide_fault 8 u (.inr (.inl rfl))) rfl
    · exact readSide_congr (readSide_fault 9 (unitName u) (.inr (.inr rfl))) rfl

/-- What an uncorrectable codeword adds to the times of its unit (R332). -/
def noteTime (d : Dev) (a : Nat) : Dev :=
  let u := unitAt d a
  let ts := set ((getD d.mem.ueTimes u []).filter fun p => decide (now d ≤ p.2 + 1000000)) (a / 32) (now d)
  { d with mem := { d.mem with ueTimes := set d.mem.ueTimes u ts } }

theorem noteUe_eq (d : Dev) (a : Nat) : noteUe d a =
    if 1024 < (getD (noteTime d a).mem.ueTimes (unitAt d a) []).length then unitLost (noteTime d a) (unitAt d a) else noteTime d a := by
  simp only [noteUe, noteTime, getD_set_same]

theorem readSide_noteUe (a : Nat) (d : Dev) : readSide (noteUe d a) = readSide (noteUe (readSide d) a) := by
  have unit : unitAt (readSide d) a = unitAt d a := rfl
  have times : noteTime (readSide d) a = readSide (noteTime d a) := rfl
  have mem : (readSide (noteTime d a)).mem = (noteTime d a).mem := rfl
  simp only [noteUe_eq, unit, times, mem]
  split
  · exact readSide_unitLost ..
  · rfl

theorem readSide_recordUe (a src ueWords : Nat) (d : Dev) : readSide (recordUe d a src ueWords) = readSide (recordUe (readSide d) a src ueWords) := by
  refine readSide_congr (readSide_noteUe a) (readSide_congr (readSide_fault 7 _ (.inl rfl)) ?_)
  simp only [apply_ite readSide, readSide_wr, readSide_wrs, readSide_irq, readSide_tick]
  rfl

theorem readSide_recordCe (b src : Nat) (r : BlkRead) (d : Dev) : readSide (recordCe d b src r) = readSide (recordCe (readSide d) b src r) := by
  have fixes := fun d => foldl_through readSide_readSide (fun d x => readSide_noteFix d b x) r.fixes d
  refine readSide_congr fixes ?_
  simp only [apply_ite readSide, readSide_irq, ite_self]
  split
  all_goals simp only [readSide_wr, readSide_wrs, readSide_count]; rfl

/-- What a block reads as, and the errors in it after its decoding (R326). -/
def blkWritten (d : Dev) (b : Nat) (e : BlkErr) : Dev :=
  let r := blkDecode e
  let e' : BlkErr := if r.ueWords > 2
    then { e with flips := e.flips.filter fun p => (Codes.secDecode ((e.flips.filter fun q => q.1 == p.1).map (·.2))).isNone }
    else { flips := [], ue := r.bad }
  let cells := r.delta.foldl (fun m (p : Nat × Nat × Nat) =>
    let x := 128 * b + 32 * p.1 + p.2.1
    bytePut m x (byteGet m x ^^^ BitVec.ofNat 8 p.2.2)) d.mem.cells
  let blk := if e'.flips.isEmpty ∧ e'.ue.isEmpty then del d.mem.blk b else set d.mem.blk b e'
  { d with mem := { d.mem with cells, blk } }

/-- The corrections and the uncorrectable lines of a block are recorded (R336). -/
def blkNoted (d : Dev) (b src : Nat) (lines : List Nat) (r : BlkRead) : Dev :=
  each (r.bad.filter lines.contains) (if r.corrected then recordCe d (128 * b) src r else d)
    fun d j => recordUe d (128 * b + 32 * j) src r.ueWords

theorem readLines_unserved {d : Dev} {b : Nat} (src : Nat) (lines : List Nat) (h : served d (128 * b) = false) :
    readLines d b src lines = (d, [0, 1, 2, 3]) := by rw [readLines, h]; rfl

theorem readLines_clean {d : Dev} {b : Nat} (src : Nat) (lines : List Nat) (up : served d (128 * b) = true) (h : find? d.mem.blk b = none) :
    readLines d b src lines = (d, []) := by
  rw [readLines, up]
  simp only [h]
  rfl

theorem readLines_decodes {d : Dev} {b : Nat} {e : BlkErr} (src : Nat) (lines : List Nat) (up : served d (128 * b) = true)
    (h : find? d.mem.blk b = some e) : readLines d b src lines =
      let x := blkNoted d b src lines (blkDecode e)
      (if (blkDecode e).corrected then blkWritten x b e else x, (blkDecode e).bad) := by
  rw [readLines, up]
  simp only [h]
  cases hc : (blkDecode e).corrected <;> simp only [blkNoted, hc] <;> rfl

theorem readSide_blkNoted (b src : Nat) (lines : List Nat) (r : BlkRead) (d : Dev) :
    readSide (blkNoted d b src lines r) = readSide (blkNoted (readSide d) b src lines r) := by
  refine readSide_congr (foldl_through readSide_readSide (fun d j => readSide_recordUe (128 * b + 32 * j) src r.ueWords d) _) ?_
  split
  · exact readSide_recordCe ..
  · rfl

theorem readSide_readLines (d : Dev) (b src : Nat) (lines : List Nat) :
    readSide (readLines d b src lines).1 = readSide (readLines (readSide d) b src lines).1 ∧
      (readLines d b src lines).2 = (readLines (readSide d) b src lines).2 := by
  have up' : served (readSide d) (128 * b) = served d (128 * b) := rfl
  cases up : served d (128 * b) with
  | false =>
    rw [readLines_unserved _ _ up, readLines_unserved _ _ (up'.trans up)]
    exact ⟨rfl, rfl⟩
  | true =>
    cases h : find? d.mem.blk b with
    | none =>
      rw [readLines_clean _ _ up h, readLines_clean _ _ (up'.trans up) h]
      exact ⟨rfl, rfl⟩
    | some e =>
      have noted := readSide_blkNoted b src lines (blkDecode e) d
      rw [readLines_decodes _ _ up h, readLines_decodes _ _ (up'.trans up) h]
      refine ⟨?_, rfl⟩
      dsimp only
      split
      · exact readSide_congr (f := (blkWritten · b e)) (fun _ => rfl) noted
      · exact noted

theorem readSide_readBlock (d : Dev) (a src : Nat) :
    readSide (readBlock d a src).1 = readSide (readBlock (readSide d) a src).1 ∧
      (readBlock d a src).2 = (readBlock (readSide d) a src).2 := by
  obtain ⟨dev, lines⟩ := readSide_readLines d (a / 128) src [0, 1, 2, 3]
  have up : served (readSide d) a = served d a := rfl
  simp only [readBlock, up, ← lines]
  split
  · exact ⟨dev, lines⟩
  · exact ⟨by rw [readSide_startRepair, readSide_startRepair, dev]; rfl, rfl⟩

/-- A fold that gathers values beside a device on which each step reads through `g` only. -/
theorem foldl_fst_through {α β : Type} {g : Dev → Dev} {f : Dev × β → α → Dev × β} (idem : ∀ d, g (g d) = g d)
    (step : ∀ d q a, g (f (d, q) a).1 = g (f (g d, q) a).1 ∧ (f (d, q) a).2 = (f (g d, q) a).2) (l : List α) (d : Dev) (q : β) :
    g (l.foldl f (d, q)).1 = g (l.foldl f (g d, q)).1 ∧ (l.foldl f (d, q)).2 = (l.foldl f (g d, q)).2 := by
  induction l generalizing d q with
  | nil => exact ⟨(idem d).symm, rfl⟩
  | cons a l ih =>
    obtain ⟨dev, val⟩ := step d q a
    obtain ⟨dev1, val1⟩ := ih (f (d, q) a).1 (f (d, q) a).2
    obtain ⟨dev2, val2⟩ := ih (f (g d, q) a).1 (f (g d, q) a).2
    rw [show (g (f (d, q) a).1, (f (d, q) a).2) = (g (f (g d, q) a).1, (f (g d, q) a).2) from Prod.ext dev val] at dev1 val1
    exact ⟨dev1.trans dev2.symm, val1.trans val2.symm⟩

/-- What a read returns, and what it leaves of the memory side, do not depend on the rest of the device. -/
theorem readSide_memRead (d : Dev) (a n : Nat) :
    readSide (memRead d a n).1 = readSide (memRead (readSide d) a n).1 ∧ (memRead d a n).2 = (memRead (readSide d) a n).2 := by
  have blocks := fun (d : Dev) => foldl_fst_through (β := Bool) (f := fun x b =>
    ((readBlock x.1 (b * 128) 0).1, x.2 || (readBlock x.1 (b * 128) 0).2.any fun j =>
      decide (b * 128 + 32 * j < a + n ∧ a < b * 128 + 32 * j + 32))) readSide_readSide
    (fun d q b => ⟨(readSide_readBlock d (b * 128) 0).1, by rw [(readSide_readBlock d (b * 128) 0).2]⟩) (blocksOf a n) d false
  obtain ⟨dev1, hit1⟩ := blocks (meter d (memEvt a) (cdiv n 64))
  obtain ⟨dev2, hit2⟩ := blocks (meter (readSide d) (memEvt a) (cdiv n 64))
  rw [readSide_meter] at dev1 hit1 dev2 hit2
  have dev := dev1.trans dev2.symm
  have cells := congrArg (fun e : Dev => memGet e a n) dev
  exact ⟨dev, Prod.ext cells (hit1.trans hit2.symm)⟩

/-- A number in memory reads the same whatever the refit policies are. -/
theorem memReadLe_refit (d : Dev) (x : Map RefitPol) (a n : Nat) : (memReadLe { d with refit := x } a n).2 = (memReadLe d a n).2 := by
  have h := (readSide_memRead { d with refit := x } a n).2.trans (readSide_memRead d a n).2.symm
  exact congrArg (fun r : Bytes × Bool => leNat r.1) h

end Sys2Proof.Machine.Ops
end

section
/-!
PROOFS. The model admission (10_model_admission): what messages, faults and accesses to memory leave of the
refit policies and of the configuration's counters.
-/
namespace Sys2Proof.Machine.Ops

theorem find?_setDef_ne {α : Type} [DecidableEq α] (m : Map α) {k j : Nat} (e v : α) (h : j ≠ k) : find? (setDef m k e v) j = find? m j := by
  unfold setDef
  split
  · exact find?_del_ne m h
  · exact find?_set_ne m v h

/-- Keys of the first fields of the registers of the refit policies: STATE and MIN_LABELS are among them, LAST_CODE is not (R263). -/
def polKey (k : Nat) : Bool := decide (0x00205000 * 32 ≤ k ∧ k < 0x00205C00 * 32 ∧ k % 32 = 0)

/-- Addresses of counters up to CFG's: the reports of faults and the accesses to memory count above them. -/
def cfgCtr (a : Nat) : Bool := decide (a < 0x00300000)

/-- What CFG keeps while faults are reported and memory is accessed: the interval of each refit policy, its registers but LAST_CODE, and CFG's
counters. -/
def cfgSide (d : Dev) : (Nat → Nat) × (Nat → Option Nat) × (Nat → Option Nat) :=
  (fun slot => (refitOf d slot).since, fun k => if polKey k then find? d.regs k else none, fun a => if cfgCtr a then find? d.ctrs a else none)

/-- Device memory, and what CFG keeps. -/
def memCfg (d : Dev) : Mem × (Nat → Nat) × (Nat → Option Nat) × (Nat → Option Nat) := (d.mem, cfgSide d)

theorem cfgSide_of_memCfg {d e : Dev} (h : memCfg e = memCfg d) : cfgSide e = cfgSide d := congrArg Prod.snd h

theorem rd_of_cfgSide {d e : Dev} (h : cfgSide e = cfgSide d) {f : Fld} (key : polKey f.key = true) : rd e f = rd d f := by
  have reg := congrFun (congrArg (fun x => x.2.1) h) f.key
  simp only [cfgSide, key, if_true] at reg
  simp only [rd, getD, reg]

theorem ctr_of_cfgSide {d e : Dev} (h : cfgSide e = cfgSide d) {a : Nat} (ha : cfgCtr a = true) : ctr e a = ctr d a := by
  have cell := congrFun (congrArg (fun x => x.2.2) h) a
  simp only [cfgSide, ha, if_true] at cell
  simp only [ctr, getD, cell]

theorem since_of_cfgSide {d e : Dev} (h : cfgSide e = cfgSide d) (slot : Nat) : (refitOf e slot).since = (refitOf d slot).since :=
  congrFun (congrArg Prod.fst h) slot

theorem memCfg_of_links {d e : Dev} (h : besideLinks e = besideLinks d) : memCfg e = memCfg d :=
  keeps_of_links memCfg (fun _ => rfl) h

theorem cfgSide_wr (d : Dev) {f : Fld} (v : Nat) (h : polKey f.key = false) : cfgSide (wr d f v) = cfgSide d := by
  refine Prod.ext rfl (Prod.ext (funext fun k => ?_) rfl)
  by_cases hk : polKey k = true
  · have ne : k ≠ f.key := by rintro rfl; exact absurd (hk.symm.trans h) nofun
    simp only [cfgSide, wr, find?_setDef_ne _ _ _ ne]
  · simp only [cfgSide, hk]
    rfl

theorem memCfg_wr (d : Dev) {f : Fld} (v : Nat) (h : polKey f.key = false) : memCfg (wr d f v) = memCfg d :=
  Prod.ext rfl (cfgSide_wr d v h)

theorem memCfg_wrs (d : Dev) (l : List (Fld × Nat)) (h : ∀ p ∈ l, polKey p.1.key = false) : memCfg (wrs d l) = memCfg d := by
  induction l generalizing d with
  | nil => rfl
  | cons p l ih => exact (ih (wr d p.1 p.2) fun q hq => h q (List.mem_cons_of_mem _ hq)).trans (memCfg_wr d _ (h p List.mem_cons_self))

theorem memCfg_count (d : Dev) {a : Nat} (n : Nat) (h : cfgCtr a = false) : memCfg (count d a n) = memCfg d := by
  refine Prod.ext rfl (Prod.ext rfl (Prod.ext rfl (funext fun k => ?_)))
  by_cases hk : cfgCtr k = true
  · have ne : k ≠ a := by rintro rfl; exact absurd (hk.symm.trans h) nofun
    simp only [memCfg, cfgSide, count, setCtr, find?_setDef_ne _ _ _ ne]
  · simp only [memCfg, cfgSide, hk]
    rfl
theorem memCfg_tick (d : Dev) {a : Nat} (h : cfgCtr a = false) : memCfg (tick d a) = memCfg d := memCfg_count d 1 h
theorem memCfg_tickIf (b : Bool) (d : Dev) {a : Nat} (h : cfgCtr a = false) : memCfg (tickIf b d a) = memCfg d := by
  cases b
  · rfl
  · exact memCfg_tick d h

@[simp] theorem memCfg_flt (d : Dev) (x : Flt) : memCfg { d with flt := x } = memCfg d := rfl

@[simp] theorem memCfg_msix (d : Dev) (fn vec : Nat) : memCfg (msix d fn vec) = memCfg d := by
  unfold msix
  split
  · exact memCfg_tick d (by decide)
  · split <;> rfl

@[simp] theorem memCfg_irq (d : Dev) (en vec : Fld) : memCfg (irq d en vec) = memCfg d := by
  unfold irq; split <;> simp only [memCfg_msix]

@[simp] theorem memCfg_countFail (d : Dev) (code : Nat) : memCfg (countFail d code) = memCfg d := by
  unfold countFail
  split
  · exact memCfg_tick d (by decide)
  · split <;> simp (disch := decide) only [memCfg_tickIf, memCfg_tick]

@[simp] theorem memCfg_portIrq (d : Dev) (p : Nat) : memCfg (portIrq d p) = memCfg d := by
  unfold portIrq; split <;> simp only [memCfg_msix]

@[simp] theorem memCfg_sendReport (d : Dev) (addr : Nat) (bytes : Bytes) : memCfg (sendReport d addr bytes) = memCfg d := by
  unfold sendReport; split <;> rfl

@[simp] theorem memCfg_portFailed (d : Dev) (p code item : Nat) : memCfg (portFailed d p code item) = memCfg d := by
  refine memCfg_wrs d _ ?_
  simp only [List.forall_mem_cons, List.not_mem_nil, false_imp_iff, implies_true, and_true, portF, Fld.at, polKey, decide_eq_false_iff_not,
    Reg.grfStatusCode, Reg.grfStatusBusy, Reg.grfStatusStage, Reg.grfStatusItem]
  omega

/-- A commit graft that leaves GRF is not queued any more; the interval of its policy runs on (R263). -/
theorem memCfg_unqueued (d : Dev) (s : Nat) : memCfg { d with refit := modify d.refit s fun r => { r with queued := false } } = memCfg d := by
  refine Prod.ext rfl (Prod.ext (funext fun slot => ?_) rfl)
  simp only [memCfg, cfgSide, refitOf, modify]
  split
  next r hr =>
    by_cases hs : slot = s
    · subst hs
      rw [find?_set_same, hr]
      rfl
    · rw [find?_set_ne _ _ hs]
  next => rfl

theorem polKey_lastCode (s : Nat) : polKey (Reg.cfgRefitStatLastCode s).key = false := by
  refine decide_eq_false ?_
  simp only [Reg.cfgRefitStatLastCode, Fld.at]
  omega

@[simp] theorem memCfg_graftFailed (d : Dev) (g : Graft) (code item member : Nat) (more : Bytes) :
    memCfg (graftFailed d g code item member more) = memCfg d := by
  simp only [graftFailed, memCfg_portIrq, memCfg_sendReport]
  split
  · simp only [memCfg_portFailed, memCfg_countFail]
  · split
    · exact (memCfg_unqueued (wr (countFail d code) _ code) g.slot).trans
        ((memCfg_wr _ _ (polKey_lastCode g.slot)).trans (memCfg_countFail ..))
    · split
      · exact (memCfg_wr _ _ (by decide)).trans (memCfg_countFail ..)
      · split
        · exact (memCfg_of_links (besideLinks_answerCoord ..)).trans (memCfg_countFail ..)
        · exact memCfg_countFail ..

@[simp] theorem memCfg_abortSoft (d : Dev) (code member : Nat) : memCfg (abortSoft d code member) = memCfg d := by
  have mates : ∀ g, memCfg (abortMates d g) = memCfg d := fun g => by
    unfold abortMates
    split
    · exact memCfg_of_links (besideLinks_sendMates ..)
    · rfl
  unfold abortSoft
  split
  · rfl
  · exact (memCfg_graftFailed ..).trans (mates _)

@[simp] theorem memCfg_startRemap (d : Dev) (g : FltGraft) : memCfg (startRemap d g) = memCfg d :=
  (memCfg_wrs _ _ (by simp only [List.forall_mem_cons]; decide)).trans (memCfg_abortSoft d 0x30 0xFF)

@[simp] theorem memCfg_enterHold (d : Dev) (cls : Nat) : memCfg (enterHold d cls) = memCfg d := by
  simp (disch := decide) only [enterHold, memCfg_tick]
  refine (memCfg_wrs _ _ (by simp only [List.forall_mem_cons]; decide)).trans ?_
  split
  · rfl
  · exact memCfg_wr _ _ (by decide)

@[simp] theorem memCfg_degrade (d : Dev) : memCfg (degrade d) = memCfg d := by
  simp only [degrade]
  split
  · exact (memCfg_wr _ _ (by decide)).trans (memCfg_wr _ _ (by decide))
  · exact memCfg_wr _ _ (by decide)

@[simp] theorem memCfg_fltLog (d : Dev) (cls pool unit action epoch : Nat) : memCfg (fltLog d cls pool unit action epoch) = memCfg d := by
  simp (disch := decide) only [fltLog, memCfg_irq, memCfg_tick]
  refine memCfg_wrs d _ ?_
  simp only [List.forall_mem_cons, List.not_mem_nil, false_imp_iff, implies_true, and_true, Fld.at, polKey, decide_eq_false_iff_not,
    Reg.fltLogWord, Reg.fltLogHeadSeq, Reg.fltStatFaultPend]
  omega

@[simp] theorem memCfg_poolFault (d : Dev) (code cls pool n unit : Nat) : memCfg (poolFault d code cls pool n unit) = memCfg d := by
  simp only [poolFault]
  split
  · exact memCfg_fltLog ..
  · split
    · exact memCfg_fltLog ..
    · split
      · simp only [memCfg_fltLog, memCfg_enterHold]
        rfl
      · simp only [memCfg_fltLog, memCfg_startRemap]
        rfl

@[simp] theorem memCfg_mediumFault (d : Dev) (code cls unit : Nat) : memCfg (mediumFault d code cls unit) = memCfg d := by
  simp only [mediumFault]
  split
  · exact memCfg_fltLog ..
  · split
    · simp only [memCfg_fltLog, memCfg_startRemap]
    · split <;> simp only [memCfg_fltLog, memCfg_enterHold, memCfg_degrade]

/-- A fault that does not lead to FAILED (R404) leaves memory and the policies. -/
theorem memCfg_fault (d : Dev) (code unit : Nat) {cls : Nat} (h : cls ≤ 10) : memCfg (fault d code cls unit) = memCfg d := by
  have acts : memCfg (faultActs d code cls unit) = memCfg d := by
    unfold faultActs
    split
    · split
      · exact memCfg_fltLog ..
      · exact memCfg_poolFault ..
    · split
      case h_6 | h_7 => omega
      all_goals simp only [memCfg_fltLog, memCfg_mediumFault, apply_ite memCfg, memCfg_enterHold, memCfg_degrade, ite_self]
  unfold fault
  split
  · simp only [memCfg_flt, memCfg_fltLog]
  · exact acts

/-! ### Accesses to device memory -/

theorem cfgSide_count (d : Dev) {a : Nat} (n : Nat) (h : cfgCtr a = false) : cfgSide (count d a n) = cfgSide d :=
  cfgSide_of_memCfg (memCfg_count d n h)
theorem cfgSide_tick (d : Dev) {a : Nat} (h : cfgCtr a = false) : cfgSide (tick d a) = cfgSide d := cfgSide_count d 1 h

/-- The counters of memory's units lie in MEM's block (R339). -/
theorem cfgCtr_unit (u : Nat) : cfgCtr (unitCtr Ctr.memUe u) = false ∧ cfgCtr (unitCtr Ctr.memCeInner u) = false ∧
    cfgCtr (unitCtr Ctr.memCeOuter u) = false ∧ cfgCtr (unitCtr Ctr.memPartialUe u) = false := by
  have past : ∀ a, 0x00300000 ≤ a → cfgCtr a = false := fun a h => decide_eq_false (Nat.not_lt.mpr h)
  exact ⟨past _ (by simp only [unitCtr, Ctr.memUe]; omega), past _ (by simp only [unitCtr, Ctr.memCeInner]; omega),
    past _ (by simp only [unitCtr, Ctr.memCeOuter]; omega), past _ (by simp only [unitCtr, Ctr.memPartialUe]; omega)⟩
@[simp] theorem cfgSide_meter (d : Dev) (j n : Nat) : cfgSide (meter d j n) = cfgSide d :=
  cfgSide_of_memCfg (memCfg_of_links (besideLinks_meter ..))
@[simp] theorem cfgSide_irq (d : Dev) (en vec : Fld) : cfgSide (irq d en vec) = cfgSide d := cfgSide_of_memCfg (memCfg_irq ..)
theorem cfgSide_wrs (d : Dev) (l : List (Fld × Nat)) (h : ∀ p ∈ l, polKey p.1.key = false) : cfgSide (wrs d l) = cfgSide d :=
  cfgSide_of_memCfg (memCfg_wrs d l h)

theorem cfgSide_fault (d : Dev) (code unit : Nat) {cls : Nat} (h : cls ≤ 10) : cfgSide (fault d code cls unit) = cfgSide d :=
  cfgSide_of_memCfg (memCfg_fault d code unit h)

@[simp] theorem cfgSide_startRepair (d : Dev) (u : Nat) (col : Bool) (idx : Nat) : cfgSide (startRepair d u col idx) = cfgSide d := by
  unfold startRepair; split <;> rfl

@[simp] theorem cfgSide_noteFix (d : Dev) (a : Nat) (x : Nat × Nat) : cfgSide (noteFix d a x) = cfgSide d := by
  have row : ∀ d u th row, cfgSide (noteRow d u th row) = cfgSide d := fun d u th row => by
    simp only [noteRow, apply_ite cfgSide, cfgSide_startRepair]
    exact ite_self _
  have column : ∀ d u th row col, cfgSide (noteColumn d u th row col) = cfgSide d := fun d u th row col => by
    simp only [noteColumn, apply_ite cfgSide, cfgSide_startRepair]
    exact ite_self _
  simp only [noteFix_eq, apply_ite cfgSide, row, column, ite_self]

@[simp] theorem cfgSide_unitLost (d : Dev) (u : Nat) : cfgSide (unitLost d u) = cfgSide d := by
  have marked : ∀ f v, polKey f.key = false → cfgSide (wr (wr d f v) Reg.memErrStatUnitLost 1) = cfgSide d := fun f v key =>
    (cfgSide_wr _ _ (by decide)).trans (cfgSide_wr d v key)
  unfold unitLost
  split
  · rfl
  · dsimp only
    split
    · exact (cfgSide_fault _ _ _ (by decide)).trans (marked _ _ (by decide))
    · exact (cfgSide_fault _ _ _ (by decide)).trans (marked _ _ (by decide))

@[simp] theorem cfgSide_noteUe (d : Dev) (a : Nat) : cfgSide (noteUe d a) = cfgSide d := by
  rw [noteUe_eq]
  split
  · exact cfgSide_unitLost ..
  · rfl

@[simp] theorem cfgSide_recordUe (d : Dev) (a src ueWords : Nat) : cfgSide (recordUe d a src ueWords) = cfgSide d := by
  simp only [recordUe, cfgSide_noteUe]
  refine (cfgSide_fault _ _ _ (by decide)).trans ?_
  split
  · exact (cfgSide_wr _ _ (by decide)).trans (cfgSide_tick d (cfgCtr_unit _).1)
  · rw [cfgSide_irq]
    exact (cfgSide_wrs _ _ (by simp only [List.forall_mem_cons]; decide)).trans (cfgSide_tick d (cfgCtr_unit _).1)

@[simp] theorem cfgSide_recordCe (d : Dev) (b src : Nat) (r : BlkRead) : cfgSide (recordCe d b src r) = cfgSide d := by
  have fixes := fun d => foldl_keeps cfgSide (fun d x => cfgSide_noteFix d b x) r.fixes d
  have marked : ∀ (d : Dev) (a w m u n : Nat), cfgSide (wrs d [(Reg.memErrStatCe, 1), (Reg.memErrCeAddrLoAddr, a),
      (Reg.memErrCeAddrHiAddr, a / 2 ^ 32), (Reg.memErrCeInfoSource, w), (Reg.memErrCeInfoMedium, m), (Reg.memErrCeInfoUnit, u),
      (Reg.memErrCeInfoUeWords, n)]) = cfgSide d := fun d a w m u n => cfgSide_wrs _ _ (by simp only [List.forall_mem_cons]; decide)
  have counted : ∀ u n k, cfgSide (count (count d (unitCtr Ctr.memCeInner u) n) (unitCtr Ctr.memCeOuter u) k) = cfgSide d := fun u n k =>
    (cfgSide_count _ k (cfgCtr_unit u).2.2.1).trans (cfgSide_count d n (cfgCtr_unit u).2.1)
  refine (fixes _).trans ?_
  simp only [apply_ite cfgSide, cfgSide_irq, ite_self]
  split
  · exact (cfgSide_wr _ _ (by decide)).trans ((marked ..).trans (counted ..))
  · exact (marked ..).trans (counted ..)

@[simp] theorem cfgSide_readLines (d : Dev) (b src : Nat) (lines : List Nat) : cfgSide (readLines d b src lines).1 = cfgSide d := by
  have noted : ∀ r, cfgSide (blkNoted d b src lines r) = cfgSide d := fun r =>
    (foldl_keeps cfgSide (fun d j => cfgSide_recordUe d (128 * b + 32 * j) src r.ueWords) _ _).trans (by
      split
      · exact cfgSide_recordCe ..
      · rfl)
  cases up : served d (128 * b) with
  | false => rw [readLines_unserved _ _ up]
  | true =>
    cases h : find? d.mem.blk b with
    | none => rw [readLines_clean _ _ up h]
    | some e =>
      rw [readLines_decodes _ _ up h]
      dsimp only
      split
      · exact noted (blkDecode e)
      · exact noted (blkDecode e)

@[simp] theorem cfgSide_readBlock (d : Dev) (a src : Nat) : cfgSide (readBlock d a src).1 = cfgSide d := by
  simp only [readBlock]
  split <;> simp only [cfgSide_startRepair, cfgSide_readLines]

@[simp] theorem cfgSide_memRead (d : Dev) (a n : Nat) : cfgSide (memRead d a n).1 = cfgSide d := by
  simp only [memRead]
  refine (foldl_fst_keeps cfgSide (fun x b => ?_) _ _).trans (cfgSide_meter d _ _)
  exact cfgSide_readBlock x.1 (b * 128) 0

@[simp] theorem cfgSide_injectInto (d : Dev) (b : Nat) : cfgSide (injectInto d b) = cfgSide d := by
  unfold injectInto
  split
  · exact cfgSide_wr _ _ (by decide)
  · rfl

@[simp] theorem cfgSide_writeBlock (d : Dev) (b a : Nat) (bs : Bytes) : cfgSide (writeBlock d b a bs).1 = cfgSide d := by
  have lost := fun (l : List Nat) (d : Dev) => foldl_keeps cfgSide
    (fun d j => cfgSide_tick d (cfgCtr_unit (unitAt d (128 * b + 32 * j))).2.2.2) l d
  have blk : ∀ (d : Dev) (x : Mem), cfgSide { d with mem := x } = cfgSide d := fun _ _ => rfl
  unfold writeBlock
  dsimp only
  split
  · rfl
  · split <;> split <;> simp only [each, lost, cfgSide_injectInto, blk, cfgSide_readLines]

@[simp] theorem cfgSide_codeWrite (d : Dev) (a : Nat) (bs : Bytes) : cfgSide (codeWrite d a bs).1 = cfgSide d := by
  simp only [codeWrite]
  refine foldl_fst_keeps cfgSide (fun x b => ?_) _ _
  exact cfgSide_writeBlock x.1 b a bs

@[simp] theorem besideFaults_codeWrite (d : Dev) (a : Nat) (bs : Bytes) : besideFaults (codeWrite d a bs).1 = besideFaults d := by
  simp only [codeWrite]
  refine foldl_fst_keeps besideFaults (fun x b => ?_) _ _
  exact besideFaults_writeBlock x.1 b a bs

@[simp] theorem cfgSide_memWrite (d : Dev) (a : Nat) (bs : Bytes) : cfgSide (memWrite d a bs) = cfgSide d := by
  have puts := fun (l : List (Nat × Bytes)) (d : Dev) => foldl_keeps cfgSide (f := fun d p => memPut d p.1 p.2) (fun _ _ => rfl) l d
  refine (puts _ _).trans ?_
  simp only [cfgSide_codeWrite, cfgSide_meter]

@[simp] theorem cfgSide_memClear (d : Dev) (a n : Nat) : cfgSide (memClear d a n) = cfgSide d := by
  simp only [memClear]
  split
  · exact cfgSide_injectInto ..
  · rfl

/-- The exchange of a slot's banks writes memory and no policy (R191). -/
@[simp] theorem cfgSide_swapBanks (d : Dev) (slot part : Nat) : cfgSide (swapBanks d slot part) = cfgSide d := by
  unfold swapBanks
  split
  · exact (cfgSide_memClear ..).trans (cfgSide_memWrite ..)
  · rfl

end Sys2Proof.Machine.Ops
end

section
/-!
PROOFS. The model admission (10_model_admission): the refit policies: the task of a policy, the interval, COMMIT
and DISCARD.
-/
namespace Sys2Proof.Machine
namespace Ops

/-! ### The task of a policy (R227, R229) -/

theorem postTask_frame (d : Dev) (t : Task) : { (postTask d t).1 with spr := d.spr, ctrs := d.ctrs } = d := by
  unfold postTask
  split
  · rfl
  · split <;> rfl

/-- SPR takes a task of the class: its gate is ON and the queue has room (R227). -/
abbrev TaskFits (d : Dev) (k : Nat) : Prop := gateOn d 12 = true ∧ (taskQueue d k).length < 1024

/-- A task that fits gets the next number of its class (R229). -/
theorem postTask_fits {d : Dev} {t : Task} (fits : TaskFits d t.cls) : (postTask d t).2 = true ∧
    taskQueue (postTask d t).1 t.cls = taskQueue d t.cls ++ [{ t with seq := lastSeq d t.cls + 1 }] ∧
    lastSeq (postTask d t).1 t.cls = lastSeq d t.cls + 1 := by
  obtain ⟨on, room⟩ := fits
  rw [postTask, on, if_neg (by decide), if_neg (Nat.not_le.mpr room)]
  exact ⟨rfl, getD_set_same .., getD_set_same ..⟩

theorem postTask_refused {d : Dev} {t : Task} (h : ¬TaskFits d t.cls) : (postTask d t).2 = false := by
  unfold postTask
  split
  · rfl
  next on =>
    split
    · rfl
    next room => exact absurd ⟨by simpa using on, Nat.not_le.mp room⟩ h

/-! ### The end of a policy's interval (R263) -/

/-- The time at which the interval of a slot's policy ends. -/
def polDue (d : Dev) (slot : Nat) : Nat := (refitOf d slot).since + rd d (Reg.cfgRefitPolInterval slot) * 1000000

/-- The next interval of a slot's policy has begun. -/
def polNext (d : Dev) (slot : Nat) : Dev := setRefit d slot { refitOf d slot with since := polDue d slot }

theorem refitOf_setRefit (d : Dev) (slot : Nat) (p : RefitPol) : refitOf (setRefit d slot p) slot = p := by
  simp only [refitOf, setRefit, find?_set_same, Option.getD_some]

theorem polInterval_early {d : Dev} {slot : Nat} (h : polOn d slot = false ∨ now d < polDue d slot) : polInterval d slot = d := by
  refine if_pos ?_
  rcases h with off | early
  · exact .inl (by rw [off]; rfl)
  · exact .inr early

theorem polInterval_due {d : Dev} {slot : Nat} (on : polOn d slot = true) (due : polDue d slot ≤ now d) :
    polInterval d slot = match polState d slot with
      | 0 => polPost (polNext d slot) slot
      | 2 => if (refitOf d slot).queued then polNext d slot else queueCommit (polNext d slot) slot
      | _ => polNext d slot := by
  refine (if_neg ?_).trans rfl
  rw [on]
  simpa [polDue] using due

section
variable (d : Dev) (slot : Nat)

theorem queueCommit_spec : (queueCommit d slot).grf.queue = d.grf.queue ++ [128 + slot] ∧
    rd (queueCommit d slot) (Reg.cfgRefitStatLastCode slot) = 1 ∧ polState (queueCommit d slot) slot = polState d slot ∧
    (refitOf (queueCommit d slot) slot).since = (refitOf d slot).since := by
  have apart : (Reg.cfgRefitStatState slot).key ≠ (Reg.cfgRefitStatLastCode slot).key := by
    simp only [Reg.cfgRefitStatLastCode, Reg.cfgRefitStatState, Fld.at]
    omega
  have since := congrArg RefitPol.since (refitOf_setRefit d slot { refitOf d slot with queued := true })
  have state := rd_wr_ne d (Reg.cfgRefitStatLastCode slot) (Reg.cfgRefitStatState slot) 1 apart
  exact ⟨rfl, rd_wr_same d (Reg.cfgRefitStatLastCode slot) 1, state, since⟩

theorem polLabels_keeps : besideFaults (polLabels d slot).1 = besideFaults d ∧ cfgSide (polLabels d slot).1 = cfgSide d := by
  unfold polLabels
  split
  · simp only [memReadLe, besideFaults_memRead, cfgSide_memRead, and_self]
  · exact ⟨rfl, rfl⟩

/-- The labels counted do not depend on the interval (R263). -/
theorem polLabels_polNext : (polLabels (polNext d slot) slot).2 = (polLabels d slot).2 := by
  have bank : activeBank (polNext d slot) slot (polPart (polNext d slot) slot) = activeBank d slot (polPart d slot) := rfl
  simp only [polLabels, bank]
  split
  · exact memReadLe_refit d _ _ _
  · rfl

/-- The task that a policy posts: class, source, slot and the bank about to freeze (R229, R263). -/
def polTask (a : Nat) (f : Nat) : Task :=
  { cls := 3 + polPart d slot, src := 6, tenant := slotTenant (polLabels d slot).1 slot, slot, epoch := curNum (polLabels d slot).1, arg0 := a
    arg1 := f % 2 ^ 64, seq := 0 }

end

/-- MIN_LABELS and STATE of a slot are among the registers that a policy keeps. -/
theorem polKey_slot (slot : Slot) : polKey (Reg.cfgRefitLimMinLabels slot).key = true ∧ polKey (Reg.cfgRefitStatState slot).key = true := by
  have := slot.isLt
  refine ⟨decide_eq_true ?_, decide_eq_true ?_⟩
  · simp only [Reg.cfgRefitLimMinLabels, Fld.at]
    omega
  · simp only [Reg.cfgRefitStatState, Fld.at]
    omega

theorem swapBanks_spr (d : Dev) (slot part : Nat) : (swapBanks d slot part).spr = d.spr := by
  unfold swapBanks
  split
  · exact (memClear_spr ..).trans (keeps_of_faults Dev.spr (fun _ => rfl) (besideFaults_memWrite ..))
  · rfl

/-- The intervals of the policies, and what only the resets change. -/
def polSide (d : Dev) : (Nat → Nat) × Straps × Pins := (fun k => (refitOf d k).since, d.straps, d.pins)

theorem polSide_polLabels (d : Dev) (slot : Nat) : polSide (polLabels d slot).1 = polSide d := by
  obtain ⟨beside, pol⟩ := polLabels_keeps d slot
  exact Prod.ext (funext (since_of_cfgSide pol)) (keeps_of_faults (fun e => (e.straps, e.pins)) (fun _ => rfl) beside)

theorem polSide_postTask (d : Dev) (t : Task) : polSide (postTask d t).1 = polSide d := by
  have side := congrArg polSide (postTask_frame d t)
  exact side

theorem polSide_swapBanks (d : Dev) (slot part : Nat) : polSide (swapBanks d slot part) = polSide d := by
  obtain ⟨straps, pins⟩ := swapBanks_pins_straps d slot part
  exact Prod.ext (funext (since_of_cfgSide (cfgSide_swapBanks d slot part))) (Prod.ext straps pins)

/-- Whatever the IDLE row does, the interval runs on. -/
theorem polSide_polPost (d : Dev) (slot : Nat) : polSide (polPost d slot) = polSide d := by
  have labels := polSide_polLabels d slot
  have post := fun t => (polSide_postTask (fresh (polLabels d slot).1).2 t).trans labels
  unfold polPost
  dsimp only
  split
  · split
    · exact labels
    · split
      · exact (polSide_swapBanks ..).trans (post _)
      · exact post _
  · rfl

section
variable {d : Dev} {slot : Slot} {a : Nat} {x : Nat × Bool}
  (bank : activeBank d slot (polPart d slot) = some a) (part : refitPart d slot (polPart d slot) = some x)
include bank part

/-- Too few labels: the policy stays IDLE with its banks, and posts nothing. -/
theorem polPost_few (few : (polLabels d slot).2 < rd d (Reg.cfgRefitLimMinLabels slot)) :
    polState (polPost d slot) slot = polState d slot ∧ (polPost d slot).banks = d.banks ∧ (polPost d slot).spr = d.spr := by
  obtain ⟨beside, pol⟩ := polLabels_keeps d slot
  obtain ⟨lim, state⟩ := polKey_slot slot
  have post : polPost d slot = (polLabels d slot).1 := by
    rw [← rd_of_cfgSide pol lim] at few
    simp only [polPost, bank, part, if_pos few]
  rw [post]
  exact ⟨rd_of_cfgSide pol state, keeps_of_faults Dev.banks (fun _ => rfl) beside, keeps_of_faults Dev.spr (fun _ => rfl) beside⟩

/-- Labels enough, and room for the task: it is posted, the banks are exchanged, the policy is RUNNING. -/
theorem polPost_enough (enough : rd d (Reg.cfgRefitLimMinLabels slot) ≤ (polLabels d slot).2)
    (fits : TaskFits d (3 + polPart d slot)) : polState (polPost d slot) slot = 1 ∧
      ∃ t, taskQueue (polPost d slot) (3 + polPart d slot) = taskQueue d (3 + polPart d slot) ++ [t] ∧ t.src = 6 ∧ t.slot = slot.val := by
  obtain ⟨beside, pol⟩ := polLabels_keeps d slot
  let f := fresh (polLabels d slot).1
  let p := postTask f.2 (polTask d slot a f.1)
  have fits' : TaskFits f.2 (3 + polPart d slot) :=
    keeps_of_faults (fun e => TaskFits e (3 + polPart d slot)) (fun _ => rfl) beside ▸ fits
  obtain ⟨posted, queue, _⟩ := postTask_fits (t := polTask d slot a f.1) fits'
  have post : polPost d slot = wr (swapBanks p.1 slot (polPart d slot)) (Reg.cfgRefitStatState slot) 1 := by
    rw [← rd_of_cfgSide pol (polKey_slot slot).1] at enough
    simp only [polPost, bank, part, if_neg (Nat.not_lt.mpr enough)]
    exact if_pos posted
  rw [post]
  refine ⟨rd_wr_same .., { polTask d slot a f.1 with seq := lastSeq f.2 (3 + polPart d slot) + 1 }, ?_, rfl, rfl⟩
  have spr : (swapBanks p.1 slot (polPart d slot)).spr = p.1.spr := swapBanks_spr ..
  have before := keeps_of_faults (fun e => taskQueue e (3 + polPart d slot)) (fun _ => rfl) beside
  calc taskQueue (wr (swapBanks p.1 slot (polPart d slot)) (Reg.cfgRefitStatState slot) 1) (3 + polPart d slot)
      = taskQueue p.1 (3 + polPart d slot) := congrArg (fun x : Spr => getD x.queues _ []) spr
    _ = _ := queue
    _ = _ := congrArg (· ++ _) before
end

theorem polInterval_keeps (d : Dev) (slot : Nat) : (polInterval d slot).straps = d.straps ∧ (polInterval d slot).pins = d.pins := by
  by_cases h : polOn d slot = false ∨ now d < polDue d slot
  · rw [polInterval_early h]
    exact ⟨rfl, rfl⟩
  · simp only [not_or, Bool.not_eq_false, Nat.not_lt] at h
    obtain ⟨on, due⟩ := h
    rw [polInterval_due on due]
    split
    · have side := congrArg Prod.snd (polSide_polPost (polNext d slot) slot)
      exact ⟨congrArg Prod.fst side, congrArg Prod.snd side⟩
    · split <;> exact ⟨rfl, rfl⟩
    · exact ⟨rfl, rfl⟩

theorem since_polInterval {d : Dev} {slot : Nat} (on : polOn d slot = true) (due : polDue d slot ≤ now d) :
    (refitOf (polInterval d slot) slot).since = polDue d slot := by
  have next : (refitOf (polNext d slot) slot).since = polDue d slot := congrArg RefitPol.since (refitOf_setRefit ..)
  rw [polInterval_due on due]
  split
  · exact (congrFun (congrArg Prod.fst (polSide_polPost (polNext d slot) slot)) slot).trans next
  · split
    · exact next
    · exact (queueCommit_spec (polNext d slot) slot).2.2.2.trans next
  · exact next

/-! ### COMMIT and DISCARD (R263) -/

theorem polCommit_held {d : Dev} {fn slot : Nat} (owns : ownsSlot d fn slot = true) (held : polState d slot = 3) :
    polCommit d fn slot = queueCommit (wr d (Reg.cfgRefitStatState slot) 2) slot := if_pos ⟨owns, held⟩

theorem polCommit_ignored {d : Dev} {fn slot : Nat} (h : ownsSlot d fn slot = false ∨ polState d slot ≠ 3) : polCommit d fn slot = d := by
  refine if_neg ?_
  rintro ⟨owns, held⟩
  rcases h with foreign | other
  · exact absurd (owns.symm.trans foreign) nofun
  · exact other held

/-- The device once the commit graft of the policy that GRF has taken has failed (R272). -/
def polAbort (d : Dev) (slot : Nat) : Dev :=
  match d.grf.cur with
  | some g => if g.port = 64 ∧ g.slot = slot then abortSoft d 0x12 0xFF else d
  | none => d

theorem polDiscard_drops {d : Dev} {fn slot : Nat} (owns : ownsSlot d fn slot = true) (shadow : 2 ≤ polState d slot) :
    polDiscard d fn slot = polIdle (dropCommit (polAbort d slot) slot) slot := if_pos ⟨owns, shadow⟩

theorem polDiscard_ignored {d : Dev} {fn slot : Nat} (h : ownsSlot d fn slot = false ∨ polState d slot < 2) : polDiscard d fn slot = d := by
  refine if_neg ?_
  rintro ⟨owns, shadow⟩
  rcases h with foreign | early
  · exact absurd (owns.symm.trans foreign) nofun
  · omega

theorem besideFaults_polAbort (d : Dev) (slot : Nat) : besideFaults (polAbort d slot) = besideFaults d := by
  unfold polAbort
  split
  · split
    · exact besideFaults_abortSoft ..
    · rfl
  · rfl

/-- An IDLE policy has no shadow (R263). -/
theorem polIdle_spec (d : Dev) (slot : Slot) : polState (polIdle d slot) slot = 0 ∧ (polIdle d slot).grf = d.grf ∧
    (refitOf (polIdle d slot) slot).shadowEns = none ∧ (refitOf (polIdle d slot) slot).shadowHead = none := by
  have refit := refitOf_setRefit (wr d (Reg.cfgRefitStatState slot) 0) slot
    { refitOf d slot with shadowEns := none, shadowHead := none, queued := false, stopping := false }
  have state := rd_wr_same d (Reg.cfgRefitStatState slot) 0
  unfold polIdle
  dsimp only
  split
  · refine ⟨(rd_wr_ne _ (Reg.cfgRefitPolEnable slot) (Reg.cfgRefitStatState slot) _ ?_).trans state, rfl, congrArg RefitPol.shadowEns refit,
      congrArg RefitPol.shadowHead refit⟩
    have := slot.isLt
    simp only [Reg.cfgRefitStatState, Reg.cfgRefitPolEnable, Fld.at]
    omega
  · exact ⟨state, rfl, congrArg RefitPol.shadowEns refit, congrArg RefitPol.shadowHead refit⟩

theorem polIdle_beside (d : Dev) (slot : Nat) : besideFaults (polIdle d slot) = besideFaults d := by
  unfold polIdle
  dsimp only
  split <;> rfl

theorem besideFaults_polDiscard (d : Dev) (fn slot : Nat) : besideFaults (polDiscard d fn slot) = besideFaults d := by
  by_cases h : ownsSlot d fn slot = true ∧ 2 ≤ polState d slot
  · rw [polDiscard_drops h.1 h.2, polIdle_beside]
    exact besideFaults_polAbort d slot
  · rw [polDiscard, if_neg h]

end Ops

open Ops

theorem does_refitInterval {s : State} (slot : Slot) (awake : Awake s) :
    Does (.refitInterval slot) s fun d => d = polInterval s.dev slot := by
  obtain ⟨straps, pins⟩ := polInterval_keeps s.dev slot
  exact does_run' (polInterval · slot) awake rfl straps pins rfl

theorem does_refitCommit {s : State} (fn : Fn) (slot : Slot) (awake : Awake s) (arrives : Arrives s.dev fn 0x00205C00 true) :
    Does (.refitCommit fn slot) s fun d => d = polCommit s.dev fn slot := by
  refine does_access' fn _ true (polCommit · fn slot) awake arrives rfl ?_ ?_ rfl
  · unfold polCommit
    split <;> rfl
  · unfold polCommit
    split <;> rfl

theorem does_refitDiscard {s : State} (fn : Fn) (slot : Slot) (awake : Awake s) (arrives : Arrives s.dev fn 0x00205C00 true) :
    Does (.refitDiscard fn slot) s fun d => d = polDiscard s.dev fn slot :=
  does_access' fn _ true (polDiscard · fn slot) awake arrives rfl (keeps_of_faults Dev.straps (fun _ => rfl) (besideFaults_polDiscard ..))
    (keeps_of_faults Dev.pins (fun _ => rfl) (besideFaults_polDiscard ..)) rfl

/-- What COMMIT leaves (R263). -/
theorem polCommit_spec (d : Dev) (fn slot : Nat) :
    (ownsSlot d fn slot = true → polState d slot = 3 → polState (polCommit d fn slot) slot = 2 ∧
      (polCommit d fn slot).grf.queue = d.grf.queue ++ [128 + slot] ∧ rd (polCommit d fn slot) (Reg.cfgRefitStatLastCode slot) = 1) ∧
    (ownsSlot d fn slot = false ∨ polState d slot ≠ 3 → polCommit d fn slot = d) := by
  refine ⟨fun owns held => ?_, polCommit_ignored⟩
  obtain ⟨queue, code, state, _⟩ := queueCommit_spec (wr d (Reg.cfgRefitStatState slot) 2) slot
  rw [polCommit_held owns held]
  exact ⟨state.trans (rd_wr_same ..), queue, code⟩

/-- What DISCARD leaves (R263). -/
theorem polDiscard_spec (d : Dev) (fn : Nat) (slot : Slot) :
    (ownsSlot d fn slot = true → 2 ≤ polState d slot → polState (polDiscard d fn slot) slot = 0 ∧
      128 + slot.val ∉ (polDiscard d fn slot).grf.queue ∧
      (refitOf (polDiscard d fn slot) slot).shadowEns = none ∧ (refitOf (polDiscard d fn slot) slot).shadowHead = none ∧
      (polDiscard d fn slot).banks = d.banks) ∧
    (ownsSlot d fn slot = false ∨ polState d slot < 2 → polDiscard d fn slot = d) := by
  refine ⟨fun owns shadow => ?_, polDiscard_ignored⟩
  have banks := keeps_of_faults Dev.banks (fun _ => rfl) (besideFaults_polDiscard d fn slot)
  rw [polDiscard_drops owns shadow] at banks ⊢
  obtain ⟨state, grf, ens, head⟩ := polIdle_spec (dropCommit (polAbort d slot) slot) slot
  refine ⟨state, ?_, ens, head, banks⟩
  rw [grf]
  simp [dropCommit]

/-- The end of an interval (R263), by the state of the policy. -/
theorem polInterval_spec (d : Dev) (slot : Slot) (on : polOn d slot = true) (due : polDue d slot ≤ now d) :
    (refitOf (polInterval d slot) slot).since = polDue d slot ∧
    (polState d slot = 0 → activeBank d slot (polPart d slot) ≠ none → refitPart d slot (polPart d slot) ≠ none →
      ((polLabels d slot).2 < rd d (Reg.cfgRefitLimMinLabels slot) →
        polState (polInterval d slot) slot = 0 ∧ (polInterval d slot).banks = d.banks ∧ (polInterval d slot).spr = d.spr) ∧
      (rd d (Reg.cfgRefitLimMinLabels slot) ≤ (polLabels d slot).2 → TaskFits d (3 + polPart d slot) →
        polState (polInterval d slot) slot = 1 ∧ ∃ t, taskQueue (polInterval d slot) (3 + polPart d slot) =
          taskQueue d (3 + polPart d slot) ++ [t] ∧ t.src = 6 ∧ t.slot = slot.val)) ∧
    (polState d slot = 2 → (refitOf d slot).queued = false → (polInterval d slot).grf.queue = d.grf.queue ++ [128 + slot.val] ∧
      rd (polInterval d slot) (Reg.cfgRefitStatLastCode slot) = 1 ∧ polState (polInterval d slot) slot = 2) ∧
    (polState d slot = 1 ∨ polState d slot = 3 → polInterval d slot = polNext d slot) := by
  have step := polInterval_due on due
  refine ⟨since_polInterval on due, fun idle hbank hpart => ?_, fun ready failed => ?_, fun other => ?_⟩
  · obtain ⟨a, bank⟩ := Option.ne_none_iff_exists'.mp hbank
    obtain ⟨x, part⟩ := Option.ne_none_iff_exists'.mp hpart
    have labels := polLabels_polNext d slot.val
    simp only [idle] at step
    rw [step, ← labels]
    refine ⟨fun few => ?_, fun enough fits => ?_⟩
    · obtain ⟨state, banks, spr⟩ := polPost_few (d := polNext d slot) bank part few
      exact ⟨state.trans idle, banks, spr⟩
    · exact polPost_enough (d := polNext d slot) bank part enough fits
  · simp only [ready, failed] at step
    obtain ⟨queue, code, state, _⟩ := queueCommit_spec (polNext d slot) slot
    rw [step]
    exact ⟨queue, code, state.trans ready⟩
  · rw [step]
    rcases other with running | held
    · simp only [running]
    · simp only [held]

end Sys2Proof.Machine
end

section
/-!
PROOFS. The model admission (10_model_admission): what the engines, in a pass, and the end of a run may change;
the start of a run, its completion, and the assignment of a slot.
-/
namespace Sys2Proof.Machine.Ops

/-! ### What a pass and the end of a run leave (R184, R258) -/

theorem filter_set_of_not {α : Type} (p : Nat → Bool) (m : Map α) {k : Nat} (v : α) (h : p k = false) :
    (set m k v).filter (fun c => p c.1) = m.filter fun c => p c.1 := by
  induction m with
  | nil => simp [set, h]
  | cons c r ih =>
    obtain ⟨i, w⟩ := c
    by_cases hi : i = k
    · subst hi
      simp [set, h]
    · by_cases lt : k < i
      · simp [set, hi, lt, h]
      · simp only [set, if_neg hi, if_neg lt, List.filter_cons, ih]

theorem filter_del_of_not {α : Type} (p : Nat → Bool) (m : Map α) {k : Nat} (h : p k = false) :
    (del m k).filter (fun c => p c.1) = m.filter fun c => p c.1 := by
  rw [del, List.filter_filter]
  refine List.filter_congr fun c _ => ?_
  by_cases hc : c.1 = k
  · rw [hc, h]
    rfl
  · simp [hc]

/-- A value placed at a key that a filter leaves out. -/
theorem filter_setDef_of_not {α : Type} [DecidableEq α] (p : Nat → Bool) (m : Map α) {k : Nat} (e v : α) (h : p k = false) :
    (setDef m k e v).filter (fun c => p c.1) = m.filter fun c => p c.1 := by
  unfold setDef
  split
  · exact filter_del_of_not p m h
  · exact filter_set_of_not p m v h

/-- Keys below FLT's block, beside the record of QNT's events: no pass writes them. -/
def passKey (k : Nat) : Bool := decide (k < 0x01400000 * 32 ∧ k / 32 ≠ 0x00900140)

/-- The device beside what passes and the ends of runs change: the link layers, Signet's sums, the outputs, the tensors' records, the fault
manager, the vectors that wait, the pause conditions, open values, and registers and counters of the blocks concerned. -/
def passSide (d : Dev) : Dev :=
  { besideLinks d with
    regs := d.regs.filter fun c => passKey c.1, ctrs := d.ctrs.filter fun c => cfgCtr c.1, hif := Dev.reset.hif
    flt := Dev.reset.flt, qnt := [], tmg := Dev.reset.tmg, free := 0 }

theorem passSide_of_links {d e : Dev} (h : besideLinks e = besideLinks d) : passSide e = passSide d :=
  keeps_of_links passSide (fun _ => rfl) h

/-- What does not read what a pass changes is as before. -/
theorem keeps_of_pass {β : Type} (g : Dev → β) (hg : ∀ d, g (passSide d) = g d) {d e : Dev} (h : passSide e = passSide d) :
    g e = g d := (hg e).symm.trans ((congrArg g h).trans (hg d))

theorem rd_passSide (d : Dev) {f : Fld} (h : passKey f.key = true) : rd (passSide d) f = rd d f := by
  simp only [rd, getD, passSide, find?_filter_key, h, if_true]

theorem ctr_passSide (d : Dev) {a : Nat} (h : cfgCtr a = true) : ctr (passSide d) a = ctr d a := by
  simp only [ctr, getD, passSide, find?_filter_key, h, if_true]

theorem passSide_wr (d : Dev) {f : Fld} (v : Nat) (h : passKey f.key = false) : passSide (wr d f v) = passSide d := by
  simp only [passSide, wr, filter_setDef_of_not passKey _ _ _ h]
  rfl

theorem passSide_wrs (d : Dev) (l : List (Fld × Nat)) (h : ∀ p ∈ l, passKey p.1.key = false) : passSide (wrs d l) = passSide d := by
  induction l generalizing d with
  | nil => rfl
  | cons p l ih => exact (ih (wr d p.1 p.2) fun q hq => h q (List.mem_cons_of_mem _ hq)).trans (passSide_wr d _ (h p List.mem_cons_self))

theorem passSide_setCtr (d : Dev) {a : Nat} (v : Nat) (h : cfgCtr a = false) : passSide (setCtr d a v) = passSide d := by
  simp only [passSide, setCtr, filter_setDef_of_not cfgCtr _ _ _ h]
  rfl

theorem passSide_count (d : Dev) {a : Nat} (n : Nat) (h : cfgCtr a = false) : passSide (count d a n) = passSide d :=
  passSide_setCtr d _ h
theorem passSide_tick (d : Dev) {a : Nat} (h : cfgCtr a = false) : passSide (tick d a) = passSide d := passSide_setCtr d _ h
theorem passSide_tickIf (b : Bool) (d : Dev) {a : Nat} (h : cfgCtr a = false) : passSide (tickIf b d a) = passSide d := by
  cases b
  · rfl
  · exact passSide_tick d h

@[simp] theorem passSide_qnt (d : Dev) (x : Map TensorRec) : passSide { d with qnt := x } = passSide d := rfl
@[simp] theorem passSide_flt (d : Dev) (x : Flt) : passSide { d with flt := x } = passSide d := rfl
@[simp] theorem passSide_meter (d : Dev) (j n : Nat) : passSide (meter d j n) = passSide d := passSide_of_links (besideLinks_meter ..)
@[simp] theorem passSide_meters (d : Dev) (l : List (Nat × Nat)) : passSide (meters d l) = passSide d :=
  foldl_keeps passSide (f := fun d (e : Nat × Nat) => meter d e.1 e.2) (fun d e => passSide_meter d e.1 e.2) l d

@[simp] theorem passSide_irq (d : Dev) (en vec : Fld) : passSide (irq d en vec) = passSide d := by
  unfold irq
  split
  · unfold msix
    split
    · exact passSide_tick d (by decide)
    · split <;> rfl
  · rfl

@[simp] theorem passSide_fltLog (d : Dev) (cls pool unit action epoch : Nat) : passSide (fltLog d cls pool unit action epoch) = passSide d := by
  simp only [fltLog, passSide_irq]
  refine (passSide_tick _ (by decide)).trans (passSide_wrs d _ ?_)
  simp only [List.forall_mem_cons, List.not_mem_nil, false_imp_iff, implies_true, and_true, Fld.at, passKey, decide_eq_false_iff_not,
    Reg.fltLogWord, Reg.fltLogHeadSeq, Reg.fltStatFaultPend]
  omega

/-- An error in a tensor's record is logged and no more (R166, R397). -/
@[simp] theorem passSide_recordFault (d : Dev) (m : Model) (pipe : Nat) (f : Option PassFault) :
    passSide (recordFault d m pipe f) = passSide d := by
  unfold recordFault
  split
  · unfold recordError
    split
    · unfold fault
      split
      · simp only [passSide_flt, passSide_fltLog, passSide_qnt]
      · exact (passSide_fltLog ..).trans (passSide_qnt ..)
    · rfl
  · rfl

@[simp] theorem passSide_mirrorScale (d : Dev) (pipe slot t : Nat) (s : Int) : passSide (mirrorScale d pipe slot t s) = passSide d := by
  unfold mirrorScale
  split
  · exact passSide_of_links (besideLinks_sendPartner ..)
  · rfl

@[simp] theorem passSide_scaleEnd (d : Dev) (pipe slot t : Nat) (r : TensorRec) : passSide (scaleEnd d pipe slot t r).1 = passSide d := by
  have noted : ∀ (h : Option Bool), passSide (match h with
      | none => d
      | some high => wrs (tick d Ctr.qntScaleRange) [(Reg.qntEvtStatScaleRange, 1), (Reg.qntEvtStatPipe, pipe),
          (Reg.qntEvtStatSlot, slot), (Reg.qntEvtStatTensor, t), (Reg.qntEvtStatHigh, b2n high)]) = passSide d := fun h => by
    split
    · rfl
    · exact (passSide_wrs _ _ (by simp only [List.forall_mem_cons]; decide)).trans (passSide_tick d (by decide))
  unfold scaleEnd
  split
  · rfl
  · split
    · rfl
    · dsimp only
      split
      · exact noted _
      · rw [passSide_mirrorScale, passSide_tick _ (by decide)]
        exact noted _

@[simp] theorem passSide_convVec (d : Dev) (m : Model) (pipe slot t : Nat) (src : List (Option Num)) :
    passSide (convVec d m pipe slot t src).1 = passSide d := by
  simp (disch := decide) only [convVec, passSide_qnt, passSide_scaleEnd, passSide_tickIf, passSide_count]

@[simp] theorem passSide_inputVec (e : Env) (m : Model) (pipe slot : Nat) (fs : Map Nat) (st : StateIn) (t : Nat) (feats : List Nat) :
    passSide (inputVec e m pipe slot fs st t feats).1.d = passSide e.d := by
  simp only [inputVec]
  split
  · rfl
  · split
    · split <;> simp only [passSide_convVec]
    · split <;> simp only [passSide_convVec]

@[simp] theorem passSide_layerIn (e : Env) (m : Model) (pipe slot : Nat) (fs : Map Nat) (st : StateIn) (l : Layer) :
    passSide (layerIn e m pipe slot fs st l).1.d = passSide e.d := by
  simp only [layerIn]
  split <;> simp only [passSide_inputVec]

@[simp] theorem passSide_layerOut (e : Env) (l : Layer) (x : TVec) : passSide (layerOut e l x).1.d = passSide e.d := by
  simp (disch := decide) only [layerOut, passSide_count]

@[simp] theorem passSide_runLayer (e : Env) (m : Model) (pipe slot : Nat) (fs : Map Nat) (st : StateIn) (l : Layer) (o : Outcome) :
    passSide (runLayer e m pipe slot fs st l o).1.d = passSide e.d := by
  simp only [runLayer]
  split
  · split
    · simp (disch := decide) only [passSide_count, passSide_layerIn]
    · simp (disch := decide) only [passSide_tickIf, passSide_layerOut, passSide_layerIn]
  · simp only [passSide_convVec, passSide_layerOut, passSide_layerIn]

@[simp] theorem passSide_runLayers (w : Work) (m : Model) (pipe slot : Nat) (fs : Map Nat) (st : StateIn) (idx : List Nat) :
    passSide (runLayers w m pipe slot fs st idx).e.d = passSide w.e.d := by
  have layers : ∀ (l : List Nat) (a : Env × Outcome),
      passSide (l.foldl (fun (a : Env × Outcome) i =>
        let l := m.layers.getD i default
        if l.type ≠ 0 then a else runLayer a.1 m pipe slot fs st l a.2) a).1.d = passSide a.1.d := by
    intro l
    induction l with
    | nil => intro a; rfl
    | cons i l ih =>
      intro a
      simp only [List.foldl_cons, ih]
      split
      · rfl
      · exact passSide_runLayer ..
  exact layers idx (w.e, w.out)

@[simp] theorem passSide_runEnsemble (w : Work) (m : Model) (pipe slot : Nat) (e : Ensemble) (fs : Map Nat) (carried : List Int) (part : Bool) :
    passSide (runEnsemble w m pipe slot e fs carried part).e.d = passSide w.e.d := by
  unfold runEnsemble
  split
  · exact passSide_tick _ (by decide)
  · dsimp only
    split <;> simp (disch := decide) only [passSide_convVec, passSide_tickIf, passSide_count]

@[simp] theorem passSide_passStart (d : Dev) (m : Model) (pipe slot : Nat) (ps : PassSec) (fs : Map Nat) (st : StateIn) (carried : List Int)
    (part : Bool) (vecs : Map TVec) : passSide (passStart d m pipe slot ps fs st carried part vecs).e.d = passSide d := by
  unfold passStart
  dsimp only
  split
  · split <;> split <;> simp only [passSide_runLayers, passSide_runEnsemble]
  · simp only [Bool.false_eq_true, if_false, passSide_runLayers]

@[simp] theorem passSide_unscheduled (d₀ d : Dev) : passSide (unscheduled d₀ d) = passSide d := by
  simp (disch := decide) only [unscheduled, passSide_count, passSide_setCtr]

@[simp] theorem passSide_pfcCheck (d : Dev) : passSide (pfcCheck d) = passSide d := by
  have send : ∀ d quanta, passSide (pfcSend d quanta) = passSide d := fun d quanta =>
    foldl_keeps passSide (fun d n => by
      refine (passSide_tick _ (decide_eq_false ?_)).trans rfl
      simp only [Ctr.prtTxPfcXoff]
      omega) _ d
  simp only [pfcCheck]
  split
  · exact (send _ _).trans rfl
  · split
    · exact (send _ _).trans rfl
    · rfl

@[simp] theorem passSide_finishRun (d : Dev) (q : FlowRun) (occ : Nat) : passSide (finishRun d q occ) = passSide d := by
  have loupe : cfgCtr (Ctr.lpeTFlowRuns q.tenant) = false := decide_eq_false (by simp only [Ctr.lpeTFlowRuns]; omega)
  refine (passSide_tickIf _ _ loupe).trans ?_
  simp only [finaliseRun]
  split <;> rfl

/-- A run that ends leaves the list, and no more (R258). -/
theorem passSide_endRun (d : Dev) (i : Nat) : passSide (endRun d i) = passSide { d with runs := d.runs.eraseIdx i } := by
  simp only [endRun, passSide_pfcCheck, passSide_finishRun]


/-! ### The completion of a run (R184, R230, R258, R259) -/

/-- A run with `n` more on its energy (R442). -/
def addEnergy (n : Nat) (q : FlowRun) : FlowRun := { q with energy := q.energy + n }

theorem chargeRun_eq (d : Dev) (i : Nat) (evts : List (Nat × Nat)) :
    ∃ n, chargeRun d i evts = { meters d evts with runs := (meters d evts).runs.modify i (addEnergy n) } := ⟨_, rfl⟩

/-- What the engines compute of a run. -/
def runWork (d : Dev) (m : Model) (q : FlowRun) (f : Option PassFault) : Work :=
  passStart (recordFault d m q.pipe f) m q.pipe q.slot (m.slotSec.passes.getD 0 default) q.feats ⟨zeros 64, false⟩ [] false []

/-- The device once the engines have computed a run, and charged it. -/
def runPassed (d : Dev) (i : Nat) (m : Model) (q : FlowRun) (f : Option PassFault) : Dev :=
  chargeRun (unscheduled (recordFault d m q.pipe f) (runWork d m q f).e.d) i (runWork d m q f).e.evts

theorem runPassed_spec (d : Dev) (i : Nat) (m : Model) (q : FlowRun) (f : Option PassFault) :
    ∃ n, passSide (runPassed d i m q f) = passSide { d with runs := d.runs.modify i (addEnergy n) } := by
  obtain ⟨n, charged⟩ := chargeRun_eq (unscheduled (recordFault d m q.pipe f) (runWork d m q f).e.d) i (runWork d m q f).e.evts
  have passed : passSide (meters (unscheduled (recordFault d m q.pipe f) (runWork d m q f).e.d) (runWork d m q f).e.evts) = passSide d := by
    simp only [passSide_meters, passSide_unscheduled, runWork, passSide_passStart, passSide_recordFault]
  refine ⟨n, ?_⟩
  rw [runPassed, charged, keeps_of_pass Dev.runs (fun _ => rfl) passed]
  exact congrArg (fun e : Dev => { e with runs := d.runs.modify i (addEnergy n) }) passed

/-- The run's ensemble hands its margins to a sprig core (R230). -/
abbrev Sprig (m : Model) : Prop := m.slotSec.scoreSrc = 0 ∧ ∃ e, m.ens = some e ∧ e.link = 4

/-- A run that the engines have computed posts its LINK task, or has its result (R230, R259). -/
def runFinish (d : Dev) (i : Nat) (m : Model) (w : Work) : Dev :=
  match m.ens with
  | some e => if m.slotSec.scoreSrc = 0 ∧ e.link = 4 then runLink d i else runResult d i (passRes m w)
  | none => runResult d i (passRes m w)

theorem runFinish_sprig (d : Dev) (i : Nat) {m : Model} (w : Work) (h : Sprig m) : runFinish d i m w = runLink d i := by
  obtain ⟨score, e, ens, link⟩ := h
  simp only [runFinish, ens, if_pos (And.intro score link)]

theorem runFinish_scores (d : Dev) (i : Nat) {m : Model} (w : Work) (h : ¬Sprig m) : runFinish d i m w = runResult d i (passRes m w) := by
  unfold runFinish
  split
  next e ens => exact if_neg fun ⟨score, link⟩ => h ⟨score, e, ens, link⟩
  next => rfl

section
variable {d : Dev} {f : Option PassFault}

theorem runComplete_idle (h : moving d = false ∨ hbmUp d = false ∨ firstIdx (fun q => q.link.isNone) d.runs = none) :
    runComplete d f = d := by
  unfold runComplete
  split
  · rfl
  next gated =>
    rcases h with h | h | h
    · exact absurd (.inl (by rw [h]; rfl)) gated
    · exact absurd (.inr (by rw [h]; rfl)) gated
    · rw [h]

variable {i : Nat} {q : FlowRun} (move : moving d = true) (up : hbmUp d = true)
  (first : firstIdx (fun q => q.link.isNone) d.runs = some i) (found : d.runs[i]? = some q)
include move up first found

theorem runComplete_noModel (none' : modelOf d q.epoch q.slot = none) : runComplete d f = endRun d i := by
  have run : d.runs.getD i default = q := by rw [List.getD_eq_getElem?_getD, found]; rfl
  rw [runComplete, if_neg (by simp [move, up]), first]
  simp only [run, none']

variable {m : Model} (model : modelOf d q.epoch q.slot = some m)
include model

/-- A physical engine whose read of a node cannot be corrected gives no result (R177). -/
theorem runComplete_unit (n : Nat) : runComplete d (some (.unit n)) = fault (endRun (tick d Ctr.espNodeCheck) i) 2 2 (n % 528) := by
  have run : d.runs.getD i default = q := by rw [List.getD_eq_getElem?_getD, found]; rfl
  rw [runComplete, if_neg (by simp [move, up]), first]
  simp only [run, model]

theorem runComplete_computes (engines : ∀ n, f ≠ some (.unit n)) : runComplete d f =
    if (runWork d m q f).broken then endRun (runPassed d i m q f) i else runFinish (runPassed d i m q f) i m (runWork d m q f) := by
  have run : d.runs.getD i default = q := by rw [List.getD_eq_getElem?_getD, found]; rfl
  rw [runComplete, if_neg (by simp [move, up]), first]
  simp only [run, model]
  match f, engines with
  | some (.unit n), engines => exact absurd rfl (engines n)
  | none, _ | some (.lane _), _ | some (.record _), _ => rfl
end

/-! ### The ends of a completed run -/

/-- What the end of a run leaves: the run has left the list; the rest that no pass changes stays. -/
theorem endRun_spec (d : Dev) (i : Nat) : (endRun d i).runs = d.runs.eraseIdx i ∧ (endRun d i).flw = d.flw ∧ (endRun d i).mem = d.mem ∧
    ∀ a, cfgCtr a = true → ctr (endRun d i) a = ctr d a := by
  have side := passSide_endRun d i
  have flw := keeps_of_pass Dev.flw (fun _ => rfl) side
  have mem := keeps_of_pass Dev.mem (fun _ => rfl) side
  refine ⟨keeps_of_pass Dev.runs (fun _ => rfl) side, flw, mem, fun a ha => ?_⟩
  rw [← ctr_passSide _ ha, side, ctr_passSide _ ha]
  rfl

/-- The LINK task of a run goes to the queue of its class (R230). -/
def linkPost (d : Dev) (i : Nat) : Dev × Bool :=
  let q := d.runs.getD i default
  postTask (fresh (fresh d).2).2 { cls := 1, src := 3, tenant := q.tenant, slot := q.slot, epoch := q.epoch, arg0 := (fresh d).1 % 2 ^ 64
                                   arg1 := (fresh (fresh d).2).1 % 2 ^ 64, seq := 0 }

theorem runLink_eq (d : Dev) (i : Nat) : runLink d i =
    if (linkPost d i).2 then
      { (linkPost d i).1 with runs := (linkPost d i).1.runs.modify i fun q => { q with link := some (lastSeq (linkPost d i).1 1) } }
    else endRun (linkPost d i).1 i := rfl

/-- The task leaves the runs, the flow table and memory as they are. -/
theorem linkPost_keeps (d : Dev) (i : Nat) : (linkPost d i).1.runs = d.runs ∧ (linkPost d i).1.flw = d.flw ∧ (linkPost d i).1.mem = d.mem := by
  have frame := postTask_frame (fresh (fresh d).2).2 { cls := 1, src := 3, tenant := (d.runs.getD i default).tenant
                                                       slot := (d.runs.getD i default).slot, epoch := (d.runs.getD i default).epoch
                                                       arg0 := (fresh d).1 % 2 ^ 64, arg1 := (fresh (fresh d).2).1 % 2 ^ 64, seq := 0 }
  have runs := congrArg Dev.runs frame
  have flw := congrArg Dev.flw frame
  have mem := congrArg Dev.mem frame
  exact ⟨runs, flw, mem⟩

/-- SPR takes the run's task: the run waits for it, the next of its class (R229, R230). -/
theorem runLink_posts {d : Dev} {i : Nat} {q : FlowRun} (fits : TaskFits d 1) (found : d.runs[i]? = some q) :
    ∃ x, (runLink d i).runs[i]? = some x ∧ x.link = some (lastSeq d 1 + 1) := by
  obtain ⟨posted, _, seq⟩ : (linkPost d i).2 = true ∧ _ ∧ lastSeq (linkPost d i).1 1 = lastSeq d 1 + 1 :=
    postTask_fits (d := (fresh (fresh d).2).2) fits
  refine ⟨{ q with link := some (lastSeq d 1 + 1) }, ?_, rfl⟩
  rw [runLink_eq, if_pos posted, seq]
  refine (List.getElem?_modify_eq _ i (linkPost d i).1.runs).trans ?_
  rw [(linkPost_keeps d i).1, found]
  rfl

theorem runLink_refused {d : Dev} {i : Nat} (full : ¬TaskFits d 1) : (runLink d i).runs = d.runs.eraseIdx i := by
  have refused : (linkPost d i).2 = false := postTask_refused (d := (fresh (fresh d).2).2) full
  rw [runLink_eq, refused, if_neg (by decide), (endRun_spec ..).1, (linkPost_keeps d i).1]

theorem runLink_keeps (d : Dev) (i : Nat) : (runLink d i).flw = d.flw ∧ (runLink d i).mem = d.mem := by
  obtain ⟨_, flw, mem⟩ := linkPost_keeps d i
  obtain ⟨_, eflw, emem, _⟩ := endRun_spec (linkPost d i).1 i
  rw [runLink_eq]
  split
  · exact ⟨flw, mem⟩
  · exact ⟨eflw.trans flw, emem.trans mem⟩

/-! ### The verdict cache of a run's entry (R97, R259, R387) -/

theorem putSide_lands {d : Dev} {i : Nat} (x : SideRec) (h : Lands d (sideAddr d i) 16) : putSide d i x = setSide d i x := by
  have len : (sideBytes x).length = 16 := by simp only [sideBytes, List.length_append, leBytes_length]
  obtain ⟨same, pieces⟩ := codeWrite_plain (len.symm ▸ h) (by rw [len]; decide)
  simp only [putSide, same, List.isEmpty_eq_false_iff.mpr pieces, Bool.false_eq_true, if_false]

/-- The cache word of a winning class and its score (R95, R259). -/
def cacheWord (m : Option Model) (slot cls score : Nat) : Nat :=
  let c := match m.bind (·.flow) with | some f => f.cache.getD (cls % 16) 0 | none => 0
  1 + put slot 1 8 + put (bits c 0 4) 9 4 + put (bits c 4 8) 13 8 + put (bits c 12 2) 21 2 + put (bits c 14 20) 23 20 + put score 43 16

section
variable {d : Dev} {q : FlowRun} (none' : NoneDue d)
include none'

/-- An entry that has gone since the run was queued takes no result (R259). -/
theorem writeCache_stale (cls score : Nat) (gone : ent? d q.entry = none ∨ genOf d q.entry ≠ q.gen) :
    writeCache d q cls score = tick d Ctr.cfgCacheStale := by
  unfold writeCache
  rw [serveDue_noneDue none']
  dsimp only
  split
  · rfl
  next e he => exact if_pos (gone.resolve_left (by rw [he]; nofun))

variable {e : FlowEnt} (here : ent? d q.entry = some e) (gen : genOf d q.entry = q.gen)
include here gen

theorem writeCache_standby (cls score : Nat) (standby' : standby d = true) : writeCache d q cls score = d := by
  unfold writeCache
  rw [serveDue_noneDue none']
  simp only [here, gen, standby', ne_eq, not_true_eq_false, if_false, if_true]

theorem writeCache_lands (cls score : Nat) (active : standby d = false) (lands : EntLands d q.entry) :
    (writeCache d q cls score).flw = (setSide d q.entry { sideOf d q.entry with
      cache := cacheWord (modelOf d q.epoch q.slot) q.slot cls score }).flw := by
  have word : writeCache d q cls score = mirrorState (meter (putSide d q.entry { sideOf d q.entry with
      cache := cacheWord (modelOf d q.epoch q.slot) q.slot cls score }) 6 1) q.entry := by
    unfold writeCache
    rw [serveDue_noneDue none']
    simp only [here, gen, active, ne_eq, not_true_eq_false, Bool.false_eq_true, if_false]
    rfl
  rw [word, (mirrorState_frame ..).1, (meter_traffic ..).2, putSide_lands _ lands.2]
end


/-! ### The start of a run (R257) -/

/-- Runs may start: the clocks run, HBM is up, and the device serves (R257, R402, R405, R407). -/
abbrev RunsMayStart (d : Dev) : Prop := moving d = true ∧ hbmUp d = true ∧ skeleton d = false ∧ fltFailed d = false

theorem runStart_idle {d : Dev} (h : ¬RunsMayStart d ∨ firstIdx (·.ready) d.runQueue = none) : runStart d = d := by
  unfold runStart
  split
  · rfl
  next gated =>
    rcases h with h | h
    · exact absurd (by simpa [not_or, and_assoc] using gated) h
    · rw [h]

/-- A run leaves the queue with a context, or is discarded for want of one and counted. -/
theorem runStart_takes {d : Dev} {i : Nat} {q : FlowRun} (may : RunsMayStart d) (first : firstIdx (·.ready) d.runQueue = some i)
    (found : d.runQueue[i]? = some q) : runStart d =
      if ctxFree d = 0 then tick { d with runQueue := d.runQueue.eraseIdx i } Ctr.cfgTrigNoctx
      else pfcCheck { d with runQueue := d.runQueue.eraseIdx i, runs := d.runs ++ [{ q with ctxT := now d }] } := by
  obtain ⟨move, up, normal, sound⟩ := may
  have run : d.runQueue.getD i default = q := by rw [List.getD_eq_getElem?_getD, found]; rfl
  rw [runStart, if_neg (by simp [move, up, normal, sound]), first]
  simp only [run]
  rfl

theorem runStart_spec {d : Dev} {i : Nat} {q : FlowRun} (may : RunsMayStart d) (first : firstIdx (·.ready) d.runQueue = some i)
    (found : d.runQueue[i]? = some q) : (runStart d).runQueue = d.runQueue.eraseIdx i ∧
      (0 < ctxFree d → (runStart d).runs = d.runs ++ [{ q with ctxT := now d }]) ∧
      (ctxFree d = 0 → (runStart d).runs = d.runs ∧ ctr (runStart d) Ctr.cfgTrigNoctx = (ctr d Ctr.cfgTrigNoctx + 1) % 2 ^ 64) := by
  rw [runStart_takes may first found]
  split
  next none' => exact ⟨rfl, fun some' => absurd none' (by omega), fun _ => ⟨rfl, ctr_tick_same ..⟩⟩
  next some' =>
    have side := passSide_pfcCheck { d with runQueue := d.runQueue.eraseIdx i, runs := d.runs ++ [{ q with ctxT := now d }] }
    exact ⟨keeps_of_pass Dev.runQueue (fun _ => rfl) side, fun _ => keeps_of_pass Dev.runs (fun _ => rfl) side, fun none' => absurd none' some'⟩

/-! ### The assignment of a slot (R249) -/

/-- The slots of the tenant besides this one. -/
def otherSlots (d : Dev) (slot owner : Nat) : Nat :=
  slotsOf d owner - (if rdB d (Reg.cfgSlotAssigned slot) = true ∧ rd d (Reg.cfgSlotOwner slot) = owner then 1 else 0)

/-- The slot may be assigned: it is EMPTY, and the tenant stays within SLOT_MAX. -/
abbrev MayAssign (d : Dev) (slot owner : Nat) (assigned : Bool) : Prop :=
  slotState d slot = 0 ∧ (assigned = true → otherSlots d slot owner < rd d (Reg.cfgTenantMdlSlotMax owner))

theorem assignSlot_eq (d : Dev) (slot owner : Nat) (assigned : Bool) : assignSlot d slot owner assigned =
    if MayAssign d slot owner assigned then wrs d [(Reg.cfgSlotOwner slot, owner), (Reg.cfgSlotAssigned slot, b2n assigned)] else d := by
  have others : b2n (rdB d (Reg.cfgSlotAssigned slot) && rd d (Reg.cfgSlotOwner slot) == owner) =
      if rdB d (Reg.cfgSlotAssigned slot) = true ∧ rd d (Reg.cfgSlotOwner slot) = owner then 1 else 0 := by
    simp only [b2n, Bool.and_eq_true, beq_iff_eq]
  simp only [assignSlot, others]
  by_cases may : MayAssign d slot owner assigned
  · rw [if_pos may, if_neg]
    rintro (held | ⟨asked, full⟩)
    · exact held may.1
    · exact absurd (may.2 asked) (Nat.not_lt.mpr full)
  · rw [if_neg may, if_pos]
    by_cases empty : slotState d slot = 0
    · exact .inr (by simpa [MayAssign, empty, otherSlots] using may)
    · exact .inl empty

theorem assignSlot_spec {d : Dev} {slot owner : Nat} {assigned : Bool} (fits : owner < 64) :
    (slotState d slot = 0 → assigned = false ∨ otherSlots d slot owner < rd d (Reg.cfgTenantMdlSlotMax owner) →
      rd (assignSlot d slot owner assigned) (Reg.cfgSlotOwner slot) = owner ∧
      rd (assignSlot d slot owner assigned) (Reg.cfgSlotAssigned slot) = (if assigned then 1 else 0) ∧
      RegsOnly d (assignSlot d slot owner assigned) [(Reg.cfgSlotOwner slot).key, (Reg.cfgSlotAssigned slot).key]) ∧
    (slotState d slot ≠ 0 ∨ (assigned = true ∧ rd d (Reg.cfgTenantMdlSlotMax owner) ≤ otherSlots d slot owner) →
      assignSlot d slot owner assigned = d) := by
  rw [assignSlot_eq]
  refine ⟨fun empty room => ?_, fun refused => if_neg ?_⟩
  · have may : MayAssign d slot owner assigned := ⟨empty, fun asked => room.resolve_left (by simp [asked])⟩
    have apart : (Reg.cfgSlotOwner slot).key ≠ (Reg.cfgSlotAssigned slot).key := by
      simp only [Reg.cfgSlotOwner, Reg.cfgSlotAssigned, Fld.at]
      omega
    rw [if_pos may]
    refine ⟨(rd_wr_ne _ _ _ _ apart).trans ((rd_wr_same ..).trans (Nat.mod_eq_of_lt fits)), (rd_wr_same ..).trans ?_,
      ((RegsOnly.refl d _).wr _ _ (by simp)).wr _ _ (by simp)⟩
    cases assigned <;> rfl
  · rintro ⟨empty, room⟩
    rcases refused with held | ⟨asked, full⟩
    · exact held empty
    · exact absurd (room asked) (Nat.not_lt.mpr full)

theorem assignSlot_pins_straps (d : Dev) (slot owner : Nat) (assigned : Bool) :
    (assignSlot d slot owner assigned).straps = d.straps ∧ (assignSlot d slot owner assigned).pins = d.pins := by
  rw [assignSlot_eq]
  split <;> exact ⟨rfl, rfl⟩

end Sys2Proof.Machine.Ops
end

section
/-!
PROOFS. The model admission (10_model_admission): the lookups that are due before a result is cached change
no run.
-/
namespace Sys2Proof.Machine.Ops

/-! ### What lookups leave of the runs (R97) -/

/-- The runs that hold a context, and the count of those that are done. -/
def runSide (d : Dev) : List FlowRun × Nat := (d.runs, ctr d Ctr.cfgRunDone)

theorem runSide_of_links {d e : Dev} (h : besideLinks e = besideLinks d) : runSide e = runSide d := keeps_of_links runSide (fun _ => rfl) h

theorem runSide_of_faults {d e : Dev} (beside : besideFaults e = besideFaults d) (cfg : cfgSide e = cfgSide d) : runSide e = runSide d :=
  Prod.ext (keeps_of_faults Dev.runs (fun _ => rfl) beside) (ctr_of_cfgSide cfg (by decide))

theorem runSide_tick (d : Dev) {a : Nat} (h : a ≠ Ctr.cfgRunDone) : runSide (tick d a) = runSide d :=
  Prod.ext rfl (ctr_tick_ne d a _ h.symm)
theorem runSide_tickIf (b : Bool) (d : Dev) {a : Nat} (h : a ≠ Ctr.cfgRunDone) : runSide (tickIf b d a) = runSide d := by
  cases b
  · rfl
  · exact runSide_tick d h

@[simp] theorem runSide_wr (d : Dev) (f : Fld) (v : Nat) : runSide (wr d f v) = runSide d := rfl
@[simp] theorem runSide_setUnit (d : Dev) (u : Nat) (r : UnitRec) : runSide (setUnit d u r) = runSide d := rfl
@[simp] theorem runSide_modUnit (d : Dev) (u : Nat) (f : UnitRec → UnitRec) : runSide (modUnit d u f) = runSide d := rfl
@[simp] theorem runSide_flw (d : Dev) (x : Flw) : runSide { d with flw := x } = runSide d := rfl
@[simp] theorem runSide_trl (d : Dev) (x : Trl) : runSide { d with trl := x } = runSide d := rfl
@[simp] theorem runSide_setEnt (d : Dev) (i : Nat) (e : FlowEnt) : runSide (setEnt d i e) = runSide d := rfl
@[simp] theorem runSide_setSide (d : Dev) (i : Nat) (x : SideRec) : runSide (setSide d i x) = runSide d := rfl
@[simp] theorem runSide_discardPend (d : Dev) (i : Nat) : runSide (discardPend d i) = runSide d := rfl
@[simp] theorem runSide_meter (d : Dev) (j n : Nat) : runSide (meter d j n) = runSide d := runSide_of_links (besideLinks_meter ..)
@[simp] theorem runSide_sendAll (d : Dev) (ty : Nat) (msg : Bytes) : runSide (sendAll d ty msg) = runSide d :=
  runSide_of_links (besideLinks_sendAll ..)
@[simp] theorem runSide_sendTo (d : Dev) (id ty handle : Nat) (msg : Bytes) : runSide (sendTo d id ty handle msg) = runSide d :=
  runSide_of_links (besideLinks_sendTo ..)
@[simp] theorem runSide_memWrite (d : Dev) (a : Nat) (bs : Bytes) : runSide (memWrite d a bs) = runSide d :=
  runSide_of_faults (besideFaults_memWrite ..) (cfgSide_memWrite ..)
@[simp] theorem runSide_codeWrite (d : Dev) (a : Nat) (bs : Bytes) : runSide (codeWrite d a bs).1 = runSide d :=
  runSide_of_faults (besideFaults_codeWrite ..) (cfgSide_codeWrite ..)
@[simp] theorem runSide_readBlock (d : Dev) (a src : Nat) : runSide (readBlock d a src).1 = runSide d :=
  runSide_of_faults (besideFaults_readBlock ..) (cfgSide_readBlock ..)

@[simp] theorem runSide_putEnt (d : Dev) (i : Nat) (e : FlowEnt) : runSide (putEnt d i e) = runSide d := by
  simp only [putEnt]
  split <;> simp only [runSide_setEnt, runSide_codeWrite]

@[simp] theorem runSide_putSide (d : Dev) (i : Nat) (x : SideRec) : runSide (putSide d i x) = runSide d := by
  simp only [putSide]
  split <;> simp only [runSide_setSide, runSide_codeWrite]

/-- A task of the log is counted in SPR's block. -/
@[simp] theorem runSide_logPost (d : Dev) : runSide (logPost d) = runSide d := by
  have post : ∀ t : Task, t.cls = 2 → runSide (postTask d t).1 = runSide d := fun t cls => by
    unfold postTask
    split
    · rfl
    · split
      · exact runSide_tick d (by rw [cls]; decide)
      · exact (runSide_tick _ (by rw [cls]; decide)).trans rfl
  unfold logPost
  split
  · exact post _ rfl
  · rfl

@[simp] theorem runSide_logRecord (d : Dev) (t idx kind tenant before after : Nat) (key : Bytes) :
    runSide (logRecord d t idx kind tenant before after key) = runSide d := by
  simp (disch := decide) only [logRecord, apply_ite runSide, runSide_logPost, runSide_wr, runSide_memWrite, runSide_tick, runSide_flw, ite_self]

@[simp] theorem runSide_mirrorEntry (d : Dev) (i : Nat) (e : FlowEnt) : runSide (mirrorEntry d i e) = runSide d := by
  unfold mirrorEntry
  split <;> rfl

@[simp] theorem runSide_mirrorState (d : Dev) (i : Nat) : runSide (mirrorState d i) = runSide d := by
  unfold mirrorState
  split
  · rfl
  · split
    · rfl
    · split
      · exact runSide_tick d (by decide)
      · rfl

theorem runSide_lpeTick (d : Dev) {a : Nat} (h : a ≠ Ctr.cfgRunDone) : runSide (lpeTick d a) = runSide d := runSide_tickIf _ d h

@[simp] theorem runSide_insertAt (d : Dev) (i : Nat) (e : FlowEnt) (t kind : Nat) : runSide (insertAt d i e t kind) = runSide d := by
  have learn : Ctr.lpeTLearn e.tenant ≠ Ctr.cfgRunDone := by
    simp only [Ctr.lpeTLearn, Ctr.cfgRunDone]
    omega
  simp only [insertAt, runSide_mirrorEntry, runSide_meter, runSide_logRecord, runSide_flw, runSide_lpeTick _ learn, runSide_putSide, runSide_putEnt]

@[simp] theorem runSide_touch (d : Dev) (i : Nat) (e : FlowEnt) (t len : Nat) : runSide (touch d i e t len) = runSide d := by
  simp only [touch, runSide_putSide, runSide_putEnt]

/-- A contest counts in FLW's block (R102). -/
theorem contest_counts (d : Dev) (e : FlowEnt) (s t : Nat) {c : Nat} (h : (contest d e s t).2.2 = some c) : c ≠ Ctr.cfgRunDone := by
  unfold contest at h
  dsimp only at h
  split at h
  · cases h
  · split at h
    · cases h; decide
    · split at h
      · split at h <;> cases h <;> decide
      · split at h <;> cases h <;> decide

@[simp] theorem runSide_hit (d : Dev) (i : Nat) (e : FlowEnt) (s t len : Nat) : runSide (hit d i e s t len) = runSide d := by
  have counted : ∀ d' c, (contest d e s t).2.2 = c → runSide (match c with | some c => tick d' c | none => d') = runSide d' := fun d' c h => by
    split
    · exact runSide_tick d' (contest_counts d e s t h)
    · rfl
  unfold hit
  split
  · rfl
  · dsimp only
    split
    all_goals simp only [runSide_mirrorEntry, runSide_logRecord, runSide_mirrorState]
    all_goals exact (counted _ _ rfl).trans ((runSide_meter ..).trans (runSide_touch ..))

@[simp] theorem runSide_takeState (d : Dev) (r : UnitRec) (i : Nat) (e : FlowEnt) : runSide (takeState d r i e).1 = runSide d := by
  unfold takeState
  split
  · exact runSide_tick d (by decide)
  · split
    · rfl
    · split <;> rfl

@[simp] theorem runSide_takeTurn (d : Dev) (u : Nat) (r : UnitRec) (m : Model) (i : Nat) (e : FlowEnt) :
    runSide (takeTurn d u r m i e).1 = runSide d := by
  have miss : Ctr.flwTurnMiss r.slot0 ≠ Ctr.cfgRunDone := by
    simp only [Ctr.flwTurnMiss, Ctr.cfgRunDone]
    omega
  unfold takeTurn
  split
  · rfl
  · split
    · exact runSide_tick d (by decide)
    · split
      · rfl
      · dsimp only
        split
        · split <;> simp only [runSide_flw, runSide_putEnt]
        · exact runSide_tick d miss

/-- A trigger queues runs, and takes none from the list (R257). -/
@[simp] theorem runSide_trigger (d : Dev) (u : Nat) (r : UnitRec) (which : Nat) (ready : Bool) (test : FlowSec → Bool) :
    runSide (trigger d u r which ready test) = runSide d := by
  unfold trigger
  split
  · rfl
  · refine foldl_keeps runSide (fun d p => ?_) _ d
    split
    · rfl
    · split
      · rfl
      · split
        · exact runSide_tick d (by decide)
        · split
          · exact runSide_tick d (by decide)
          · exact (runSide_tick _ (by decide)).trans rfl

@[simp] theorem runSide_lookupHit (d : Dev) (u : Nat) (r : UnitRec) (m : Model) (i : Nat) (e : FlowEnt) :
    runSide (lookupHit d u r m i e) = runSide d := by
  have ticked := runSide_tick d (a := Ctr.flwHit) (by decide)
  simp only [lookupHit, runSide_trigger, runSide_setUnit]
  split <;> simp only [runSide_takeTurn, runSide_takeState, runSide_hit, ticked]

@[simp] theorem runSide_lookupLearn (d : Dev) (u : Nat) (r : UnitRec) (m : Model) (i : Nat) (key : Bytes) :
    runSide (lookupLearn d u r m i key) = runSide d := by
  have ticked := runSide_tick d (a := Ctr.flwLearn) (by decide)
  simp only [lookupLearn, runSide_trigger, runSide_setUnit]
  split <;> simp only [runSide_takeTurn, runSide_takeState, runSide_insertAt, ticked]

@[simp] theorem runSide_flood (d : Dev) (key : Bytes) (t len : Nat) : runSide (flood d key t len) = runSide d := by
  unfold flood
  split
  · rfl
  · split
    · exact (runSide_tick _ (by decide)).trans (runSide_tick d (by decide))
    · exact (runSide_sendAll ..).trans (runSide_tick d (by decide))

@[simp] theorem runSide_lookupMiss (d : Dev) (u : Nat) (r : UnitRec) (m : Model) (key : Bytes) (learn : Bool) :
    runSide (lookupMiss d u r m key learn) = runSide d := by
  have failed : Ctr.lpeTInsertFail (keyTenant key) ≠ Ctr.cfgRunDone := by
    simp only [Ctr.lpeTInsertFail, Ctr.cfgRunDone]
    omega
  unfold lookupMiss
  split
  · exact (runSide_setUnit ..).trans (runSide_tick d (by decide))
  · split
    · exact runSide_lookupLearn ..
    · exact (runSide_setUnit ..).trans ((runSide_flood ..).trans ((runSide_lpeTick _ failed).trans (runSide_tick d (by decide))))

@[simp] theorem runSide_holdBucket (d : Dev) (b : Nat) : runSide (holdBucket d b) = runSide d := by
  refine (runSide_tick _ (by decide)).trans ((runSide_logRecord ..).trans ((foldl_keeps runSide (fun d w => ?_) _ _).trans rfl))
  dsimp only
  split
  · rfl
  · simp only [runSide_mirrorEntry, runSide_setEnt, runSide_discardPend]

@[simp] theorem runSide_readBucket (d : Dev) (b : Nat) : runSide (readBucket d b) = runSide d := by
  have blocks := fun x => foldl_fst_keeps (β := Bool) runSide (f := fun (x : Dev × Bool) w =>
    ((readBlock x.1 (entAddr x.1 (4 * b + w)) 0).1, x.2 || !(readBlock x.1 (entAddr x.1 (4 * b + w)) 0).2.isEmpty))
    (fun x w => runSide_readBlock ..) (List.range 4) x
  unfold readBucket
  split
  · rfl
  · dsimp only
    split
    · exact (runSide_holdBucket ..).trans (blocks (d, false))
    · exact blocks (d, false)

@[simp] theorem runSide_lookupLocal (d : Dev) (u : Nat) (r : UnitRec) (m : Model) (key : Bytes) (learn : Bool) :
    runSide (lookupLocal d u r m key learn) = runSide d := by
  simp only [lookupLocal]
  split
  · split <;> simp (disch := decide) only [runSide_lookupHit, runSide_lookupMiss, runSide_readBucket, runSide_tickIf, runSide_meter, runSide_tick]
  · simp (disch := decide) only [runSide_lookupMiss, runSide_readBucket, runSide_tickIf, runSide_meter, runSide_tick]

@[simp] theorem runSide_steerClaim (d : Dev) (i : Nat) : runSide (steerClaim d i) = runSide d := by
  simp (disch := decide) only [steerClaim, steerSet, apply_ite runSide, runSide_sendAll, runSide_sendTo, runSide_trl, runSide_tick, ite_self]

@[simp] theorem runSide_steerAway (d : Dev) (u : Nat) (r : UnitRec) (owner : Nat) : runSide (steerAway d u r owner) = runSide d := by
  simp (disch := decide) only [steerAway, apply_ite runSide, runSide_sendTo, runSide_trl, runSide_setUnit, runSide_tick, ite_self]

theorem runSide_forUnit (d : Dev) (u : Nat) {f : Dev → UnitRec → Dev} (h : ∀ d r, runSide (f d r) = runSide d) :
    runSide (forUnit d u f) = runSide d := by
  have step : runSide (withUnit d u (f d)) = runSide d := by
    unfold withUnit
    split
    · exact h ..
    · rfl
  exact (runSide_modUnit ..).trans step

@[simp] theorem runSide_flowLookup (d : Dev) (u : Nat) : runSide (flowLookup d u) = runSide d := by
  refine runSide_forUnit d u fun d r => ?_
  split
  · rfl
  · dsimp only
    split
    · exact runSide_setUnit ..
    · split
      · exact runSide_setUnit ..
      · split
        · exact runSide_lookupLocal ..
        · split
          · simp only [runSide_lookupLocal, runSide_steerClaim]
          · split
            · exact runSide_lookupLocal ..
            · exact runSide_steerAway ..

/-- The lookups that are due change no run (R97). -/
theorem runSide_serveDue (d : Dev) : runSide (serveDue d) = runSide d := by
  have serve : ∀ n d, runSide (serveUpTo n d) = runSide d := by
    intro n
    induction n with
    | zero => exact fun _ => rfl
    | succ n ih =>
      intro d
      simp only [serveUpTo]
      split
      · rw [ih, runSide_flowLookup]
      · rfl
  exact serve _ d

end Sys2Proof.Machine.Ops
end

section
/-!
PROOFS. The model admission (10_model_admission): the result of a run, in the cache of its entry and in the
counters.
-/
namespace Sys2Proof.Machine
namespace Ops

/-! ### The result of a run (R259) -/

@[simp] theorem runSide_writeCache (d : Dev) (q : FlowRun) (cls score : Nat) : runSide (writeCache d q cls score) = runSide d := by
  refine Eq.trans ?_ (runSide_serveDue d)
  unfold writeCache
  dsimp only
  split
  · exact runSide_tick _ (by decide)
  · split
    · exact runSide_tick _ (by decide)
    · split
      · rfl
      · simp only [runSide_mirrorState, runSide_meter, runSide_putSide]

/-- What a result does to the cache, before its run ends. -/
def resultCached (d : Dev) (i : Nat) (r : PassRes) : Dev :=
  match r with
  | .score c s => writeCache d (d.runs.getD i default) c s
  | .nan => tick d Ctr.cfgCacheStale
  | .none => d

theorem runResult_eq (d : Dev) (i : Nat) (r : PassRes) : runResult d i r = endRun (tick (resultCached d i r) Ctr.cfgRunDone) i := by
  cases r <;> rfl

theorem runSide_resultCached (d : Dev) (i : Nat) (r : PassRes) : runSide (resultCached d i r) = runSide d := by
  cases r with
  | score c s => exact runSide_writeCache ..
  | nan => exact runSide_tick d (by decide)
  | none => rfl

/-- A run with a result leaves the list and is counted as done; the rest is as the cache was left. -/
theorem runResult_spec (d : Dev) (i : Nat) (r : PassRes) :
    (runResult d i r).runs = d.runs.eraseIdx i ∧ ctr (runResult d i r) Ctr.cfgRunDone = (ctr d Ctr.cfgRunDone + 1) % 2 ^ 64 ∧
      (runResult d i r).flw = (resultCached d i r).flw ∧ (runResult d i r).mem = (resultCached d i r).mem ∧
      ctr (runResult d i r) Ctr.cfgCacheStale = ctr (resultCached d i r) Ctr.cfgCacheStale := by
  obtain ⟨runs, flw, mem, ctrs⟩ := endRun_spec (tick (resultCached d i r) Ctr.cfgRunDone) i
  have side := runSide_resultCached d i r
  have list : (resultCached d i r).runs = d.runs := congrArg Prod.fst side
  have done : ctr (resultCached d i r) Ctr.cfgRunDone = ctr d Ctr.cfgRunDone := congrArg Prod.snd side
  rw [runResult_eq]
  refine ⟨runs.trans (congrArg (List.eraseIdx · i) list), ?_, flw, mem, ?_⟩
  · rw [ctrs _ (by decide), ctr_tick_same, done]
  · rw [ctrs _ (by decide), ctr_tick_ne _ _ _ (by decide)]

/-! ### What a pass leaves of a run's entry and of its memory -/

theorem served_passSide (d : Dev) (a : Nat) : served (passSide d) a = served d a := by
  have live : ∀ s, liveUnits (passSide d) s = liveUnits d s := fun s => by
    cases s <;> simp (disch := decide) only [liveUnits, rd_passSide, Bool.false_eq_true, if_true, if_false]
  have map : ∀ s, map3 (passSide d) s = map3 d s := fun s => by
    cases s <;> simp (disch := decide) only [map3, rdB, rd_passSide, Bool.false_eq_true, if_true, if_false]
  have unit : unitAt (passSide d) a = unitAt d a := by simp only [unitAt, live, map]
  have gone : ∀ u, unitGone (passSide d) u = unitGone d u := fun u => by simp (disch := decide) only [unitGone, rd_passSide]
  have range : mapped (passSide d) a = mapped d a := by simp only [mapped, map]
  have medium : mediumUp (passSide d) a = mediumUp d a := by
    have hbm : powered (passSide d) 5 = powered d 5 := rfl
    simp (disch := decide) only [mediumUp, rdB, rd_passSide, hbm]
  simp only [served, reachable, unit, gone, range, medium]

theorem lands_passSide (d : Dev) (a n : Nat) : Lands (passSide d) a n = Lands d a n := by
  have arm : rdB (passSide d) Reg.memInjCtlArm = rdB d Reg.memInjCtlArm := congrArg (· % 2 == 1) (rd_passSide d (by decide))
  have mem : (passSide d).mem = d.mem := rfl
  simp only [Lands, served_passSide, arm, mem]

theorem entLands_passSide (d : Dev) (i : Nat) : EntLands (passSide d) i = EntLands d i := by
  have table : entAddr (passSide d) i = entAddr d i := by simp (disch := decide) only [entAddr, tableBase, rd64, rd_passSide]
  have side : sideAddr (passSide d) i = sideAddr d i := by simp (disch := decide) only [sideAddr, sideBase, rd64, rd_passSide]
  simp only [EntLands, lands_passSide, table, side]

theorem standby_passSide (d : Dev) : standby (passSide d) = standby d := congrArg (· == 2) (rd_passSide d (by decide))

section
variable {d e : Dev} {i n : Nat} {q : FlowRun} (found : d.runs[i]? = some q)
  (passed : passSide e = passSide { d with runs := d.runs.modify i (addEnergy n) })
include passed

/-- Only the run's energy has changed in the list. -/
theorem passed_runs : e.runs = d.runs.modify i (addEnergy n) := keeps_of_pass Dev.runs (fun _ => rfl) passed
theorem passed_flw : e.flw = d.flw := (keeps_of_pass Dev.flw (fun _ => rfl) passed).trans rfl
theorem passed_mem : e.mem = d.mem := (keeps_of_pass Dev.mem (fun _ => rfl) passed).trans rfl
theorem passed_noneDue (none' : NoneDue d) : NoneDue e := keeps_of_pass NoneDue (fun _ => rfl) passed ▸ none'
theorem passed_ctr {a : Nat} (ha : cfgCtr a = true) : ctr e a = ctr d a := by
  rw [← ctr_passSide e ha, passed, ctr_passSide _ ha]
  rfl

theorem passed_eraseIdx : e.runs.eraseIdx i = d.runs.eraseIdx i := by
  rw [passed_runs passed, List.eraseIdx_modify_of_eq]

/-- The end of the run after its pass. -/
theorem passed_endRun : (endRun e i).runs = d.runs.eraseIdx i ∧ (endRun e i).flw = d.flw ∧ (endRun e i).mem = d.mem := by
  obtain ⟨runs, flw, mem, _⟩ := endRun_spec e i
  exact ⟨runs.trans (passed_eraseIdx passed), flw.trans (passed_flw passed), mem.trans (passed_mem passed)⟩

include found in
theorem passed_run : e.runs[i]? = some (addEnergy n q) := by
  rw [passed_runs passed, List.getElem?_modify_eq, found]
  rfl

include found in
theorem passed_link : (TaskFits d 1 → ∃ x, (runLink e i).runs[i]? = some x ∧ x.link = some (lastSeq d 1 + 1)) ∧
    (¬TaskFits d 1 → (runLink e i).runs = d.runs.eraseIdx i) ∧ (runLink e i).flw = d.flw ∧ (runLink e i).mem = d.mem := by
  have fits : TaskFits e 1 = TaskFits d 1 := (keeps_of_pass (TaskFits · 1) (fun _ => rfl) passed).trans rfl
  have seq : lastSeq e 1 = lastSeq d 1 := (keeps_of_pass (lastSeq · 1) (fun _ => rfl) passed).trans rfl
  obtain ⟨flw, mem⟩ := runLink_keeps e i
  refine ⟨fun h => ?_, fun h => ?_, flw.trans (passed_flw passed), mem.trans (passed_mem passed)⟩
  · rw [← seq]
    exact runLink_posts (fits ▸ h) (passed_run found passed)
  · rw [← passed_eraseIdx passed]
    exact runLink_refused (fits ▸ h)

/-- No result, or a NaN, leaves the cache as it was (R259). -/
theorem passed_noScore : ((runResult e i .none).flw = d.flw ∧ (runResult e i .none).mem = d.mem) ∧
    (runResult e i .nan).flw = d.flw ∧ (runResult e i .nan).mem = d.mem ∧
      ctr (runResult e i .nan) Ctr.cfgCacheStale = (ctr d Ctr.cfgCacheStale + 1) % 2 ^ 64 := by
  obtain ⟨_, _, flw, mem, _⟩ := runResult_spec e i .none
  obtain ⟨_, _, flw', mem', stale⟩ := runResult_spec e i .nan
  have flw₀ := passed_flw passed
  have mem₀ := passed_mem passed
  refine ⟨⟨flw.trans flw₀, mem.trans mem₀⟩, flw'.trans flw₀, mem'.trans mem₀, ?_⟩
  rw [stale, ← passed_ctr passed (a := Ctr.cfgCacheStale) (by decide)]
  exact ctr_tick_same ..

theorem passed_result (r : PassRes) : (runResult e i r).runs = d.runs.eraseIdx i ∧
    ctr (runResult e i r) Ctr.cfgRunDone = (ctr d Ctr.cfgRunDone + 1) % 2 ^ 64 := by
  obtain ⟨runs, done, _⟩ := runResult_spec e i r
  refine ⟨runs.trans (passed_eraseIdx passed), ?_⟩
  rw [done, passed_ctr passed (by decide)]

include found

theorem resultCached_score (c sc : Nat) : resultCached e i (.score c sc) = writeCache e (addEnergy n q) c sc := by
  rw [resultCached, List.getD_eq_getElem?_getD, passed_run found passed]
  rfl

variable (c sc : Nat) (none' : NoneDue d)
include none'

/-- A score for an entry that has gone is counted as stale (R259). -/
theorem passed_stale (gone : ent? d q.entry = none ∨ genOf d q.entry ≠ q.gen) :
    (runResult e i (.score c sc)).flw = d.flw ∧ (runResult e i (.score c sc)).mem = d.mem ∧
      ctr (runResult e i (.score c sc)) Ctr.cfgCacheStale = (ctr d Ctr.cfgCacheStale + 1) % 2 ^ 64 := by
  obtain ⟨_, _, flw, mem, stale⟩ := runResult_spec e i (.score c sc)
  have gone' : ent? e q.entry = none ∨ genOf e q.entry ≠ q.gen := by
    simpa only [ent?, genOf, passed_flw passed] using gone
  rw [resultCached_score found passed, writeCache_stale (q := addEnergy n q) (passed_noneDue passed none') c sc gone'] at flw mem stale
  have flw₀ := passed_flw passed
  have mem₀ := passed_mem passed
  refine ⟨flw.trans flw₀, mem.trans mem₀, ?_⟩
  rw [stale, ctr_tick_same, passed_ctr passed (by decide)]

variable {x : FlowEnt} (here : ent? d q.entry = some x) (gen : genOf d q.entry = q.gen)
include here gen

/-- A STANDBY device writes no cache (R387; log entry 96). -/
theorem passed_standby (standby' : standby d = true) :
    (runResult e i (.score c sc)).flw = d.flw ∧ (runResult e i (.score c sc)).mem = d.mem := by
  obtain ⟨_, _, flw, mem, _⟩ := runResult_spec e i (.score c sc)
  have still : standby e = true := ((keeps_of_pass standby standby_passSide passed).trans rfl).trans standby'
  have here' : ent? e q.entry = some x := by simpa only [ent?, passed_flw passed] using here
  have gen' : genOf e q.entry = q.gen := by simpa only [genOf, passed_flw passed] using gen
  rw [resultCached_score found passed, writeCache_standby (q := addEnergy n q) (passed_noneDue passed none') here' gen' c sc still] at flw mem
  exact ⟨flw.trans (passed_flw passed), mem.trans (passed_mem passed)⟩

/-- A score reaches the side record of its entry, and no other (R95, R259). -/
theorem passed_lands {m : Model} (model : modelOf d q.epoch q.slot = some m) (active : standby d = false) (lands : EntLands d q.entry) :
    (runResult e i (.score c sc)).flw = (setSide d q.entry { sideOf d q.entry with cache := cacheWord (some m) q.slot c sc }).flw := by
  obtain ⟨_, _, flw, _, _⟩ := runResult_spec e i (.score c sc)
  have still : standby e = false := ((keeps_of_pass standby standby_passSide passed).trans rfl).trans active
  have here' : ent? e q.entry = some x := by simpa only [ent?, passed_flw passed] using here
  have gen' : genOf e q.entry = q.gen := by simpa only [genOf, passed_flw passed] using gen
  have lands' : EntLands e q.entry := keeps_of_pass (EntLands · q.entry) (entLands_passSide · _) passed ▸ lands
  have model' : modelOf e q.epoch q.slot = some m := ((keeps_of_pass (modelOf · q.epoch q.slot) (fun _ => rfl) passed).trans rfl).trans model
  rw [flw, resultCached_score found passed,
    writeCache_lands (q := addEnergy n q) (passed_noneDue passed none') here' gen' c sc still lands']
  simp only [setSide, sideOf, passed_flw passed, addEnergy, model']
end

end Ops
end Sys2Proof.Machine
end

section
/-!
PROOFS. The model admission (10_model_admission): a run completes, and the obligation on refit policies,
runs and slots.
-/
namespace Sys2Proof.Machine.Ops

/-! ### The fault of a physical engine (R177, R399) -/

@[simp] theorem besideFaults_poolFault (d : Dev) (code cls pool n unit : Nat) : besideFaults (poolFault d code cls pool n unit) = besideFaults d := by
  simp only [poolFault]
  split
  · exact besideFaults_fltLog ..
  · split
    · exact besideFaults_fltLog ..
    · split <;> simp only [besideFaults_fltLog, besideFaults_enterHold, besideFaults_startRemap, besideFaults_flt]

theorem besideFaults_engineFault (d : Dev) (code unit : Nat) : besideFaults (fault d code 2 unit) = besideFaults d := by
  unfold fault
  split
  · simp only [besideFaults_flt, besideFaults_fltLog]
  · simp only [faultActs, poolOf, besideFaults_fltLog, besideFaults_poolFault, apply_ite besideFaults, ite_self]

theorem engineFault_keeps (d : Dev) (code unit : Nat) :
    (fault d code 2 unit).runs = d.runs ∧ (fault d code 2 unit).flw = d.flw ∧ (fault d code 2 unit).mem = d.mem := by
  have beside := besideFaults_engineFault d code unit
  have cfg := memCfg_fault d code unit (cls := 2) (by decide)
  exact ⟨keeps_of_faults Dev.runs (fun _ => rfl) beside, keeps_of_faults Dev.flw (fun _ => rfl) beside, congrArg Prod.fst cfg⟩

/-! ### The completion of the oldest run (R184, R258, R259) -/

section
variable {d : Dev} {i : Nat} {q : FlowRun} {f : Option PassFault} (move : moving d = true) (up : hbmUp d = true)
  (first : firstIdx (fun q => q.link.isNone) d.runs = some i) (found : d.runs[i]? = some q)
include move up first found

/-- Without its model, or with its engine lost, a run ends and leaves no result. -/
theorem runComplete_fails (fails : modelOf d q.epoch q.slot = none ∨ ∃ n, f = some (.unit n)) :
    (runComplete d f).runs = d.runs.eraseIdx i ∧ (runComplete d f).flw = d.flw ∧ (runComplete d f).mem = d.mem := by
  cases model : modelOf d q.epoch q.slot with
  | none =>
    obtain ⟨runs, flw, mem, _⟩ := endRun_spec d i
    rw [runComplete_noModel move up first found model]
    exact ⟨runs, flw, mem⟩
  | some m =>
    obtain ⟨n, rfl⟩ := fails.resolve_left (by rw [model]; nofun)
    obtain ⟨runs, flw, mem, _⟩ := endRun_spec (tick d Ctr.espNodeCheck) i
    obtain ⟨fruns, fflw, fmem⟩ := engineFault_keeps (endRun (tick d Ctr.espNodeCheck) i) 2 (n % 528)
    rw [runComplete_unit move up first found model]
    exact ⟨fruns.trans runs, fflw.trans flw, fmem.trans mem⟩

variable {m : Model} (model : modelOf d q.epoch q.slot = some m) (engines : ∀ n, f ≠ some (.unit n))
include model engines

/-- A run whose read of a record is lost in its pass ends without a result. -/
theorem runComplete_broken (broken : (runWork d m q f).broken = true) :
    (runComplete d f).runs = d.runs.eraseIdx i ∧ (runComplete d f).flw = d.flw ∧ (runComplete d f).mem = d.mem := by
  obtain ⟨n, passed⟩ := runPassed_spec d i m q f
  rw [runComplete_computes move up first found model engines, if_pos broken]
  exact passed_endRun passed

/-- A run whose margins go to a sprig core waits for its LINK task, or ends without it (R230). -/
theorem runComplete_sprig (sound : (runWork d m q f).broken = false) (sprig : Sprig m) :
    (TaskFits d 1 → ∃ x, (runComplete d f).runs[i]? = some x ∧ x.link = some (lastSeq d 1 + 1)) ∧
    (¬TaskFits d 1 → (runComplete d f).runs = d.runs.eraseIdx i) ∧ (runComplete d f).flw = d.flw ∧ (runComplete d f).mem = d.mem := by
  obtain ⟨n, passed⟩ := runPassed_spec d i m q f
  rw [runComplete_computes move up first found model engines, if_neg (by simp [sound]), runFinish_sprig _ _ _ sprig]
  exact passed_link found passed

theorem runComplete_scores (sound : (runWork d m q f).broken = false) (scores : ¬Sprig m) :
    runComplete d f = runResult (runPassed d i m q f) i (passRes m (runWork d m q f)) := by
  rw [runComplete_computes move up first found model engines, if_neg (by simp [sound]), runFinish_scores _ _ _ scores]
end

@[simp] theorem sideOf_sealed (d t : Dev) (i : Nat) : sideOf (sealed d t) i = sideOf t i := rfl

/-- A side record that is placed leaves the entries and the other side records. -/
theorem setSide_flw {d e : Dev} {i : Nat} {x : SideRec} (h : e.flw = (setSide d i x).flw) :
    e.flw.ents = d.flw.ents ∧ (∀ j, j ≠ i → sideOf e j = sideOf d j) ∧ sideOf e i = x := by
  simp only [sideOf, h]
  exact ⟨rfl, fun j hj => getD_set_ne (h := hj) .., getD_set_same ..⟩

end Sys2Proof.Machine.Ops
end

section
namespace Sys2Proof.Machine
open Ops

theorem does_flowRunStart {s : State} (awake : Awake s) : Does .flowRunStart s fun d => d = sealed s.dev (runStart s.dev) :=
  does_run runStart awake rfl rfl

theorem does_flowRunComplete {s : State} (f : Option PassFault) (awake : Awake s) :
    Does (.flowRunComplete f) s fun d => d = sealed s.dev (runComplete s.dev f) := does_run (runComplete · f) awake rfl rfl

theorem does_slotAssign {s : State} (slot : Slot) (w : Word) (awake : Awake s) (arrives : Arrives s.dev 0 (0x00204000 + 4 * slot.val) true) :
    Does (.slotAssign slot w) s fun d => d = assignSlot s.dev slot (bits w.toNat 0 6) (bit w.toNat 6) := by
  obtain ⟨straps, pins⟩ := assignSlot_pins_straps s.dev slot (bits w.toNat 0 6) (bit w.toNat 6)
  exact does_access' 0 _ true (fun d => assignSlot d slot (bits w.toNat 0 6) (bit w.toNat 6)) awake arrives rfl straps pins rfl

theorem sealed_self {d e : Dev} (h : e = d) : sealed d e = d := by
  rw [h]
  exact sealed_of_eq d d rfl rfl

/-- Settles O49: the rules of the interval, of COMMIT and DISCARD, of the start of a run, of its completion through the pass and the ends of
a run, and of the assignment of a slot, one for each clause. -/
theorem policiesAndRunsAdvance : Obligations.PoliciesAndRunsAdvance := by
  unfold Obligations.PoliciesAndRunsAdvance
  refine ⟨fun s slot awake => (does_refitInterval slot awake).leaves ⟨polInterval_early, fun on due => ?_⟩,
    fun s fn slot awake arrives => (does_refitCommit fn slot awake arrives).leaves (polCommit_spec ..),
    fun s fn slot awake arrives => (does_refitDiscard fn slot awake arrives).leaves (polDiscard_spec ..),
    fun s awake => (does_flowRunStart awake).leaves ⟨fun idle => sealed_self (runStart_idle idle), fun i q may first found => ?_⟩,
    fun s f i q m awake move up first found model engines => (does_flowRunComplete f awake).leaves
      ⟨fun broken => ?_, fun sound sprig => ?_, fun sound scores => ?_⟩,
    fun s f i q awake move up first found fails => (does_flowRunComplete f awake).leaves (runComplete_fails move up first found fails),
    fun s f awake idle => (does_flowRunComplete f awake).leaves (sealed_self (runComplete_idle idle)),
    fun s slot w awake arrives => (does_slotAssign slot w awake arrives).leaves (assignSlot_spec (Nat.mod_lt _ (by decide)))⟩
  case refine_1 =>
    obtain ⟨since, idle, failed, busy⟩ := polInterval_spec s.dev slot on due
    refine ⟨since, fun state bank part _ => ?_, failed, fun state => ?_⟩
    · obtain ⟨few, enough⟩ := idle state bank part
      exact ⟨few, fun labels gate room => enough labels ⟨gate, room⟩⟩
    · rw [busy state]
      exact ⟨rfl, rfl, rfl⟩
  case refine_2 => exact runStart_spec may first found
  case refine_3 => exact runComplete_broken move up first found model engines broken
  case refine_4 => exact runComplete_sprig move up first found model engines sound sprig
  case refine_5 =>
    obtain ⟨n, passed⟩ := runPassed_spec s.dev i m q f
    have scored := runComplete_scores move up first found model engines sound scores
    obtain ⟨runs, done⟩ := passed_result passed (passRes m (runWork s.dev m q f))
    obtain ⟨none', nan⟩ := passed_noScore passed
    simp only [sealed_runs, sealed_flw, sealed_mem, ctr_sealed, sideOf_sealed, scored]
    refine ⟨runs, done, fun r => ?_, fun r => ?_,
      fun c sc r due => ⟨fun gone => ?_, fun e here gen => ⟨fun standby => ?_, fun active lands => ?_⟩⟩⟩
    all_goals rw [show passRes m (runWork s.dev m q f) = _ from r]
    · exact none'
    · exact nan
    · exact passed_stale found passed c sc due gone
    · exact passed_standby found passed c sc due here gen standby
    · exact setSide_flw (passed_lands found passed c sc due here gen model active lands)

end Sys2Proof.Machine
end
